-- ==== Sys2Proof/Word.lean ====
section
/-! DEFINITION. The words of the part: bytes of cells and records, pixels, and the wrapping counters. -/

namespace Sys2Proof

/-- One byte of a cell, a record or the flash (12 section 12.1). -/
abbrev Byte := BitVec 8

/-- A 16-bit word: a pixel (R85) or a job's serial (R113). -/
abbrev Word16 := BitVec 16

/-- A counter from 0 to 4,294,967,295 that wraps (R16), and the register of the CRC-32 (R175). -/
abbrev Word32 := BitVec 32

end Sys2Proof
end

