-- ==== Sys2Proof/Config.lean ====
section
/-! DEFINITION. What is fixed for the part, and the values its spec leaves open. -/

namespace Sys2Proof.Config

/-- The screen area budget in cell units (00 section 4, R64, R99). -/
def areaBudget : Nat := 24480

/-- Full size: 240 column groups (00 section 4). -/
def fullWidth : Nat := 240

/-- Full size: 68 bands (00 section 4). -/
def fullHeight : Nat := 68

/-- Requests a port's queue holds (R157). -/
def queueDepth : Nat := 4

/-- Addresses a runner's return stack holds (R136). -/
def stackDepth : Nat := 4

/-- Entries a runner executes without waiting before it faults with SPIN (R139). -/
def spinLimit : Nat := 64

/-- The first position past the cue store (R139). -/
def cueStoreEnd : Nat := 1024

/-- The image area of the flash in bytes (11 section 11.1). -/
def imageArea : Nat := 262144

/-- The format number of the images this part writes (12 section 12.5). -/
def imageFormat : Nat := 1

/-- What an erased byte of the flash reads as. PRESUMED (log 10): the spec does not give it. Unsafe. -/
def erasedByte : Byte := 0xFF

/-- The detail of a condition whose rule states none (log 8). A free value; safe. -/
opaque freeDetail : Nat → Word16

/-- The milliseconds passed on a WAIT QUALIFIED timer when it is read (log 9). A free value; safe. -/
opaque freeElapsed : Nat → Nat

/-- The byte at an address of an image area whose contents the spec does not give (R173, R174, log 12):
the first argument numbers the occasion. A free value; safe. -/
opaque freeByte : Nat → Nat → Byte

end Sys2Proof.Config
end

