-- ==== Sys2Proof/Syntax.lean ====
section
/-! DEFINITION. The commands of the part: one constructor for each row of spec/opcode_table.json. -/

namespace Sys2Proof

/-- The two cadence generators (05 section 5.2). -/
inductive Cadence
  | a
  | b
deriving DecidableEq, Repr

/-- The part's commands. Cells arrive with their bytes (log 2); the service of a request and the execution of a
cue entry read the request and the entry from the state (log 3). -/
inductive Instr
  /-- POWER_ON (R175). -/
  | powerOn
  /-- START_UP_END (R176). -/
  | startUpEnd
  /-- BAND_CELL (R4). -/
  | bandCell (port : Fin 16) (cell : List Byte)
  /-- CONTROL_CELL (R157). -/
  | controlCell (port : Fin 16) (cell : List Byte)
  /-- IDLE_CELL (R2). -/
  | idleCell (port : Fin 16) (cell : List Byte)
  /-- MALFORMED_CELL (R1). -/
  | malformedCell (port : Fin 16) (cell : List Byte)
  /-- SILENCE_TIMER_EXPIRY (R3). -/
  | silenceTimerExpiry (port : Fin 16)
  /-- STALE_TIMER_EXPIRY (R25). -/
  | staleTimerExpiry (source : Fin 16)
  /-- CADENCE_TICK (R72). -/
  | cadenceTick (cadence : Cadence)
  /-- SCREEN_TICK (R71). -/
  | screenTick (screen : Fin 24)
  /-- WAIT_PICTURES_COUNT_END (R133). -/
  | waitPicturesCountEnd (runner : Fin 4)
  /-- SECOND_TICK (R148). -/
  | secondTick
  /-- WAIT_QUALIFIED_TIMER_EXPIRY (R135). -/
  | waitQualifiedTimerExpiry (runner : Fin 4)
  /-- MEMBER_LOAD_COMPLETION (R116). -/
  | memberLoadCompletion
  /-- TAKE_RESULT_TAKEN (R132). -/
  | takeResultTaken (runner : Fin 4)
  /-- ERASE_COMPLETE (R173). -/
  | eraseComplete
  /-- PROGRAM_COMPLETE (R173). -/
  | programComplete
  /-- READ_BACK_COMPLETE (R173). -/
  | readBackComplete (differing : List Host.Cell)
  /-- FLASH_NO_ANSWER (R173). -/
  | flashNoAnswer
  /-- SET_SOURCE (R31). -/
  | setSource
  /-- REQUALIFY (R30). -/
  | requalify
  /-- READ_SOURCE (R33). -/
  | readSource
  /-- CAPTURE (R46). -/
  | capture
  /-- RELEASE_STILL (R47). -/
  | releaseStill
  /-- READ_POOL (R52). -/
  | readPool
  /-- LOAD_LAYOUT (R60). -/
  | loadLayout
  /-- ERASE_LAYOUT (R67). -/
  | eraseLayout
  /-- READ_LAYOUT (R68). -/
  | readLayout
  /-- SET_SCREEN (R92). -/
  | setScreen
  /-- SET_CADENCE (R73). -/
  | setCadence
  /-- SET_PALETTE (R86). -/
  | setPalette
  /-- FREEZE (R88). -/
  | freeze
  /-- SET_PULSE (R89). -/
  | setPulse
  /-- READ_SCREEN (R93). -/
  | readScreen
  /-- WINDOW_TAKE (R96). -/
  | windowTake
  /-- ROTATE (R107). -/
  | rotate
  /-- SET_RAMP (R104). -/
  | setRamp
  /-- LOAD_ROTATION (R106). -/
  | loadRotation
  /-- READ_RAMP (R109). -/
  | readRamp
  /-- READ_ROTATION (R109). -/
  | readRotation
  /-- LOAD_SCENE (R111). -/
  | loadScene
  /-- ERASE_SCENE (R112). -/
  | eraseScene
  /-- READ_SCENE (R112). -/
  | readScene
  /-- TAKE_SCENE (R114). -/
  | takeScene
  /-- TAKE_LAYOUT (R114). -/
  | takeLayout
  /-- REVERT (R115). -/
  | revert
  /-- ABORT_TAKE (R122). -/
  | abortTake
  /-- READ_TAKE (R126). -/
  | readTake
  /-- LOAD_CUES (R128). -/
  | loadCues
  /-- READ_CUES (R129). -/
  | readCues
  /-- START_CUE (R143). -/
  | startCue
  /-- STOP_CUE (R144). -/
  | stopCue
  /-- RESUME_CUE (R145). -/
  | resumeCue
  /-- READ_RUNNER (R146). -/
  | readRunner
  /-- SET_TIME (R149). -/
  | setTime
  /-- SET_ALARM (R152). -/
  | setAlarm
  /-- SET_TRIGGER (R154). -/
  | setTrigger
  /-- READ_SCHEDULE (R155). -/
  | readSchedule
  /-- SET_GRANT (R166). -/
  | setGrant
  /-- READ_GRANTS (R166). -/
  | readGrants
  /-- STATUS (R170). -/
  | status
  /-- FETCH_CONDITION (R163). -/
  | fetchCondition
  /-- RESTART (R167). -/
  | restart
  /-- SAVE_TABLES (R172). -/
  | saveTables
  /-- CUE_TAKE_SCENE (R131). -/
  | cueTakeScene (runner : Fin 4)
  /-- CUE_TAKE_LAYOUT (R131). -/
  | cueTakeLayout (runner : Fin 4)
  /-- CUE_REVERT (R131). -/
  | cueRevert (runner : Fin 4)
  /-- CUE_WINDOW_TAKE (R130). -/
  | cueWindowTake (runner : Fin 4)
  /-- CUE_FREEZE (R130). -/
  | cueFreeze (runner : Fin 4)
  /-- CUE_SET_PULSE (R130). -/
  | cueSetPulse (runner : Fin 4)
  /-- CUE_CAPTURE (R130). -/
  | cueCapture (runner : Fin 4)
  /-- CUE_RELEASE_STILL (R130). -/
  | cueReleaseStill (runner : Fin 4)
  /-- CUE_ROTATE (R108). -/
  | cueRotate (runner : Fin 4)
  /-- CUE_REQUALIFY (R130). -/
  | cueRequalify (runner : Fin 4)
  /-- WAIT_PICTURES (R133). -/
  | waitPictures (runner : Fin 4)
  /-- WAIT_TIME (R134). -/
  | waitTime (runner : Fin 4)
  /-- WAIT_QUALIFIED (R135). -/
  | waitQualified (runner : Fin 4)
  /-- JUMP (R136). -/
  | jump (runner : Fin 4)
  /-- CALL (R136). -/
  | call (runner : Fin 4)
  /-- RETURN (R137). -/
  | returnEntry (runner : Fin 4)
  /-- HALT (R137). -/
  | haltEntry (runner : Fin 4)
  /-- CONTROL_CELL_OUT_OF_SYNC (R2). -/
  | controlCellOutOfSync (port : Fin 16) (cell : List Byte)
  /-- EMPTY_ENTRY (R139). -/
  | emptyEntry (runner : Fin 4)
  /-- UNKNOWN_REQUEST (R160). -/
  | unknownRequest
deriving DecidableEq, Repr

end Sys2Proof
end

