-- ==== Sys2Proof/Machine/State.lean ====
section
/-! DEFINITION. Everything the spec gives the part to hold, as plain data; its values right after power-on; and
the reasons a step can stop. -/

namespace Sys2Proof.Machine

/-! ### Feed ports (01, 10) -/

/-- A picture format: column groups, bands, pictures per second (R7, section 1.4). -/
structure Format where
  width : Nat
  height : Nat
  rate : Nat
deriving DecidableEq, Repr

/-- Link sync (R2, R3). -/
inductive LinkState
  | outOfSync
  | inSync
deriving DecidableEq, Repr

/-- The assembly record (01 section 1.4): the last five fields are present in ASSEMBLING only. -/
inductive Assembly
  | idle
  | discarding
  | assembling (slot : Fin 64) (number : Byte) (format : Format) (expected : Nat) (errored : Bool)
deriving DecidableEq, Repr

/-- The six counters of a port (R16). -/
structure PortCounters where
  received : Word32
  discarded : Word32
  malformed : Word32
  truncated : Word32
  gaps : Word32
  checkFailed : Word32
deriving DecidableEq, Repr

/-- A port's management right (R165). -/
inductive Grant
  | none
  | observe
  | full
deriving DecidableEq, Repr

/-- A queued request: tag, code and parameters as received (10 section 10.1). -/
structure Request where
  tag : Byte
  code : Byte
  params : List Byte
deriving DecidableEq, Repr

/-- The condition codes of R162, class by class, then the fault kinds of a runner's own (R141). -/
inductive Code
  | powerOnImage
  | powerOnEmpty
  | restarted
  | unknownRequest
  | badLength
  | reservedNotZero
  | fieldOutOfRange
  | badRecordCheck
  | observeOnly
  | lastFullGrant
  | screenNotShowing
  | screenNotDark
  | noSuchWindow
  | emptyLayout
  | emptyScene
  | nothingToCapture
  | stillNotPinned
  | cadenceInUse
  | memberOfTake
  | noTake
  | runnerActive
  | runnerNotFaulted
  | timeUnset
  | geometry
  | layerClash
  | layoutTooLarge
  | duplicateScreen
  | emptyEntry
  | address
  | stackOverflow
  | stackUnderflow
  | spin
  | waitTimeout
  | rotationExhausted
  | takeAborted
deriving DecidableEq, Repr

/-- A condition record that is not empty (R162); the class is read from the code. -/
structure Condition where
  code : Code
  detail : Nat
  tag : Byte
deriving DecidableEq, Repr

/-- A port's change summary (R169). -/
structure ChangeMarks where
  sources : Vector Bool 16
  screens : Vector Bool 24
  runners : Vector Bool 4
  take : Bool
deriving DecidableEq, Repr

/-- Every mark set (R169: at power-on and at RESTART). -/
def ChangeMarks.all : ChangeMarks :=
  ⟨Vector.replicate 16 true, Vector.replicate 24 true, Vector.replicate 4 true, true⟩

/-- No mark set (R170: after a STATUS). -/
def ChangeMarks.clear : ChangeMarks :=
  ⟨Vector.replicate 16 false, Vector.replicate 24 false, Vector.replicate 4 false, false⟩

/-- A feed port: link sync and assembler (01), and what the request unit holds for the port (10). -/
structure Port where
  link : LinkState
  goodRun : Nat
  badRun : Nat
  /-- Whether the silence timer runs (R17: stopped until the first cell arrives). -/
  silence : Bool
  assembly : Assembly
  reference : Option Byte
  counters : PortCounters
  grant : Grant
  /-- Oldest first (R157). -/
  queue : List Request
  condition : Option Condition
  attention : Bool
  marks : ChangeMarks
  /-- The reply cells sent on the return lane, oldest first (log 16). -/
  lane : List (List Byte)
deriving DecidableEq, Repr

/-! ### Sources (02) -/

/-- The six source states (02 section 2.1). -/
inductive SourceState
  | disabled
  | down
  | acquiring
  | qualified
  | suspect
  | failed
deriving DecidableEq, Repr

/-- The six parameters of SET SOURCE (R31). -/
structure SourceParams where
  enable : Bool
  passRun : Nat
  minPictures : Nat
  maxPictures : Nat
  suspectLimit : Nat
  staleLimit : Nat
deriving DecidableEq, Repr

/-- A source record (02 section 2.1). -/
structure Source where
  state : SourceState
  params : SourceParams
  seen : Nat
  cleanRun : Nat
  missRun : Nat
  /-- RUNNING with the stale limit in force at its last start (R25), or STOPPED. -/
  stale : Option Nat
  format : Option Format
  completed : Word32
  errored : Word32
  starved : Word32
  skipped : Word32
  toQualify : Nat
deriving DecidableEq, Repr

/-- The source events (R32). -/
inductive SourceEvent
  | qualified
  | failed
  | down
deriving DecidableEq, Repr

/-! ### The picture pool (03) -/

/-- The four slot states (03 section 3.1). -/
inductive SlotState
  | free
  | filling
  | ready
  | retired
deriving DecidableEq, Repr

/-- The fields of a slot that are absent in FREE (R36). -/
structure PictureTag where
  owner : Fin 16
  number : Byte
  format : Format
deriving DecidableEq, Repr

/-- A pool slot: its record and the payloads of the bands written into it, in order. -/
structure Slot where
  state : SlotState
  picture : Option PictureTag
  holds : Nat
  bands : List (List Byte)
deriving DecidableEq, Repr

/-- The starvation record (03 section 3.6). -/
structure Starvation where
  thisSecond : Nat
  lastSecond : Nat
  total : Word32
  lastDrop : Option (Fin 16 × Nat)
deriving DecidableEq, Repr

/-! ### Layouts (04) and screen contexts (05) -/

/-- What a window shows when its source cannot be resolved (R78). -/
inductive Fallback
  | hold
  | slate
  | backup
deriving DecidableEq, Repr

/-- How a window changes to a new source (R97, R98). -/
inductive Transition
  | cut
  | dissolve (length : Nat)
deriving DecidableEq, Repr

/-- A window of a layout record (04 section 4.1). -/
structure Window where
  number : Nat
  source : Nat
  top : Nat
  left : Nat
  height : Nat
  width : Nat
  layer : Nat
  border : Option Nat
  /-- Period and on-count. -/
  pulse : Option (Nat × Nat)
  fallback : Fallback
  slate : Nat
  backup : Option Nat
  transition : Transition
  freeze : Bool
  /-- The record's reserved byte as stored (R178, log 18). -/
  reserved : Byte
deriving DecidableEq, Repr

/-- A layout record (04 section 4.1). -/
structure Layout where
  label : List Byte
  background : Nat
  windows : List Window
  check : Nat
deriving DecidableEq, Repr

/-- A running dissolve: the window's second leg (05 section 5.3). -/
structure Dissolve where
  source : Nat
  latch : Option (Fin 64)
  step : Nat
  length : Nat
deriving DecidableEq, Repr

/-- A running pulse (05 section 5.3). -/
structure Pulse where
  period : Nat
  onCount : Nat
  phase : Nat
deriving DecidableEq, Repr

/-- A pulse change waiting to take effect (05 section 5.3). -/
inductive Staged
  | off
  | set (period onCount : Nat)
deriving DecidableEq, Repr

/-- What a leg showed at the latest tick (R84). -/
inductive RenderStatus
  | showingSource
  | showingStill
  | held
  | slateFallback
  | backup
  | scaleOutOfRange
deriving DecidableEq, Repr

/-- A window of a context: its layout copy and its runtime (05 section 5.3). -/
structure LiveWindow where
  copy : Window
  current : Nat
  latch : Option (Fin 64)
  dissolve : Option Dissolve
  freeze : Bool
  pulse : Option Pulse
  staged : Option Staged
  status : Option RenderStatus
  fromStatus : Option RenderStatus
deriving DecidableEq, Repr

/-- A context: the origin, the layout copy and the window runtimes (05 section 5.3). -/
structure Context where
  origin : Fin 128
  label : List Byte
  background : Nat
  check : Nat
  windows : List LiveWindow
deriving DecidableEq, Repr

/-- The standby context with its state (05 section 5.3). -/
inductive Standby
  | empty
  | previous (c : Context)
  | loaded (c : Context)
  | armed (c : Context)
deriving DecidableEq, Repr

/-- What a leg paints: a colour, or a slot's picture (R85). -/
inductive Paint
  | colour (pixel : Word16)
  | picture (format : Format) (bands : List (List Byte))
deriving DecidableEq, Repr

/-- A window as it was painted: rectangle, main leg, second leg with the ramp entry used, border (R85). -/
structure Painted where
  top : Nat
  left : Nat
  height : Nat
  width : Nat
  main : Paint
  second : Option (Paint × Nat)
  border : Option Word16
deriving DecidableEq, Repr

/-- An emitted picture (R71, R85): its geometry, its background and its windows in the order of painting. Its
pixels are computed from these (Frame.pixel, log 17). -/
structure Frame where
  width : Nat
  height : Nat
  background : Word16
  windows : List Painted
deriving DecidableEq, Repr

/-- The three screen states (R71). -/
inductive ScreenState
  | disabled
  | dark
  | showing
deriving DecidableEq, Repr

/-- A screen compositor (05 sections 5.1, 5.3). -/
structure Screen where
  enabled : Bool
  cadence : Cadence
  width : Nat
  height : Nat
  start : Option (Fin 128)
  active : Option Context
  standby : Standby
  /-- Ticks delivered to the screen and not yet taken by it (R72, log 6). -/
  ticksDue : Nat
  /-- The latest picture emitted on the screen port (log 17). -/
  output : Option Frame
deriving DecidableEq, Repr

/-- A palette colour (R86). -/
structure Colour where
  red : Byte
  green : Byte
  blue : Byte
deriving DecidableEq, Repr

/-- A rotation list: no entries when unloaded (06 section 6.4). -/
structure Rotation where
  entries : List (Fin 16)
  position : Nat
deriving DecidableEq, Repr

/-! ### Scenes and the take engine (07) -/

/-- A scene's members: screen and layout number (R110). -/
abbrev Scene := List (Fin 24 × Fin 128)

/-- The kind of a job, with a SCENE job's origin (07 section 7.2). -/
inductive JobKind
  | scene (origin : Fin 32)
  | layout
  | revert
deriving DecidableEq, Repr

/-- Who submitted a job (07 section 7.2). -/
inductive Requester
  | port (p : Fin 16)
  | runner (r : Fin 4)
deriving DecidableEq, Repr

/-- A job's progress (07 section 7.2). -/
inductive Phase
  | loading
  | armed
  | swapping
  | done
deriving DecidableEq, Repr

/-- A job's outcome (R119). -/
inductive JobResult
  | complete
  | partialResult
  | aborted
deriving DecidableEq, Repr

/-- A member's copy (07 section 7.2). -/
inductive Load
  | notBegun
  | inProgress
  | completed
deriving DecidableEq, Repr

/-- What became of a member (07 section 7.2). -/
inductive MemberOutcome
  | pending
  | swapped
  | skippedDisabled
  | rejectedGeometry
  | rejectedNoPrevious
  | aborted
deriving DecidableEq, Repr

/-- A member record: layout and load are absent for REVERT (07 section 7.2). -/
structure Member where
  screen : Fin 24
  layout : Option (Fin 128)
  load : Option Load
  outcome : MemberOutcome
deriving DecidableEq, Repr

/-- The job record (07 section 7.2). -/
structure Job where
  serial : Word16
  kind : JobKind
  requester : Requester
  members : List Member
  phase : Phase
  result : Option JobResult
deriving DecidableEq, Repr

/-- A take as a runner submits it, with its wait-complete option (R124). -/
inductive Take
  | scene (number : Fin 32) (waitComplete : Bool)
  | layout (screen : Fin 24) (entry : Fin 128) (waitComplete : Bool)
  | revert (screen : Fin 24) (waitComplete : Bool)
deriving DecidableEq, Repr

/-! ### Cue store and runners (08) -/

/-- The entry kinds, in the order of their numbers (08 section 8.2, 12 section 12.4). -/
inductive CueKind
  | empty
  | takeScene
  | takeLayout
  | revert
  | windowTake
  | freeze
  | setPulse
  | capture
  | releaseStill
  | rotate
  | requalify
  | waitPictures
  | waitTime
  | waitQualified
  | jump
  | call
  | ret
  | halt
deriving DecidableEq, Repr

/-- A cue entry: its kind and its six operand fields (R128). -/
structure CueEntry where
  kind : CueKind
  op1 : Nat
  op2 : Nat
  op3 : Nat
  op4 : Nat
  op5 : Nat
  op6 : Nat
deriving DecidableEq, Repr

/-- The entry of kind EMPTY (08 section 8.1). -/
def CueEntry.emptyEntry : CueEntry := ⟨.empty, 0, 0, 0, 0, 0, 0⟩

/-- The exhaustion and timeout options (08 section 8.2). -/
inductive StopOption
  | fault
  | continue
deriving DecidableEq, Repr

/-- What a runner in WAITING waits for (08 section 8.3). `due`: the tick that brings the count to 0 has been
delivered and not yet taken (log 7). `length`: the milliseconds the timer was started with. -/
inductive Wait
  | pictures (cadence : Cadence) (remaining : Nat) (due : Bool)
  | time (target : Nat)
  | qualified (source : Fin 16) (option : StopOption) (length : Nat)
  | takeGrant (take : Take)
  | takeDone (serial : Word16) (result : Option JobResult)
deriving DecidableEq, Repr

/-- A runner's state, with the wait of WAITING (08 section 8.3). -/
inductive RunnerState
  | idle
  | running
  | waiting (w : Wait)
  | faulted
deriving DecidableEq, Repr

/-- What last started a runner (08 section 8.3). -/
inductive StartCause
  | request
  | alarm (n : Fin 16)
  | trigger (n : Fin 16)
deriving DecidableEq, Repr

/-- A runner's fault record that is not empty (R141). -/
structure FaultRecord where
  kind : Code
  address : Nat
  detail : Nat
  seconds : Nat
deriving DecidableEq, Repr

/-- A runner record (08 section 8.3). -/
structure Runner where
  state : RunnerState
  position : Nat
  /-- The address pushed last stands last. -/
  stack : List Nat
  spin : Nat
  cause : Option StartCause
  faultRecord : Option FaultRecord
deriving DecidableEq, Repr

/-! ### Time base, alarms, triggers (09) -/

/-- The time base (09 section 9.1). -/
structure TimeBase where
  seconds : Nat
  weekday : Nat
  valid : Bool
deriving DecidableEq, Repr

/-- What happened when an alarm or trigger last acted (09). -/
inductive ActOutcome
  | none
  | started
  | runnerActive
deriving DecidableEq, Repr

/-- An alarm (09 section 9.2); bit d of the weekdays stands for weekday d. -/
structure Alarm where
  enabled : Bool
  seconds : Nat
  weekdays : BitVec 7
  runner : Fin 4
  address : Nat
  outcome : ActOutcome
  lastActed : Option Nat
deriving DecidableEq, Repr

/-- A trigger (09 section 9.3). -/
structure Trigger where
  enabled : Bool
  source : Fin 16
  event : SourceEvent
  runner : Fin 4
  address : Nat
  once : Bool
  outcome : ActOutcome
  lastActed : Option Nat
deriving DecidableEq, Repr

/-! ### Store interface (11) -/

/-- The three stages of a save (R173). -/
inductive SaveStage
  | erasing
  | programming
  | readingBack
deriving DecidableEq, Repr

/-- The store state (11 section 11.1): while loading, whether the flash has answered every command (R175); while
saving, the stage and the image being written (R172, R173). -/
inductive StoreState
  | startUpLoad (answered : Bool)
  | idle
  | saving (stage : SaveStage) (image : List Byte)
deriving DecidableEq, Repr

/-- The last save outcome (11 section 11.1). -/
inductive SaveOutcome
  | none
  | ok
  | noAnswer
  | readBackMismatch
  | abandoned
deriving DecidableEq, Repr

/-- The image area of the serial flash. `cells`: its bytes, over the erased byte, in canonical form (log 10).
`unknown`: the spec does not give its contents, and every byte is a free value of that occasion (log 12).
`crcFails`: a save was abandoned, and the CRC-32 fails at the next start-up (R174). -/
structure Flash where
  cells : List Host.Cell
  unknown : Option Nat
  crcFails : Bool
deriving DecidableEq, Repr

/-- The store interface and the image area it owns. -/
structure Store where
  state : StoreState
  outcome : SaveOutcome
  flash : Flash
deriving DecidableEq, Repr

/-! ### The part -/

/-- The whole state of the part, and the commands that wait. -/
structure State where
  ports : Vector Port 16
  sources : Vector Source 16
  slots : Vector Slot 64
  stills : Vector (Option (Fin 64)) 4
  starvation : Starvation
  library : Vector (Option Layout) 128
  screens : Vector Screen 24
  rateA : Nat
  rateB : Nat
  palette : Vector Colour 16
  ramp : Vector Nat 16
  rotations : Vector Rotation 8
  scenes : Vector (Option Scene) 32
  serial : Word16
  /-- The job in progress, or the last job. -/
  job : Option Job
  cues : Vector CueEntry 1024
  runners : Vector Runner 4
  time : TimeBase
  alarms : Vector Alarm 16
  triggers : Vector Trigger 16
  /-- The port served last (R159). -/
  served : Fin 16
  store : Store
  /-- The model's own counter, from which the free values are drawn (log 8). -/
  freeCount : Nat
  /-- The commands that wait, first in first out (log 1). -/
  pending : List Instr
deriving DecidableEq, Repr

/-- Why a step stops with a fault. -/
inductive Fault
  /-- Raised by READ_BACK_COMPLETE when its operand names a flash address outside the image area, an address
  that the image does not have (11 section 11.1, log 11). Safe: the hardware's flash has none there either. -/
  | outsideImageArea (address : Nat)
deriving DecidableEq, Repr

/-- Why a step is refused. -/
inductive Refusal
  /-- Raised by exec alone, for a command that has no meaning yet. No command is left so. Safe. -/
  | notModelled (mnemonic : String)
deriving DecidableEq, Repr

/-! ### Power-on values -/

/-- R34: the power-on parameters of a source. -/
def SourceParams.powerOn : SourceParams := ⟨true, 2, 3, 30, 4, 200⟩

/-- R34: a source record at power-on. -/
def Source.powerOn : Source := ⟨.down, .powerOn, 0, 0, 0, none, none, 0, 0, 0, 0, 0⟩

/-- R17, R158, R164, R169: a port at power-on, but for its grant. -/
def Port.powerOn (grant : Grant) : Port :=
  ⟨.outOfSync, 0, 0, false, .idle, none, ⟨0, 0, 0, 0, 0, 0⟩, grant, [], none, false, .all, []⟩

/-- R165: F0 holds FULL, the others hold NONE. -/
def Grant.powerOn (p : Fin 16) : Grant := if p = 0 then .full else .none

/-- R36, R53: a FREE slot. -/
def Slot.empty : Slot := ⟨.free, none, 0, []⟩

/-- R53: the starvation record at power-on. -/
def Starvation.powerOn : Starvation := ⟨0, 0, 0, none⟩

/-- R94: a screen at power-on. -/
def Screen.powerOn : Screen := ⟨true, .a, 240, 68, none, none, .empty, 0, none⟩

/-- R86: the power-on palette. -/
def paletteAtPowerOn : Vector Colour 16 :=
  #v[⟨0, 0, 0⟩, ⟨255, 255, 255⟩, ⟨255, 0, 0⟩, ⟨0, 255, 0⟩, ⟨0, 0, 255⟩, ⟨255, 255, 0⟩, ⟨0, 255, 255⟩, ⟨255, 0, 255⟩,
    ⟨128, 128, 128⟩, ⟨0, 0, 0⟩, ⟨0, 0, 0⟩, ⟨0, 0, 0⟩, ⟨0, 0, 0⟩, ⟨0, 0, 0⟩, ⟨0, 0, 0⟩, ⟨0, 0, 0⟩]

/-- R103: 2 times one more than the index. -/
def rampAtPowerOn : Vector Nat 16 := Vector.ofFn fun i => 2 * (i.val + 1)

/-- R105: an unloaded list. -/
def Rotation.unloaded : Rotation := ⟨[], 0⟩

/-- R147: a runner at power-on and at RESTART. -/
def Runner.powerOn : Runner := ⟨.idle, 0, [], 0, none, none⟩

/-- R150: the time base at power-on. -/
def TimeBase.powerOn : TimeBase := ⟨0, 0, false⟩

/-- R156: an alarm at power-on. -/
def Alarm.powerOn : Alarm := ⟨false, 0, 0, 0, 0, .none, none⟩

/-- R156: a trigger at power-on. -/
def Trigger.powerOn : Trigger := ⟨false, 0, .qualified, 0, 0, false, .none, none⟩

/-- Every byte of the image area reads as erased (DESIGN CHOICE, log 10). -/
def Flash.erased : Flash := ⟨[], none, false⟩

/-- The part right after power-on: START-UP LOAD has begun, no command waits (log 20). -/
def State.reset : State where
  ports := Vector.ofFn fun p => Port.powerOn (Grant.powerOn p)
  sources := Vector.replicate 16 Source.powerOn
  slots := Vector.replicate 64 Slot.empty
  stills := Vector.replicate 4 none
  starvation := .powerOn
  library := Vector.replicate 128 none
  screens := Vector.replicate 24 Screen.powerOn
  rateA := 60
  rateB := 50
  palette := paletteAtPowerOn
  ramp := rampAtPowerOn
  rotations := Vector.replicate 8 Rotation.unloaded
  scenes := Vector.replicate 32 none
  serial := 0
  job := none
  cues := Vector.replicate 1024 CueEntry.emptyEntry
  runners := Vector.replicate 4 Runner.powerOn
  time := .powerOn
  alarms := Vector.replicate 16 Alarm.powerOn
  triggers := Vector.replicate 16 Trigger.powerOn
  served := 15
  store := ⟨.startUpLoad true, .none, .erased⟩
  freeCount := 0
  pending := []

end Sys2Proof.Machine
end

