-- ==== Sys2Proof/Machine/Operands.lean ====
section
/-! DEFINITION. The byte layouts of 12 (Cell and Record Formats): numbers, enumerated fields, cells, the lengths and
ranges of request fields, cue entries, layout records, and the CRC-32 of the image. -/

namespace Sys2Proof.Machine

/-! ### Numbers (R177) -/

/-- The number that bytes spell, most significant byte first. -/
def beNat (bs : List Byte) : Nat := bs.foldl (fun n b => n * 256 + b.toNat) 0

/-- A number in so many bytes, most significant byte first. -/
def beBytes : Nat → Nat → List Byte
  | 0, _ => []
  | k + 1, n => BitVec.ofNat 8 (n / 256 ^ k) :: beBytes k n

/-- A one-byte field. -/
def byte1 (n : Nat) : List Byte := beBytes 1 n

/-- A two-byte field. -/
def byte2 (n : Nat) : List Byte := beBytes 2 n

/-- A four-byte field. -/
def byte4 (n : Nat) : List Byte := beBytes 4 n

/-- No or clear 0, yes or set 1; off 0, on 1 (R177). -/
def flag (b : Bool) : List Byte := byte1 (if b then 1 else 0)

/-- A fixed-size field that may be absent: a presence byte, then the field or zeros in its width (R177). -/
def present (width : Nat) : Option (List Byte) → List Byte
  | some bs => 1 :: bs
  | none => 0 :: List.replicate width 0

/-- A record whose size varies: left out after a presence byte of 0 (R177). -/
def presentRecord : Option (List Byte) → List Byte
  | some bs => 1 :: bs
  | none => [0]

/-- Byte i of a sequence, 0 past its end. -/
def byteAt (bs : List Byte) (i : Nat) : Byte := bs.getD i 0

/-- Field i of a request, 0 past its end. -/
def fld (f : List Nat) (i : Nat) : Nat := f.getD i 0

/-- Parameters as fields of the given widths, in order (R177). -/
def splitFields : List Nat → List Byte → List Nat
  | [], _ => []
  | w :: ws, bs => beNat (bs.take w) :: splitFields ws (bs.drop w)

/-! ### Enumerated fields (R177) -/

def cadenceNum : Cadence → Nat
  | .a => 0
  | .b => 1

def cadenceOf (n : Nat) : Cadence := if n = 0 then .a else .b

def SourceState.num : SourceState → Nat
  | .disabled => 0
  | .down => 1
  | .acquiring => 2
  | .qualified => 3
  | .suspect => 4
  | .failed => 5

def SourceEvent.num : SourceEvent → Nat
  | .qualified => 0
  | .failed => 1
  | .down => 2

def SourceEvent.ofNum (n : Nat) : SourceEvent := if n = 0 then .qualified else if n = 1 then .failed else .down

def SlotState.num : SlotState → Nat
  | .free => 0
  | .filling => 1
  | .ready => 2
  | .retired => 3

def ScreenState.num : ScreenState → Nat
  | .disabled => 0
  | .dark => 1
  | .showing => 2

def Standby.num : Standby → Nat
  | .empty => 0
  | .previous _ => 1
  | .loaded _ => 2
  | .armed _ => 3

def RenderStatus.num : RenderStatus → Nat
  | .showingSource => 0
  | .showingStill => 1
  | .held => 2
  | .slateFallback => 3
  | .backup => 4
  | .scaleOutOfRange => 5

def JobKind.num : JobKind → Nat
  | .scene _ => 0
  | .layout => 1
  | .revert => 2

def Take.kindNum : Take → Nat
  | .scene _ _ => 0
  | .layout _ _ _ => 1
  | .revert _ _ => 2

def Phase.num : Phase → Nat
  | .loading => 0
  | .armed => 1
  | .swapping => 2
  | .done => 3

def JobResult.num : JobResult → Nat
  | .complete => 0
  | .partialResult => 1
  | .aborted => 2

def Requester.num : Requester → Nat
  | .port p => p.val
  | .runner r => 16 + r.val

def Load.num : Load → Nat
  | .notBegun => 0
  | .inProgress => 1
  | .completed => 2

def MemberOutcome.num : MemberOutcome → Nat
  | .pending => 0
  | .swapped => 1
  | .skippedDisabled => 2
  | .rejectedGeometry => 3
  | .rejectedNoPrevious => 4
  | .aborted => 5

def RunnerState.num : RunnerState → Nat
  | .idle => 0
  | .running => 1
  | .waiting (.pictures _ _ _) => 2
  | .waiting (.time _) => 3
  | .waiting (.qualified _ _ _) => 4
  | .waiting (.takeGrant _) => 5
  | .waiting (.takeDone _ _) => 6
  | .faulted => 7

def StartCause.num : StartCause → Nat
  | .request => 0
  | .alarm n => 16 + n.val
  | .trigger n => 32 + n.val

def StoreState.num : StoreState → Nat
  | .startUpLoad _ => 0
  | .idle => 1
  | .saving _ _ => 2

def SaveOutcome.num : SaveOutcome → Nat
  | .none => 0
  | .ok => 1
  | .noAnswer => 2
  | .readBackMismatch => 3
  | .abandoned => 4

def ActOutcome.num : ActOutcome → Nat
  | .none => 0
  | .started => 1
  | .runnerActive => 2

def Grant.num : Grant → Nat
  | .none => 0
  | .observe => 1
  | .full => 2

def Grant.ofNum (n : Nat) : Grant := if n = 1 then .observe else if n = 2 then .full else .none

def LinkState.num : LinkState → Nat
  | .outOfSync => 0
  | .inSync => 1

def Fallback.num : Fallback → Nat
  | .hold => 0
  | .slate => 1
  | .backup => 2

def StopOption.num : StopOption → Nat
  | .fault => 0
  | .continue => 1

def StopOption.ofNum (n : Nat) : StopOption := if n = 0 then .fault else .continue

def CueKind.num : CueKind → Nat
  | .empty => 0
  | .takeScene => 1
  | .takeLayout => 2
  | .revert => 3
  | .windowTake => 4
  | .freeze => 5
  | .setPulse => 6
  | .capture => 7
  | .releaseStill => 8
  | .rotate => 9
  | .requalify => 10
  | .waitPictures => 11
  | .waitTime => 12
  | .waitQualified => 13
  | .jump => 14
  | .call => 15
  | .ret => 16
  | .halt => 17

def CueKind.ofNum : Nat → CueKind
  | 1 => .takeScene
  | 2 => .takeLayout
  | 3 => .revert
  | 4 => .windowTake
  | 5 => .freeze
  | 6 => .setPulse
  | 7 => .capture
  | 8 => .releaseStill
  | 9 => .rotate
  | 10 => .requalify
  | 11 => .waitPictures
  | 12 => .waitTime
  | 13 => .waitQualified
  | 14 => .jump
  | 15 => .call
  | 16 => .ret
  | 17 => .halt
  | _ => .empty

/-- A condition's class and code numbers (R162, R177); class 6 is a runner's own fault kinds. -/
def Code.number : Code → Nat × Nat
  | .powerOnImage => (1, 1)
  | .powerOnEmpty => (1, 2)
  | .restarted => (1, 3)
  | .unknownRequest => (2, 1)
  | .badLength => (2, 2)
  | .reservedNotZero => (2, 3)
  | .fieldOutOfRange => (2, 4)
  | .badRecordCheck => (2, 5)
  | .observeOnly => (3, 1)
  | .lastFullGrant => (3, 2)
  | .screenNotShowing => (4, 1)
  | .screenNotDark => (4, 2)
  | .noSuchWindow => (4, 3)
  | .emptyLayout => (4, 4)
  | .emptyScene => (4, 5)
  | .nothingToCapture => (4, 6)
  | .stillNotPinned => (4, 7)
  | .cadenceInUse => (4, 8)
  | .memberOfTake => (4, 9)
  | .noTake => (4, 10)
  | .runnerActive => (4, 11)
  | .runnerNotFaulted => (4, 12)
  | .timeUnset => (4, 13)
  | .geometry => (5, 1)
  | .layerClash => (5, 2)
  | .layoutTooLarge => (5, 3)
  | .duplicateScreen => (5, 4)
  | .emptyEntry => (6, 1)
  | .address => (6, 2)
  | .stackOverflow => (6, 3)
  | .stackUnderflow => (6, 4)
  | .spin => (6, 5)
  | .waitTimeout => (6, 6)
  | .rotationExhausted => (6, 7)
  | .takeAborted => (6, 8)

/-! ### Cells (R1, R177, R178, 12 section 12.2) -/

/-- A well-formed band cell's fields (01 section 1.1). -/
structure BandCell where
  first : Bool
  last : Bool
  number : Byte
  index : Nat
  /-- Present exactly with the first-band mark (R1). -/
  format : Option Format
  payload : List Byte
  check : Nat
deriving DecidableEq, Repr

/-- What a forward-lane cell is (R1). -/
inductive Cell
  | malformed
  | idle
  | control (r : Request)
  | band (b : BandCell)
deriving DecidableEq, Repr

/-- The 3-byte cell length every cell carries after its kind (12 section 12.2). -/
def cellLength (cell : List Byte) : Nat := beNat ((cell.drop 1).take 3)

/-- A control cell: 8 bytes and the parameters, at most 1,020 of them (12 section 12.2). -/
def classifyControl (cell : List Byte) : Cell :=
  let n := beNat ((cell.drop 6).take 2)
  if n ≤ 1020 ∧ cell.length = 8 + n then .control ⟨byteAt cell 4, byteAt cell 5, cell.drop 8⟩ else .malformed

/-- A band cell: header of 16 bytes with the first-band mark and 12 without, payload of at most 61,440 bytes,
2 bytes of band check (12 section 12.2, R177). Reserved bytes and the unused flags are ignored (R178). -/
def classifyBand (cell : List Byte) : Cell :=
  let header := (byteAt cell 4).toNat
  let flags := byteAt cell 5
  let first := flags.getLsbD 7
  let n := beNat ((cell.drop 8).take 2)
  if header = (if first then 16 else 12) ∧ n ≤ 61440 ∧ cell.length = header + n + 2 then
    .band ⟨first, flags.getLsbD 6, byteAt cell 6, (byteAt cell 7).toNat,
      if first then some ⟨(byteAt cell 12).toNat, (byteAt cell 13).toNat, (byteAt cell 14).toNat⟩ else none,
      (cell.drop header).take n, beNat (cell.drop (header + n))⟩
  else .malformed

/-- R1: what a cell is, from its bytes as the lane delivered them. -/
def classify (cell : List Byte) : Cell :=
  if cell.length < 4 ∨ cellLength cell ≠ cell.length then .malformed
  else match (byteAt cell 0).toNat with
    | 1 => classifyBand cell
    | 2 => classifyControl cell
    | 3 => if cell.length = 4 then .idle else .malformed
    | _ => .malformed

/-- R6: the sum of a payload's 16-bit words, an odd last byte being the more significant of its word. -/
def bandSum : List Byte → Nat
  | [] => 0
  | [a] => (a.toNat * 256) % 65536
  | a :: b :: rest => (a.toNat * 256 + b.toNat + bandSum rest) % 65536

/-- R6: a band fails its check when the sum or the payload's length is not as it must be. -/
def bandFails (b : BandCell) (width : Nat) : Bool :=
  bandSum b.payload ≠ b.check || b.payload.length ≠ 256 * width

/-- R7: a format that can begin a picture. -/
def Format.usable (f : Format) : Bool :=
  40 ≤ f.width && f.width ≤ 240 && 12 ≤ f.height && f.height ≤ 68 && [24, 25, 30, 50, 60].contains f.rate

/-- The four reply statuses (R161, R177). -/
inductive ReplyStatus
  | done
  | refused
  | busy
  | full
deriving DecidableEq, Repr

def ReplyStatus.num : ReplyStatus → Nat
  | .done => 1
  | .refused => 2
  | .busy => 3
  | .full => 4

/-- A reply cell (12 section 12.2). -/
def replyCell (tag code : Byte) (status : ReplyStatus) (fault : Nat) (result : List Byte) : List Byte :=
  4 :: beBytes 3 (10 + result.length) ++ [tag, code] ++ byte1 status.num ++ byte1 fault ++ byte2 result.length ++ result

/-! ### Request forms (12 section 12.3, R160, 10 section 10.6) -/

/-- R160 step 4: the parameter length that the format of a request requires, `none` where the parameters are too
short to hold the counts it is read from. -/
def requiredLength (code : Nat) (ps : List Byte) : Option Nat :=
  match code with
  | 1 => some 8
  | 2 => some 1
  | 3 => some 2
  | 4 => some 2
  | 5 => some 1
  | 7 =>
    let l := (byteAt ps 1).toNat
    if 3 + l < ps.length then some (6 + l + 20 * (byteAt ps (3 + l)).toNat) else none
  | 8 => some 1
  | 9 => some 1
  | 10 => some 7
  | 11 => some 2
  | 12 => some 48
  | 13 => some 3
  | 14 => some 5
  | 15 => some 1
  | 16 => some 6
  | 17 => some 4
  | 18 => some 16
  | 19 => if 1 < ps.length then some (2 + (byteAt ps 1).toNat) else none
  | 21 => some 1
  | 22 => if 1 < ps.length then some (2 + 2 * (byteAt ps 1).toNat) else none
  | 23 => some 1
  | 24 => some 1
  | 25 => some 1
  | 26 => some 2
  | 27 => if 0 < ps.length then some (1 + (byteAt ps 0).toNat) else none
  | 30 => if 2 < ps.length then some (3 + 15 * (byteAt ps 2).toNat) else none
  | 31 => some 3
  | 32 => some 1
  | 33 => some 2
  | 34 => some 3
  | 35 => some 1
  | 36 => some 5
  | 37 => some 10
  | 38 => some 8
  | 40 => some 2
  | _ => some 0

/-- The request codes are 1 to 45 (12 section 12.3). -/
def knownCode (code : Nat) : Bool := 1 ≤ code && code ≤ 45

/-- R160 step 5: the offset of the first reserved byte that is not 0. Only the windows of a layout record have one
(12 section 12.4). -/
def reservedOffset (code : Nat) (ps : List Byte) : Option Nat :=
  if code = 7 then
    let l := (byteAt ps 1).toNat
    let n := (byteAt ps (3 + l)).toNat
    ((List.range n).map fun i => 25 + l + 20 * i).find? fun o => byteAt ps o ≠ 0
  else none

/-- R160 step 6, 10 section 10.6: whether a request modifies the part. -/
def modifies (code : Nat) (ps : List Byte) : Bool :=
  if code = 3 then byteAt ps 1 ≠ 0
  else ! [6, 9, 15, 20, 21, 24, 29, 34, 35, 39, 41, 42, 43].contains code

/-! ### Field ranges -/

/-- The index of the first test that fails, counting from n. -/
def firstBad : Nat → List Bool → Option Nat
  | _, [] => none
  | n, true :: rest => firstBad (n + 1) rest
  | n, false :: _ => some n

/-- The index, counting from n, of the first element equal to one before it. -/
def firstRepeat (n : Nat) : List Nat → List Nat → Option Nat
  | _, [] => none
  | seen, x :: rest => if seen.contains x then some n else firstRepeat (n + 1) (x :: seen) rest

/-- A value within a range, both ends included (00 section 6). -/
def within (lo hi n : Nat) : Bool := lo ≤ n && n ≤ hi

/-- R31: the seven fields of SET SOURCE. -/
def sourceTests (f : List Nat) : List Bool :=
  [within 0 15 (fld f 0), within 0 1 (fld f 1), within 1 4 (fld f 2), within 0 15 (fld f 3), within 1 63 (fld f 4),
    within 1 15 (fld f 5), within 20 2000 (fld f 6)]

/-- R92: the seven fields of SET SCREEN. -/
def screenTests (f : List Nat) : List Bool :=
  [within 0 23 (fld f 0), within 0 1 (fld f 1), within 0 1 (fld f 2), within 40 240 (fld f 3), within 12 68 (fld f 4),
    within 0 1 (fld f 5), if fld f 5 = 1 then within 0 127 (fld f 6) else fld f 6 = 0]

/-- R96: the six fields of WINDOW TAKE. -/
def windowTakeTests (f : List Nat) : List Bool :=
  [within 0 23 (fld f 0), within 0 3 (fld f 1), within 0 19 (fld f 2), within 0 1 (fld f 3),
    if fld f 3 = 1 then within 0 1 (fld f 4) else fld f 4 = 0,
    if fld f 3 = 1 ∧ fld f 4 = 1 then within 2 64 (fld f 5) else fld f 5 = 0]

/-- R88: the three fields of FREEZE; the details of the first two are DEDUCED (log 22). -/
def freezeTests (f : List Nat) : List Bool :=
  [within 0 23 (fld f 0), within 0 3 (fld f 1), within 0 1 (fld f 2)]

/-- R89: the five fields of SET PULSE; the details of the first three are DEDUCED (log 22). -/
def setPulseTests (f : List Nat) : List Bool :=
  [within 0 23 (fld f 0), within 0 3 (fld f 1), within 0 1 (fld f 2),
    if fld f 2 = 1 then within 2 255 (fld f 3) else fld f 3 = 0,
    if fld f 2 = 1 then fld f 4 ≤ fld f 3 else fld f 4 = 0]

/-- R46: the two fields of CAPTURE. -/
def captureTests (f : List Nat) : List Bool := [within 0 3 (fld f 0), within 0 15 (fld f 1)]

/-- R107: the four fields of ROTATE. -/
def rotateTests (f : List Nat) : List Bool :=
  [within 0 23 (fld f 0), within 0 3 (fld f 1), within 0 7 (fld f 2), within 0 1 (fld f 3)]

/-- R152: the six fields of SET ALARM. -/
def alarmTests (f : List Nat) : List Bool :=
  [within 0 15 (fld f 0), within 0 1 (fld f 1), within 0 86399 (fld f 2), within 0 127 (fld f 3), within 0 3 (fld f 4),
    within 0 1023 (fld f 5)]

/-- R154: the seven fields of SET TRIGGER. -/
def triggerTests (f : List Nat) : List Bool :=
  [within 0 15 (fld f 0), within 0 1 (fld f 1), within 0 15 (fld f 2), within 0 2 (fld f 3), within 0 3 (fld f 4),
    within 0 1023 (fld f 5), within 0 1 (fld f 6)]

/-! ### Cue entries (R128, 08 section 8.2, 12 section 12.4) -/

/-- The widths of a cue entry's seven fields. -/
def cueWidths : List Nat := [1, 4, 2, 2, 2, 2, 2]

/-- The tests of the operands a kind uses (R128); the operands it does not use must be 0. -/
def operandTests (kind : CueKind) (f : List Nat) : List Bool :=
  match kind with
  | .empty | .ret | .halt => []
  | .takeScene => [within 0 31 (fld f 0), within 0 1 (fld f 1)]
  | .takeLayout => [within 0 23 (fld f 0), within 0 127 (fld f 1), within 0 1 (fld f 2)]
  | .revert => [within 0 23 (fld f 0), within 0 1 (fld f 1)]
  | .windowTake => windowTakeTests f
  | .freeze => freezeTests f
  | .setPulse => setPulseTests f
  | .capture => captureTests f
  | .releaseStill => [within 0 3 (fld f 0)]
  | .rotate => rotateTests f
  | .requalify => [within 0 15 (fld f 0)]
  | .waitPictures => [within 0 1 (fld f 0), within 1 65535 (fld f 1)]
  | .waitTime => [within 0 86399 (fld f 0)]
  | .waitQualified => [within 0 15 (fld f 0), within 1 600 (fld f 1), within 0 1 (fld f 2)]
  | .jump => [within 0 1023 (fld f 0)]
  | .call => [within 0 1023 (fld f 0)]

/-- R128: the seven tests of an entry given as its seven fields. -/
def entryTests (f : List Nat) : List Bool :=
  let used := operandTests (CueKind.ofNum (fld f 0)) (f.drop 1)
  within 0 17 (fld f 0) :: (used ++ ((f.drop 1).drop used.length).map fun n => n == 0)

/-- The entry that seven fields spell. -/
def entryOfFields (f : List Nat) : CueEntry :=
  ⟨CueKind.ofNum (fld f 0), fld f 1, fld f 2, fld f 3, fld f 4, fld f 5, fld f 6⟩

/-- The operands of an entry, as the fields of the request of the same name (R130). -/
def CueEntry.operands (e : CueEntry) : List Nat := [e.op1, e.op2, e.op3, e.op4, e.op5, e.op6]

/-- The 15 bytes of an entry (12 section 12.4). -/
def CueEntry.bytes (e : CueEntry) : List Byte :=
  byte1 e.kind.num ++ byte4 e.op1 ++ byte2 e.op2 ++ byte2 e.op3 ++ byte2 e.op4 ++ byte2 e.op5 ++ byte2 e.op6

/-- Bytes cut into n records of the given size. -/
def chunks (size : Nat) : Nat → List Byte → List (List Byte)
  | 0, _ => []
  | n + 1, bs => bs.take size :: chunks size n (bs.drop size)

/-- The seven fields of each of n serialized entries. -/
def cueFields (n : Nat) (bs : List Byte) : List (List Nat) := (chunks 15 n bs).map (splitFields cueWidths)

/-! ### Layout records (R57 to R65, 12 section 12.4) -/

/-- A serialized layout record cut at its places; a window is its 20 bytes. -/
structure RawLayout where
  label : List Byte
  labelLength : Nat
  background : Nat
  count : Nat
  check : Nat
  windows : List (List Byte)
deriving DecidableEq, Repr

/-- Cut a serialized record at its places (12 section 12.4). -/
def rawLayout (bs : List Byte) : RawLayout :=
  let l := (byteAt bs 0).toNat
  let n := (byteAt bs (2 + l)).toNat
  ⟨(bs.drop 1).take l, l, (byteAt bs (1 + l)).toNat, n, beNat ((bs.drop (3 + l)).take 2), chunks 20 n (bs.drop (5 + l))⟩

/-- R58: the bytewise sum of a serialized record, less the label and the two bytes of the check. -/
def recordSum (bs : List Byte) : Nat :=
  let l := (byteAt bs 0).toNat
  (((bs.drop (1 + l)).take 2 ++ bs.drop (5 + l)).foldl (fun n b => n + b.toNat) 0) % 65536

/-- Field k of a raw window (R62). -/
def wfld (w : List Byte) (k : Nat) : Nat := (byteAt w k).toNat

/-- R62, R57: the 19 range tests of a window, in the order of k. -/
def windowTests (w : List Byte) : List Bool :=
  [within 0 3 (wfld w 0), within 0 19 (wfld w 1), within 0 67 (wfld w 2), within 0 239 (wfld w 3), within 1 68 (wfld w 4),
    within 1 240 (wfld w 5), within 0 3 (wfld w 6), within 0 1 (wfld w 7),
    if wfld w 7 = 1 then within 0 15 (wfld w 8) else wfld w 8 = 0,
    within 0 1 (wfld w 9),
    if wfld w 9 = 1 then within 2 255 (wfld w 10) else wfld w 10 = 0,
    if wfld w 9 = 1 then wfld w 11 ≤ wfld w 10 else wfld w 11 = 0,
    within 0 2 (wfld w 12), within 0 15 (wfld w 13), within 0 1 (wfld w 14),
    if wfld w 14 = 1 then within 0 15 (wfld w 15) else wfld w 15 = 0,
    within 0 1 (wfld w 16),
    if wfld w 16 = 1 then within 2 64 (wfld w 17) else wfld w 17 = 0,
    within 0 1 (wfld w 18)]

/-- R179: a label's characters. -/
def labelFits (r : RawLayout) : Bool := r.labelLength ≤ 16 && r.label.all fun b => within 32 126 b.toNat

/-- R62: the range tests of a record from field 1 on, in ascending order of the field indexes. -/
def recordTests (r : RawLayout) : List Bool :=
  [labelFits r, within 0 15 r.background, within 1 4 r.count] ++ r.windows.flatMap windowTests

/-- The index of field k of the window at list position p (R62). -/
def windowField (p k : Nat) : Nat := 4 + 19 * p + k

/-- R63: going through the list, the first window whose number is not above the one before it, or whose layer is one
already used. -/
def listBad : Nat → Option Nat → List Nat → List (List Byte) → Option Nat
  | _, _, _, [] => none
  | p, before, layers, w :: rest =>
    if before.any (wfld w 0 ≤ ·) then some (windowField p 0)
    else if layers.contains (wfld w 6) then some (windowField p 6)
    else listBad (p + 1) (some (wfld w 0)) (wfld w 6 :: layers) rest

/-- R64: the first window whose rectangle leaves the full size. -/
def rectangleBad : Nat → List (List Byte) → Option Nat
  | _, [] => none
  | p, w :: rest =>
    if Config.fullHeight < wfld w 2 + wfld w 4 then some (windowField p 4)
    else if Config.fullWidth < wfld w 3 + wfld w 5 then some (windowField p 5)
    else rectangleBad (p + 1) rest

/-- R64: the sum of the windows' areas. -/
def rawArea (ws : List (List Byte)) : Nat := (ws.map fun w => wfld w 4 * wfld w 5).sum

/-- R65: the first window whose presence marks do not agree. -/
def marksBad : Nat → List (List Byte) → Option Nat
  | _, [] => none
  | p, w :: rest =>
    if wfld w 9 = 1 ∧ wfld w 7 = 0 then some (windowField p 9)
    else if (wfld w 12 == 2) != (wfld w 14 == 1) then some (windowField p 14)
    else marksBad (p + 1) rest

/-- R61 to R65: the six checks of a serialized record in their order; the condition and detail of the first to
fail. -/
def recordBad (bs : List Byte) : Option (Code × Nat) :=
  let r := rawLayout bs
  if recordSum bs ≠ r.check then some (.badRecordCheck, 0)
  else match firstBad 1 (recordTests r) with
    | some i => some (.fieldOutOfRange, i)
    | none => match listBad 0 none [] r.windows with
      | some i => some (.layerClash, i)
      | none => match rectangleBad 0 r.windows with
        | some i => some (.geometry, i)
        | none =>
          if Config.areaBudget < rawArea r.windows then some (.layoutTooLarge, 3)
          else (marksBad 0 r.windows).map fun i => (.fieldOutOfRange, i)

/-- The window that 20 bytes spell. -/
def windowOf (w : List Byte) : Window where
  number := wfld w 0
  source := wfld w 1
  top := wfld w 2
  left := wfld w 3
  height := wfld w 4
  width := wfld w 5
  layer := wfld w 6
  border := if wfld w 7 = 1 then some (wfld w 8) else none
  pulse := if wfld w 9 = 1 then some (wfld w 10, wfld w 11) else none
  fallback := if wfld w 12 = 0 then .hold else if wfld w 12 = 1 then .slate else .backup
  slate := wfld w 13
  backup := if wfld w 14 = 1 then some (wfld w 15) else none
  transition := if wfld w 16 = 1 then .dissolve (wfld w 17) else .cut
  freeze := wfld w 18 = 1
  reserved := byteAt w 19

/-- The layout that a serialized record spells. -/
def layoutOf (bs : List Byte) : Layout :=
  let r := rawLayout bs
  ⟨r.label, r.background, r.windows.map windowOf, r.check⟩

/-- The length of a transition, 0 for a CUT (R57). -/
def Transition.length : Transition → Nat
  | .cut => 0
  | .dissolve l => l

/-- Whether a transition is a DISSOLVE. -/
def Transition.isDissolve : Transition → Bool
  | .cut => false
  | .dissolve _ => true

/-- The 20 bytes of a window with the given reserved byte (12 section 12.4). -/
def Window.bytes (w : Window) (reserved : Byte) : List Byte :=
  byte1 w.number ++ byte1 w.source ++ byte1 w.top ++ byte1 w.left ++ byte1 w.height ++ byte1 w.width ++ byte1 w.layer ++
    flag w.border.isSome ++ byte1 (w.border.getD 0) ++
    flag w.pulse.isSome ++ byte1 (w.pulse.getD (0, 0)).1 ++ byte1 (w.pulse.getD (0, 0)).2 ++
    byte1 w.fallback.num ++ byte1 w.slate ++
    flag w.backup.isSome ++ byte1 (w.backup.getD 0) ++
    flag w.transition.isDissolve ++ byte1 w.transition.length ++ flag w.freeze ++ [reserved]

/-- A layout's serialized record around its windows' bytes (12 section 12.4). -/
def Layout.bytesWith (l : Layout) (windows : List Byte) : List Byte :=
  byte1 l.label.length ++ l.label ++ byte1 l.background ++ byte1 l.windows.length ++ byte2 l.check ++ windows

/-- The record as a result carries it: reserved bytes 0 (R178). -/
def Layout.bytes (l : Layout) : List Byte := l.bytesWith (l.windows.flatMap fun w => w.bytes 0)

/-- The record as the image carries it: reserved bytes as stored (R56, R178, log 18). -/
def Layout.imageBytes (l : Layout) : List Byte := l.bytesWith (l.windows.flatMap fun w => w.bytes w.reserved)

/-! ### CRC-32 (R175) -/

/-- One bit of the register: reflected generator polynomial 04C11DB7. -/
def crcBit (r : Word32) : Word32 := if r.getLsbD 0 then (r >>> 1) ^^^ 0xEDB88320#32 else r >>> 1

/-- One byte, least significant bit first. -/
def crcByte (r : Word32) (b : Byte) : Word32 :=
  crcBit (crcBit (crcBit (crcBit (crcBit (crcBit (crcBit (crcBit (r ^^^ b.zeroExtend 32))))))))

/-- R175: register from all ones, read reflected and inverted. -/
def crc32 (bs : List Byte) : Word32 := ~~~ (bs.foldl crcByte 0xFFFFFFFF#32)

end Sys2Proof.Machine
end

