-- ==== Sys2Proof/Machine/Table.lean ====
section
/-! DEFINITION. Writing one entry of a table of the state, and one entry of each table. -/

namespace Sys2Proof.Machine

/-- A table with one entry replaced. -/
def put {α : Type} {n : Nat} (t : Vector α n) (i : Fin n) (x : α) : Vector α n := t.set i.val x i.isLt

/-- A table with every entry changed. -/
def mapTable {α β : Type} {n : Nat} (f : α → β) (t : Vector α n) : Vector β n := Vector.ofFn fun i => f t[i]

namespace State

/-- Change a port. -/
def modPort (p : Fin 16) (f : Port → Port) (s : State) : State := { s with ports := put s.ports p (f s.ports[p]) }

/-- Change every port. -/
def modPorts (f : Port → Port) (s : State) : State := { s with ports := mapTable f s.ports }

/-- Change a port's counters. -/
def modCounters (p : Fin 16) (f : PortCounters → PortCounters) (s : State) : State :=
  s.modPort p fun x => { x with counters := f x.counters }

/-- Change a source record's fields other than its state. -/
def modSource (i : Fin 16) (f : Source → Source) (s : State) : State :=
  { s with sources := put s.sources i (f s.sources[i]) }

/-- Change a slot. -/
def modSlot (k : Fin 64) (f : Slot → Slot) (s : State) : State := { s with slots := put s.slots k (f s.slots[k]) }

/-- Change an alarm. -/
def modAlarm (n : Fin 16) (f : Alarm → Alarm) (s : State) : State := { s with alarms := put s.alarms n (f s.alarms[n]) }

/-- Change a trigger. -/
def modTrigger (n : Fin 16) (f : Trigger → Trigger) (s : State) : State :=
  { s with triggers := put s.triggers n (f s.triggers[n]) }

/-- Change the flash. -/
def modFlash (f : Flash → Flash) (s : State) : State := { s with store := { s.store with flash := f s.store.flash } }

end State

end Sys2Proof.Machine
end

