-- ==== Sys2Proof/Machine/Flags.lean ====
section
/-! DEFINITION. The computed views of the state that many blocks ask for, the change marks (R169), and the wall
fault code (R168). -/

namespace Sys2Proof.Machine

/-! ### Views -/

/-- R71: a screen's state, from its enabled setting and its active context. -/
def Screen.state (c : Screen) : ScreenState :=
  if c.enabled then (if c.active.isSome then .showing else .dark) else .disabled

namespace State

/-- R38: the READY slot of a source. -/
def readySlot (s : State) (i : Fin 16) : Option (Fin 64) :=
  (List.finRange 64).find? fun k => s.slots[k].state = .ready && s.slots[k].picture.any (·.owner = i)

/-- The FILLING slot of a source (R36). -/
def fillingSlot (s : State) (i : Fin 16) : Option (Fin 64) :=
  (List.finRange 64).find? fun k => s.slots[k].state = .filling && s.slots[k].picture.any (·.owner = i)

/-- R18: a feed is eligible when it is QUALIFIED or SUSPECT and owns a READY slot. -/
def eligible (s : State) (i : Fin 16) : Bool :=
  (s.sources[i].state = .qualified || s.sources[i].state = .suspect) && (s.readySlot i).isSome

/-- R39: the lowest-numbered FREE slot. -/
def freeSlot (s : State) : Option (Fin 64) := (List.finRange 64).find? fun k => s.slots[k].state = .free

/-- R36: the number of FREE slots (log 19). -/
def freeSlots (s : State) : Nat := ((List.finRange 64).filter fun k => s.slots[k].state = .free).length

/-- R49: starvation is active. -/
def starving (s : State) : Bool := 0 < s.starvation.thisSecond || 0 < s.starvation.lastSecond

/-- 07 section 7.2: the engine is BUSY while it holds a job that is not DONE. -/
def engineBusy (s : State) : Bool := s.job.any (·.phase ≠ .done)

/-- The take job in progress, if any. -/
def currentJob (s : State) : Option Job := if s.engineBusy then s.job else none

/-- R92: whether a screen is a PENDING member of the take job. -/
def pendingMember (s : State) (c : Fin 24) : Bool :=
  s.currentJob.any fun j => j.members.any fun m => m.screen = c && m.outcome = .pending

/-- The take a runner in WAITING(TAKE GRANT) has recorded: the engine's waiting set (R124, log 19). -/
def waitingTake (s : State) (r : Fin 4) : Option Take :=
  match s.runners[r].state with
  | .waiting (.takeGrant t) => some t
  | _ => none

/-- The store is SAVING (R171). -/
def saving (s : State) : Bool :=
  match s.store.state with
  | .saving _ _ => true
  | _ => false

/-- The store is in START-UP LOAD (R171). -/
def loading (s : State) : Bool :=
  match s.store.state with
  | .startUpLoad _ => true
  | _ => false

/-- A generator's rate (R72). -/
def rate (s : State) : Cadence → Nat
  | .a => s.rateA
  | .b => s.rateB

/-! ### Change marks (R169) -/

/-- A source's mark on every port. -/
def markSource (i : Fin 16) (s : State) : State :=
  s.modPorts fun p => { p with marks := { p.marks with sources := put p.marks.sources i true } }

/-- A screen's mark on every port. -/
def markScreen (c : Fin 24) (s : State) : State :=
  s.modPorts fun p => { p with marks := { p.marks with screens := put p.marks.screens c true } }

/-- A runner's mark on every port. -/
def markRunner (r : Fin 4) (s : State) : State :=
  s.modPorts fun p => { p with marks := { p.marks with runners := put p.marks.runners r true } }

/-- The take job's mark on every port. -/
def markTake (s : State) : State := s.modPorts fun p => { p with marks := { p.marks with take := true } }

/-- Give a source a state; a change of it marks the source (R32). -/
def setSourceState (i : Fin 16) (st : SourceState) (s : State) : State :=
  let t := s.modSource i fun x => { x with state := st }
  if s.sources[i].state = st then t else t.markSource i

/-- Write a screen; a change of its state or standby state marks it (R71). -/
def setScreen (c : Fin 24) (x : Screen) (s : State) : State :=
  let t := { s with screens := put s.screens c x }
  if s.screens[c].state = x.state ∧ s.screens[c].standby.num = x.standby.num then t else t.markScreen c

/-- Write a runner; a change of its state marks it (R138). -/
def setRunner (r : Fin 4) (x : Runner) (s : State) : State :=
  let t := { s with runners := put s.runners r x }
  if s.runners[r].state.num = x.state.num then t else t.markRunner r

/-- Write the job record; a change of its phase or of a member's outcome marks the take job (R113). -/
def setJob (j : Job) (s : State) : State :=
  let t := { s with job := some j }
  if s.job.any (fun old => old.serial = j.serial && old.phase = j.phase &&
      old.members.map (·.outcome) = j.members.map (·.outcome)) then t else t.markTake

/-! ### The wall fault code (R168) -/

/-- The windows of the active contexts of enabled screens. -/
def shownWindows (s : State) : List LiveWindow :=
  s.screens.toList.flatMap fun c => if c.enabled then (c.active.map (·.windows)).getD [] else []

/-- Whether a window's current source is a feed in the given state. -/
def windowFeedIs (s : State) (st : SourceState) (w : LiveWindow) : Bool :=
  if h : w.current < 16 then s.sources[w.current].state = st else false

/-- R84: the render statuses that count. -/
def fallbackStatus : RenderStatus → Bool
  | .held | .slateFallback | .backup | .scaleOutOfRange => true
  | .showingSource | .showingStill => false

/-- R168: the highest code whose condition holds. -/
def wallFault (s : State) : Nat :=
  if s.starving then 8
  else if s.runners.toList.any (·.state = .faulted) then 7
  else if s.shownWindows.any (s.windowFeedIs .failed) then 6
  else if s.shownWindows.any (s.windowFeedIs .suspect) then 5
  else if s.shownWindows.any (fun w => w.status.any fallbackStatus) then 4
  else if s.job.any (fun j => j.phase = .done && (j.result = some .partialResult || j.result = some .aborted)) then 3
  else if !s.time.valid && s.alarms.toList.any (·.enabled) then 2
  else if s.store.outcome = .noAnswer || s.store.outcome = .readBackMismatch || s.store.outcome = .abandoned then 1
  else 0

end State

end Sys2Proof.Machine
end

