-- ==== Sys2Proof/Machine/Ops.lean ====
section
/-! DEFINITION. The operations that several blocks share: the picture pool's (03), the runners' (08 sections 8.3 to
8.5), the trigger table's (R153), contexts' (R59, R74, R75), the image area's bytes, and free values. -/

namespace Sys2Proof.Machine

/-! ### The image area of the flash (log 10) -/

/-- A byte of a canonical list; an unlisted address reads as erased. -/
def memRead : List Host.Cell → Nat → Byte
  | [], _ => Config.erasedByte
  | c :: rest, a => if c.1 = a then c.2 else memRead rest a

/-- Write a byte, keeping the canonical form: addresses rising, no entry equal to the erased byte. -/
def memWrite : List Host.Cell → Nat → Byte → List Host.Cell
  | [], a, b => if b = Config.erasedByte then [] else [(a, b)]
  | c :: rest, a, b =>
    if a < c.1 then (if b = Config.erasedByte then c :: rest else (a, b) :: c :: rest)
    else if a = c.1 then (if b = Config.erasedByte then rest else (a, b) :: rest)
    else c :: memWrite rest a b

/-- The canonical form: addresses strictly rising, no entry equal to the erased byte. -/
def memWf : List Host.Cell → Bool
  | [] => true
  | [c] => c.2 ≠ Config.erasedByte
  | c :: d :: rest => c.2 ≠ Config.erasedByte && c.1 < d.1 && memWf (d :: rest)

/-- Write a sequence of bytes from an address on. -/
def memWriteBytes : List Host.Cell → Nat → List Byte → List Host.Cell
  | m, _, [] => m
  | m, a, b :: rest => memWriteBytes (memWrite m a b) (a + 1) rest

/-- Write single bytes at their addresses. -/
def memWriteCells : List Host.Cell → List Host.Cell → List Host.Cell
  | m, [] => m
  | m, c :: rest => memWriteCells (memWrite m c.1 c.2) rest

/-- A byte of the image area: a free value where the contents are not given (log 12). -/
def Flash.read (f : Flash) (a : Nat) : Byte :=
  match f.unknown with
  | some n => Config.freeByte n a
  | none => memRead f.cells a

/-- A run of bytes of the image area. -/
def Flash.readBytes (f : Flash) : Nat → Nat → List Byte
  | _, 0 => []
  | a, n + 1 => f.read a :: f.readBytes (a + 1) n

namespace State

/-! ### Free values (log 8) -/

/-- A condition's detail: as its rule states it, or a free value. -/
def drawDetail (d : Option Nat) (s : State) : Nat × State :=
  match d with
  | some n => (n, s)
  | none => ((Config.freeDetail s.freeCount).toNat, { s with freeCount := s.freeCount + 1 })

/-- The contents of the image area are no longer given (R173, R174, log 12). -/
def loseImageArea (crcFails : Bool) (s : State) : State :=
  { s with
    store := { s.store with flash := ⟨[], some s.freeCount, crcFails⟩ }
    freeCount := s.freeCount + 1 }

/-! ### The picture pool -/

/-- R39, R48: GRANT. The lowest FREE slot becomes FILLING, or the drop is recorded. -/
def grant (i : Fin 16) (number : Byte) (format : Format) (s : State) : Option (Fin 64) × State :=
  match s.freeSlot with
  | some k => (some k, s.modSlot k fun _ => ⟨.filling, some ⟨i, number, format⟩, 0, []⟩)
  | none =>
    (none, { s with
      starvation := {
        thisSecond := min 65535 (s.starvation.thisSecond + 1)
        lastSecond := s.starvation.lastSecond
        total := s.starvation.total + 1
        lastDrop := some (i, s.time.seconds) } })

/-- A band is written into a FILLING slot as received (R6). -/
def writeBand (k : Fin 64) (payload : List Byte) (s : State) : State :=
  s.modSlot k fun x => { x with bands := x.bands ++ [payload] }

/-- R42 (and R40's first half): the source's READY slot is RETIRED if held and FREE otherwise. -/
def retire (i : Fin 16) (s : State) : State :=
  match s.readySlot i with
  | none => s
  | some k => s.modSlot k fun x => if 0 < x.holds then { x with state := .retired } else .empty

/-- R40: PUBLISH. -/
def publish (i : Fin 16) (k : Fin 64) (s : State) : State :=
  (s.retire i).modSlot k fun x => { x with state := .ready }

/-- R41: ABANDON. -/
def abandon (k : Fin 64) (s : State) : State := s.modSlot k fun _ => Slot.empty

/-- R44, R37: LATCH, and a still's PIN. -/
def latch (k : Fin 64) (s : State) : State := s.modSlot k fun x => { x with holds := x.holds + 1 }

/-- R45, R37, R43: RELEASE, and a still's UNPIN. -/
def release (k : Fin 64) (s : State) : State :=
  s.modSlot k fun x =>
    if x.state = .retired ∧ x.holds ≤ 1 then Slot.empty else { x with holds := x.holds - 1 }

/-- RELEASE of a latch, if there is one. -/
def releaseOpt : Option (Fin 64) → State → State
  | some k, s => s.release k
  | none, s => s

/-- RELEASE of every latch and from-latch of the given windows (R76, R90). -/
def releaseWindows : List LiveWindow → State → State
  | [], s => s
  | w :: rest, s => releaseWindows rest ((s.releaseOpt w.latch).releaseOpt (w.dissolve.bind (·.latch)))

/-! ### Runners -/

/-- R143, R151, R153: a runner is started from IDLE or FAULTED only. -/
def canStart (s : State) (r : Fin 4) : Bool := s.runners[r].state = .idle || s.runners[r].state = .faulted

/-- R143: start a runner at an address. -/
def startRunner (r : Fin 4) (address : Nat) (cause : StartCause) (s : State) : State :=
  s.setRunner r ⟨.running, address, [], 0, some cause, none⟩

/-- R139: an execution that leaves the runner RUNNING at the next entry. -/
def advanceRunner (r : Fin 4) (s : State) : State :=
  s.setRunner r { s.runners[r] with position := s.runners[r].position + 1, spin := s.runners[r].spin + 1 }

/-- R140: an execution that enters WAITING. -/
def enterWait (r : Fin 4) (w : Wait) (s : State) : State :=
  s.setRunner r { s.runners[r] with state := .waiting w, spin := 0 }

/-- The end of a wait: RUNNING at the next entry (R132 to R135). -/
def endWait (r : Fin 4) (s : State) : State :=
  s.setRunner r { s.runners[r] with state := .running, position := s.runners[r].position + 1 }

/-- R141: a fault at the runner's position; any wait is discarded, the stack kept. -/
def faultRunner (r : Fin 4) (kind : Code) (detail : Option Nat) (s : State) : State :=
  let (d, s) := s.drawDetail detail
  s.setRunner r { s.runners[r] with
    state := .faulted
    faultRecord := some ⟨kind, s.runners[r].position, d, s.time.seconds⟩ }

/-- R135: a runner waiting for the source to be QUALIFIED goes on. -/
def endQualifiedWait (i : Fin 16) (s : State) (r : Fin 4) : State :=
  match s.runners[r].state with
  | .waiting (.qualified j _ _) => if j = i then s.endWait r else s
  | _ => s

/-- R135: the source's entry to QUALIFIED ends every wait for it. -/
def endQualifiedWaits (i : Fin 16) (s : State) : State := (List.finRange 4).foldl (endQualifiedWait i) s

/-- R153: one trigger meets a source event. -/
def triggerMeets (i : Fin 16) (event : SourceEvent) (s : State) (n : Fin 16) : State :=
  let g := s.triggers[n]
  if g.enabled ∧ g.source = i ∧ g.event = event then
    if s.canStart g.runner then
      let t := s.startRunner g.runner g.address (.trigger n)
      t.modTrigger n fun g => { g with outcome := .started, lastActed := some s.time.seconds, enabled := !g.once }
    else s.modTrigger n fun g => { g with outcome := .runnerActive, lastActed := some s.time.seconds }
  else s

/-- R32, R153: a source event meets the triggers in ascending order. -/
def raiseEvent (i : Fin 16) (event : SourceEvent) (s : State) : State :=
  (List.finRange 16).foldl (triggerMeets i event) s

end State

/-! ### Contexts -/

/-- R59: a layout fits a screen when every window's rectangle lies inside it. -/
def fits (ws : List Window) (width height : Nat) : Bool :=
  ws.all fun w => w.top + w.height ≤ height && w.left + w.width ≤ width

/-- A pulse at the end of its period, so that the next pulse stage brings its phase to 0 (R74, R75). -/
def pulseAtEnd (p : Nat × Nat) : Pulse := ⟨p.1, p.2, p.1 - 1⟩

/-- R74: a window's runtime, initialised from the copy. -/
def liveWindow (w : Window) : LiveWindow :=
  ⟨w, w.source, none, none, w.freeze, w.pulse.map pulseAtEnd, none, none, none⟩

/-- R74: a layout copied into a context. -/
def contextOf (origin : Fin 128) (l : Layout) : Context :=
  ⟨origin, l.label, l.background, l.check, l.windows.map liveWindow⟩

/-- The layout copy a context holds (R56). -/
def Context.layout (c : Context) : Layout := ⟨c.label, c.background, c.windows.map (·.copy), c.check⟩

/-- R75: what a staged pulse becomes when the context leaves the active place. -/
def reducedPulse (w : LiveWindow) : Option Pulse :=
  match w.staged with
  | some .off => none
  | some (.set p n) => some (pulseAtEnd (p, n))
  | none => w.pulse.map fun p => { p with phase := p.period - 1 }

/-- R75: a window's runtime in a context that becomes PREVIOUS. -/
def reduceWindow (w : LiveWindow) : LiveWindow :=
  { w with latch := none, dissolve := none, freeze := w.copy.freeze, pulse := reducedPulse w, staged := none,
           status := none, fromStatus := none }

/-- R90, R95: a window whose latches are gone, whose dissolve has ended and whose statuses are absent. -/
def darkenWindow (w : LiveWindow) : LiveWindow :=
  { w with latch := none, dissolve := none, status := none, fromStatus := none }

/-- A context with every window changed. -/
def Context.mapWindows (f : LiveWindow → LiveWindow) (c : Context) : Context := { c with windows := c.windows.map f }

end Sys2Proof.Machine
end

