-- ==== Sys2Proof/Machine/Requests.lean ====
section
/-! DEFINITION. The request unit (10): arrival into the queues, the order of service, the tests of R160, replies and
conditions. The owning blocks' parts of a service are in the families' files. -/

namespace Sys2Proof.Machine

/-- How an owning block answers a request (R161): with a result; with a condition, whose detail is `none` where no
rule states it (log 8); or BUSY. -/
inductive Answer
  | done (result : List Byte)
  | refused (code : Code) (detail : Option Nat)
  | busy
deriving DecidableEq, Repr

/-- What an owning block makes of a request: the state when the reply is composed, the answer, and what is done
after the reply within the same service (R31, R92, R163, R167, R170). -/
structure Served where
  state : State
  answer : Answer
  after : State → State := id

/-- FIELD OUT OF RANGE at a field's index. -/
def outOfRange (i : Nat) : Answer := .refused .fieldOutOfRange (some i)

/-- A request that leaves the part as it was. -/
def unchanged (s : State) (a : Answer) : Served := ⟨s, a, id⟩

/-- What the tests of R160 before the owning block decide. -/
inductive Screening
  | discard
  | attention
  | refuse (code : Code) (detail : Option Nat)
  | pass
deriving DecidableEq, Repr

/-- R160 steps 3 to 6. -/
def screenForm (grant : Grant) (r : Request) : Screening :=
  if !knownCode r.code.toNat then .refuse .unknownRequest (some 0)
  else if requiredLength r.code.toNat r.params ≠ some r.params.length then .refuse .badLength (some 0)
  else match reservedOffset r.code.toNat r.params with
    | some o => .refuse .reservedNotZero (some o)
    | none => if grant = .observe ∧ modifies r.code.toNat r.params then .refuse .observeOnly none else .pass

/-- R160 steps 1 to 6; FETCH CONDITION (code 43) passes step 2. -/
def screenRequest (p : Port) (r : Request) : Screening :=
  if p.grant = .none then .discard
  else if p.attention ∧ r.code.toNat ≠ 43 then .attention
  else screenForm p.grant r

namespace State

/-- R161, R168: a reply, carrying the wall fault code of this moment, goes out on the port's return lane. -/
def reply (p : Fin 16) (r : Request) (status : ReplyStatus) (result : List Byte) (s : State) : State :=
  s.modPort p fun x => { x with lane := x.lane ++ [replyCell r.tag r.code status s.wallFault result] }

/-- R162: the condition is written, with its detail and the request's tag. While the attention mark is set the
record keeps the attention condition (R163, R164). -/
def recordCondition (p : Fin 16) (r : Request) (code : Code) (detail : Option Nat) (s : State) : State :=
  if s.ports[p].attention then s
  else
    let (d, s) := s.drawDetail detail
    s.modPort p fun x => { x with condition := some ⟨code, d, r.tag⟩ }

/-- R161: the reply to a served request, the condition of a refusal being written before it. -/
def answerRequest (p : Fin 16) (r : Request) (a : Answer) (s : State) : State :=
  match a with
  | .done result => s.reply p r .done result
  | .refused code detail => (s.recordCondition p r code detail).reply p r .refused []
  | .busy => s.reply p r .busy []

/-- R157: a control cell handed to the request unit. -/
def requestArrives (p : Fin 16) (r : Request) (s : State) : State :=
  if s.ports[p].grant = .none then s
  else if s.loading then s.reply p r .busy []
  else if Config.queueDepth ≤ s.ports[p].queue.length then s.reply p r .full []
  else s.modPort p fun x => { x with queue := x.queue ++ [r] }

/-- R159: the ports in the order of the search, beginning after the one served last. -/
def searchOrder (s : State) : List (Fin 16) := (List.range 16).map fun i => Fin.ofNat 16 (s.served.val + 1 + i)

/-- R159: the request that is served next, with its port. -/
def nextRequest (s : State) : Option (Fin 16 × Request) :=
  s.searchOrder.findSome? fun p => s.ports[p].queue.head?.map fun r => (p, r)

/-- R158, R159: a request leaves its queue when its service begins, and its port becomes the port served last. -/
def beginService (p : Fin 16) (s : State) : State :=
  { s.modPort p (fun x => { x with queue := x.queue.tail }) with served := p }

/-- R160 step 7: the owning block's part, the reply, and what follows the reply. -/
def finishService (p : Fin 16) (r : Request) (v : Served) : State := v.after (v.state.answerRequest p r v.answer)

/-- R160: the service of a request that has left its queue. -/
def serveRequest (body : Fin 16 → List Byte → State → Served) (p : Fin 16) (r : Request) (s : State) : State :=
  match screenRequest s.ports[p] r with
  | .discard => s
  | .attention => s.reply p r .refused []
  | .refuse code detail => s.answerRequest p r (.refused code detail)
  | .pass => finishService p r (body p r.params s)

/-- The service of a request of the given code (R159). Where the request to be served next is another, or there is
none, the event does not arise (log 3, log 4). -/
def serve (code : Nat) (body : Fin 16 → List Byte → State → Served) (s : State) : State :=
  match s.nextRequest with
  | none => s
  | some (p, r) => if r.code.toNat = code then (s.beginService p).serveRequest body p r else s

end State

/-- A read (10 section 10.6): DONE with a result, the part unchanged. -/
def readRequest (result : State → List Byte) : Fin 16 → List Byte → State → Served :=
  fun _ _ s => unchanged s (.done (result s))

end Sys2Proof.Machine
end

