-- ==== Sys2Proof/Machine/Sources.lean ====
section
/-! DEFINITION. The source qualifier (02): what reports, stale expiries, requests and link changes do to a source. -/

namespace Sys2Proof.Machine

namespace State

/-- R24: the transition counters at 0 and the stale timer STOPPED. -/
def zeroTransitions (i : Fin 16) (s : State) : State :=
  s.modSource i fun x => { x with seen := 0, cleanRun := 0, missRun := 0, stale := none }

/-- R24: entry to ACQUIRING. -/
def enterAcquiring (i : Fin 16) (s : State) : State := (s.zeroTransitions i).setSourceState i .acquiring

/-- R25: the stale timer starts, or starts again, with the stale limit in force. -/
def startStale (i : Fin 16) (s : State) : State := s.modSource i fun x => { x with stale := some x.params.staleLimit }

/-- R24, R32, R135: entry to QUALIFIED from ACQUIRING. -/
def qualify (i : Fin 16) (s : State) : State :=
  let s := s.modSource i fun x => { x with toQualify := x.seen, missRun := 0 }
  let s := (s.startStale i).setSourceState i .qualified
  (s.endQualifiedWaits i).raiseEvent i .qualified

/-- R24, R27, R32: entry to FAILED. -/
def failSource (i : Fin 16) (s : State) : State :=
  let s := s.modSource i fun x => { x with stale := none }
  (s.setSourceState i .failed).raiseEvent i .failed

/-- R24: the test that follows each report in ACQUIRING. -/
def testAcquiring (i : Fin 16) (s : State) : State :=
  let x := s.sources[i]
  if x.params.passRun ≤ x.cleanRun ∧ x.params.minPictures ≤ x.seen then s.qualify i
  else if x.params.maxPictures ≤ x.seen then s.failSource i
  else s

/-- R24: a CLEAN picture counted in ACQUIRING. -/
def countClean (i : Fin 16) (s : State) : State :=
  (s.modSource i fun x => { x with seen := x.seen + 1, cleanRun := x.cleanRun + 1 }).testAcquiring i

/-- R27: a CLEAN report taken while SUSPECT; the return to QUALIFIED raises no event. -/
def cleanWhileSuspect (i : Fin 16) (s : State) : State :=
  let s := (s.modSource i fun x => { x with cleanRun := x.cleanRun + 1 }).startStale i
  if s.sources[i].params.passRun ≤ s.sources[i].cleanRun then
    ((s.modSource i fun x => { x with missRun := 0 }).setSourceState i .qualified).endQualifiedWaits i
  else s

/-- R24 to R29: a CLEAN report, by the state of the source. -/
def takeClean (i : Fin 16) (changed : Bool) (s : State) : State :=
  match s.sources[i].state with
  | .acquiring => if changed then (s.enterAcquiring i).countClean i else s.countClean i
  | .qualified =>
    if changed then (s.enterAcquiring i).countClean i
    else (s.modSource i fun x => { x with cleanRun := min 255 (x.cleanRun + 1) }).startStale i
  | .suspect => if changed then (s.enterAcquiring i).countClean i else s.cleanWhileSuspect i
  | .failed => s
  | .disabled => s
  | .down => s

/-- R19, R29: a CLEAN report, with the picture's format and the skipped number. -/
def reportClean (i : Fin 16) (format : Format) (skipped : Nat) (s : State) : State :=
  let changed := s.sources[i].format.any (· ≠ format)
  (s.modSource i fun x => { x with
    completed := x.completed + 1
    skipped := x.skipped + BitVec.ofNat 32 skipped
    format := some format }).takeClean i changed

/-- R26, R27: a miss of a QUALIFIED or SUSPECT source. -/
def takeMiss (i : Fin 16) (s : State) : State :=
  match s.sources[i].state with
  | .qualified => (s.modSource i fun x => { x with missRun := 1, cleanRun := 0 }).setSourceState i .suspect
  | .suspect =>
    let s := s.modSource i fun x => { x with missRun := x.missRun + 1, cleanRun := 0 }
    if s.sources[i].params.suspectLimit ≤ s.sources[i].missRun then s.failSource i else s
  | .acquiring => s
  | .failed => s
  | .disabled => s
  | .down => s

/-- R19, R24, R26 to R28: an ERRORED report, with the skipped number of one made at a last band. -/
def reportErrored (i : Fin 16) (skipped : Nat) (s : State) : State :=
  let s := s.modSource i fun x => { x with errored := x.errored + 1, skipped := x.skipped + BitVec.ofNat 32 skipped }
  match s.sources[i].state with
  | .acquiring => (s.modSource i fun x => { x with seen := x.seen + 1, cleanRun := 0 }).testAcquiring i
  | .qualified => s.takeMiss i
  | .suspect => s.takeMiss i
  | .failed => s
  | .disabled => s
  | .down => s

/-- R19: a STARVED report is counted and nothing else. -/
def reportStarved (i : Fin 16) (s : State) : State := s.modSource i fun x => { x with starved := x.starved + 1 }

/-- R23, R34: SYNC GAINED; during START-UP LOAD the state stays DOWN. -/
def syncGained (i : Fin 16) (s : State) : State :=
  if s.sources[i].state = .down ∧ !s.loading then s.enterAcquiring i else s

/-- R22: SYNC LOST, taken after the assembler's abandonment. -/
def syncLost (i : Fin 16) (s : State) : State :=
  match s.sources[i].state with
  | .disabled => s
  | .down => s
  | .acquiring | .qualified | .suspect | .failed =>
    let s := (s.retire i).modSource i fun x => { x with stale := none }
    (s.setSourceState i .down).raiseEvent i .down

/-- R14, R15: the assembler gives up its picture and becomes IDLE, and the reference is cleared. -/
def dropAssembly (p : Fin 16) (s : State) : State :=
  let s := match s.ports[p].assembly with
    | .assembling k _ _ _ _ => s.abandon k
    | .idle => s
    | .discarding => s
  s.modPort p fun x => { x with assembly := .idle, reference := none }

/-- R20: a source is disabled, from whatever state it held. -/
def disableSource (i : Fin 16) (s : State) : State :=
  (((s.dropAssembly i).retire i).modSource i fun x => { x with stale := none }).setSourceState i .disabled

/-- R21: a source is enabled, and enters ACQUIRING or DOWN by its link. -/
def enableSource (i : Fin 16) (s : State) : State :=
  if s.ports[i].link = .inSync then s.enterAcquiring i else s.setSourceState i .down

/-- R30: REQUALIFY's effect. -/
def requalify (i : Fin 16) (s : State) : State :=
  match s.sources[i].state with
  | .disabled => s
  | .down => s
  | .acquiring | .qualified | .suspect | .failed => s.enterAcquiring i

end State

/-! ### Requests -/

/-- The widths of SET SOURCE's fields (R177). -/
def sourceWidths : List Nat := [1, 1, 1, 1, 1, 1, 2]

/-- The parameters that SET SOURCE's fields 1 to 6 give. -/
def paramsOf (f : List Nat) : SourceParams :=
  ⟨fld f 1 = 1, fld f 2, fld f 3, fld f 4, fld f 5, fld f 6⟩

/-- R31: SET SOURCE's checks before the save: field ranges, then max pictures against min pictures. -/
def sourceBad (f : List Nat) : Option Nat :=
  match firstBad 0 (sourceTests f) with
  | some i => some i
  | none => if fld f 4 < fld f 3 then some 4 else none

/-- R31: SET SOURCE. The enable transition follows the reply (log 14). -/
def setSourceBody (_ : Fin 16) (ps : List Byte) (s : State) : Served :=
  let f := splitFields sourceWidths ps
  match sourceBad f with
  | some i => unchanged s (outOfRange i)
  | none =>
    if s.saving then unchanged s .busy
    else
      let i := Fin.ofNat 16 (fld f 0)
      let was := s.sources[i].params.enable
      let now := (paramsOf f).enable
      ⟨s.modSource i fun x => { x with params := paramsOf f }, .done [],
        fun t => if was && !now then t.disableSource i else if !was && now then t.enableSource i else t⟩

/-- R30: REQUALIFY, as a request and as a cue entry. -/
def requalifyFields (f : List Nat) (s : State) : State × Answer :=
  if 15 < fld f 0 then (s, outOfRange 0) else (s.requalify (Fin.ofNat 16 (fld f 0)), .done [])

/-- R30: REQUALIFY. -/
def requalifyBody (_ : Fin 16) (ps : List Byte) (s : State) : Served :=
  let r := requalifyFields (splitFields [1] ps) s
  ⟨r.1, r.2, id⟩

/-- A format's three bytes. -/
def Format.bytes (f : Format) : List Byte := byte1 f.width ++ byte1 f.height ++ byte1 f.rate

/-- A slot number that may be absent (R177). -/
def slotBytes (k : Option (Fin 64)) : List Byte := present 1 (k.map fun k => byte1 k.val)

/-- The six parameters in SET SOURCE's order. -/
def SourceParams.bytes (x : SourceParams) : List Byte :=
  flag x.enable ++ byte1 x.passRun ++ byte1 x.minPictures ++ byte1 x.maxPictures ++ byte1 x.suspectLimit ++
    byte2 x.staleLimit

/-- The six port counters in R16's order. -/
def PortCounters.bytes (c : PortCounters) : List Byte :=
  [c.received, c.discarded, c.malformed, c.truncated, c.gaps, c.checkFailed].flatMap fun n => byte4 n.toNat

/-- R33: the report of READ SOURCE. -/
def sourceReport (i : Fin 16) (s : State) : List Byte :=
  let x := s.sources[i]
  byte1 x.state.num ++ flag (s.eligible i) ++ x.params.bytes ++ byte1 x.seen ++ byte1 x.cleanRun ++ byte1 x.missRun ++
    flag x.stale.isSome ++ present 3 (x.format.map (·.bytes)) ++ slotBytes (s.readySlot i) ++
    slotBytes (s.fillingSlot i) ++ ([x.completed, x.errored, x.starved, x.skipped].flatMap fun n => byte4 n.toNat) ++
    byte1 x.toQualify ++ byte1 s.ports[i].link.num ++ s.ports[i].counters.bytes

/-- R33: the clear of READ SOURCE: report counters, pictures to qualify, port counters. -/
def State.clearCounters (i : Fin 16) (s : State) : State :=
  (s.modSource i fun x => { x with completed := 0, errored := 0, starved := 0, skipped := 0, toQualify := 0 }).modCounters
    i fun _ => ⟨0, 0, 0, 0, 0, 0⟩

/-- R33: READ SOURCE (the clear option is field 1, and the source's detail is 0: DEDUCED, log 22). -/
def readSourceBody (_ : Fin 16) (ps : List Byte) (s : State) : Served :=
  let f := splitFields [1, 1] ps
  match firstBad 0 [within 0 15 (fld f 0), within 0 1 (fld f 1)] with
  | some i => unchanged s (outOfRange i)
  | none =>
    let i := Fin.ofNat 16 (fld f 0)
    ⟨if fld f 1 = 1 then s.clearCounters i else s, .done (sourceReport i s), id⟩

/-- SET_SOURCE (R31). -/
def execSetSource (s : State) : Host.Outcome State Fault Refusal := .next (s.serve 1 setSourceBody)

/-- REQUALIFY (R30). -/
def execRequalify (s : State) : Host.Outcome State Fault Refusal := .next (s.serve 2 requalifyBody)

/-- READ_SOURCE (R33). -/
def execReadSource (s : State) : Host.Outcome State Fault Refusal := .next (s.serve 3 readSourceBody)

/-- STALE_TIMER_EXPIRY (R25): where the timer runs, it restarts and the expiry is a miss; where it is STOPPED, none
arises (log 4). -/
def execStaleTimerExpiry (source : Fin 16) (s : State) : Host.Outcome State Fault Refusal :=
  .next (if s.sources[source].stale.isSome then (s.startStale source).takeMiss source else s)

end Sys2Proof.Machine
end

