-- ==== Sys2Proof/Machine/Pool.lean ====
section
/-! DEFINITION. The requests of the picture pool (03): CAPTURE, RELEASE STILL and READ POOL. -/

namespace Sys2Proof.Machine

namespace State

/-- R46: a still pins another slot in place of the one it pinned. -/
def repin (k : Fin 4) (slot : Fin 64) (s : State) : State :=
  let t := (s.releaseOpt s.stills[k]).latch slot
  { t with stills := put t.stills k (some slot) }

/-- R47: a still's pin is removed. -/
def unpin (k : Fin 4) (slot : Fin 64) (s : State) : State :=
  let t := s.release slot
  { t with stills := put t.stills k none }

end State

/-- R46: the result of CAPTURE: slot, owner source, picture number. -/
def captureResult (k : Fin 64) (owner : Fin 16) (s : State) : List Byte :=
  byte1 k.val ++ byte1 owner.val ++ [(s.slots[k].picture.map (·.number)).getD 0]

/-- R46: CAPTURE, as a request and as a cue entry. -/
def captureFields (f : List Nat) (s : State) : State × Answer :=
  match firstBad 0 (captureTests f) with
  | some i => (s, outOfRange i)
  | none =>
    let source := Fin.ofNat 16 (fld f 1)
    if s.eligible source then
      match s.readySlot source with
      | some slot => (s.repin (Fin.ofNat 4 (fld f 0)) slot, .done (captureResult slot source s))
      | none => (s, .refused .nothingToCapture none)
    else (s, .refused .nothingToCapture none)

/-- R46: CAPTURE. -/
def captureBody (_ : Fin 16) (ps : List Byte) (s : State) : Served :=
  let r := captureFields (splitFields [1, 1] ps) s
  ⟨r.1, r.2, id⟩

/-- R47: RELEASE STILL, as a request and as a cue entry. -/
def releaseStillFields (f : List Nat) (s : State) : State × Answer :=
  if 3 < fld f 0 then (s, outOfRange 0)
  else
    let k : Fin 4 := Fin.ofNat 4 (fld f 0)
    match s.stills[k] with
    | none => (s, .refused .stillNotPinned none)
    | some slot => (s.unpin k slot, .done [])

/-- R47: RELEASE STILL. -/
def releaseStillBody (_ : Fin 16) (ps : List Byte) (s : State) : Served :=
  let r := releaseStillFields (splitFields [1] ps) s
  ⟨r.1, r.2, id⟩

/-- R52: a slot record in a result. -/
def Slot.bytes (x : Slot) : List Byte :=
  byte1 x.state.num ++ present 1 (x.picture.map fun t => byte1 t.owner.val) ++
    present 1 (x.picture.map fun t => [t.number]) ++ present 3 (x.picture.map fun t => t.format.bytes) ++ byte1 x.holds

/-- R52: the starvation record in a result. -/
def Starvation.bytes (r : Starvation) : List Byte :=
  byte2 r.thisSecond ++ byte2 r.lastSecond ++ byte4 r.total.toNat ++
    present 5 (r.lastDrop.map fun d => byte1 d.1.val ++ byte4 d.2)

/-- R52: the report of READ POOL. -/
def poolReport (s : State) : List Byte :=
  s.slots.toList.flatMap Slot.bytes ++ byte1 s.freeSlots ++ s.stills.toList.flatMap slotBytes ++ s.starvation.bytes ++
    flag s.starving

/-- CAPTURE (R46). -/
def execCapture (s : State) : Host.Outcome State Fault Refusal := .next (s.serve 4 captureBody)

/-- RELEASE_STILL (R47). -/
def execReleaseStill (s : State) : Host.Outcome State Fault Refusal := .next (s.serve 5 releaseStillBody)

/-- READ_POOL (R52). -/
def execReadPool (s : State) : Host.Outcome State Fault Refusal := .next (s.serve 6 (readRequest poolReport))

end Sys2Proof.Machine
end

