-- ==== Sys2Proof/Machine/Picture.lean ====
section
/-! DEFINITION. The output picture (R85): colours, the frame that a screen emits, and the frame's pixels (log 17). -/

namespace Sys2Proof.Machine

/-- R85: a palette colour as a pixel: 5 bits of red, 6 of green, 5 of blue. -/
def Colour.pixel (c : Colour) : Word16 := c.red.extractLsb' 3 5 ++ c.green.extractLsb' 2 6 ++ c.blue.extractLsb' 3 5

/-- A palette index as a pixel. -/
def State.colour (s : State) (n : Nat) : Word16 := s.palette[Fin.ofNat 16 n].pixel

/-! ### The frame -/

/-- R85: what a leg paints: its slot's picture, or the window's slate colour; for a slot without a picture, which no run
reaches, the slate colour is the model's choice (log 21). -/
def State.paint (s : State) (w : LiveWindow) (latch : Option (Fin 64)) : Paint :=
  match latch with
  | none => .colour (s.colour w.copy.slate)
  | some k =>
    match s.slots[k].picture with
    | none => .colour (s.colour w.copy.slate)
    | some t => .picture t.format s.slots[k].bands

/-- R85: the border drawn, if it is: always without a pulse, else while the phase is below the on-count. -/
def State.drawnBorder (s : State) (w : LiveWindow) : Option Word16 :=
  if w.pulse.all fun p => p.phase < p.onCount then w.copy.border.map s.colour else none

/-- R85: a window as it is painted; the ramp entry is that of the step, or 15 past it. -/
def State.painted (s : State) (w : LiveWindow) : Painted where
  top := w.copy.top
  left := w.copy.left
  height := w.copy.height
  width := w.copy.width
  main := s.paint w w.latch
  second := w.dissolve.map fun d => (s.paint w d.latch, s.ramp[Fin.ofNat 16 (min d.step 15)])
  border := s.drawnBorder w

/-- R85: the windows in ascending order of layer. -/
def inLayers (ws : List LiveWindow) : List LiveWindow :=
  (List.range 4).flatMap fun l => ws.filter fun w => w.copy.layer = l

/-- R71, R85: the picture a screen emits: DARK, the colour of palette entry 0. -/
def State.frameOf (s : State) (c : Fin 24) : Frame :=
  let x := s.screens[c]
  match x.active with
  | none => ⟨x.width, x.height, s.colour 0, []⟩
  | some ctx => ⟨x.width, x.height, s.colour ctx.background, (inLayers ctx.windows).map s.painted⟩

/-! ### The pixels -/

/-- R85: the source pixel of an output pixel on one axis. -/
def sourcePixel (x source rect : Nat) : Nat := (2 * x + 1) * source / (2 * rect)

/-- A pixel of a picture stored as bands: 16 lines to a band, two bytes to a pixel (01 section 1.1, R85). The order of the
lines and of the pixels of a line in the payload is the model's (DEDUCED, log 26). -/
def storedPixel (format : Format) (bands : List (List Byte)) (x y : Nat) : Word16 :=
  let band := bands.getD (y / 16) []
  let at0 := 2 * (y % 16 * (8 * format.width) + x)
  byteAt band at0 ++ byteAt band (at0 + 1)

/-- R85: a leg's pixel within its rectangle, given in pixels. -/
def Paint.pixel (p : Paint) (width height x y : Nat) : Word16 :=
  match p with
  | .colour c => c
  | .picture f bands =>
    storedPixel f bands (sourcePixel x (8 * f.width) (8 * width)) (sourcePixel y (16 * f.height) (16 * height))

/-- R85: a component of a blended pixel. -/
def blend (r a b : Nat) : Nat := (r * a + (32 - r) * b + 16) / 32

/-- R85: a blended pixel. -/
def blendPixel (r : Nat) (a b : Word16) : Word16 :=
  BitVec.ofNat 5 (blend r (a.extractLsb' 11 5).toNat (b.extractLsb' 11 5).toNat) ++
    BitVec.ofNat 6 (blend r (a.extractLsb' 5 6).toNat (b.extractLsb' 5 6).toNat) ++
    BitVec.ofNat 5 (blend r (a.extractLsb' 0 5).toNat (b.extractLsb' 0 5).toNat)

/-- R85: whether a pixel of a rectangle lies in the frame of 4 pixels along its edges. -/
def onBorder (width height x y : Nat) : Bool := x < 4 || y < 4 || 8 * width ≤ x + 4 || 16 * height ≤ y + 4

/-- R85: a pixel of a window, counted from its rectangle's corner. -/
def Painted.content (w : Painted) (x y : Nat) : Word16 :=
  let main := w.main.pixel w.width w.height x y
  match w.second with
  | none => main
  | some (second, r) => blendPixel r main (second.pixel w.width w.height x y)

/-- R85: a window's pixel with its border. -/
def Painted.pixel (w : Painted) (x y : Nat) : Word16 :=
  match w.border with
  | none => w.content x y
  | some colour => if onBorder w.width w.height x y then colour else w.content x y

/-- Whether a pixel of the picture lies in a window's rectangle. -/
def Painted.covers (w : Painted) (x y : Nat) : Bool :=
  8 * w.left ≤ x && x < 8 * (w.left + w.width) && 16 * w.top ≤ y && y < 16 * (w.top + w.height)

/-- R85: a pixel of an emitted picture; a later window is painted over those before it. -/
def Frame.pixel (f : Frame) (x y : Nat) : Word16 :=
  f.windows.foldl (fun below w => if w.covers x y then w.pixel (x - 8 * w.left) (y - 16 * w.top) else below) f.background

end Sys2Proof.Machine
end

