-- ==== Sys2Proof/Machine/Takes.lean ====
section
/-! DEFINITION. Scenes and the take engine (07): acceptance, loading, arming, swapping, the end of a job, the grant to
waiting runners, and the engine's requests. -/

namespace Sys2Proof.Machine

/-- A runner's wait-complete option (R124). -/
def Take.waitComplete : Take → Bool
  | .scene _ w => w
  | .layout _ _ w => w
  | .revert _ w => w

/-- A load that is ended before it completes is COMPLETED (R120, R122). -/
def endedLoad (l : Option Load) : Option Load := if l = some .inProgress then some .completed else l

/-- R120: a member as the disable of a screen leaves it. -/
def Member.skip (c : Fin 24) (m : Member) : Member :=
  if m.screen = c ∧ m.outcome = .pending then { m with outcome := .skippedDisabled, load := endedLoad m.load } else m

/-- R118: a member as the swap of a screen leaves it. -/
def Member.swap (c : Fin 24) (m : Member) : Member :=
  if m.screen = c ∧ m.outcome = .pending then { m with outcome := .swapped } else m

/-- R122: a member as an abort leaves it. -/
def Member.abort (m : Member) : Member :=
  if m.outcome = .pending then { m with outcome := .aborted, load := endedLoad m.load } else m

/-- R116: a PENDING member whose load has the given progress. -/
def Member.loadIs (l : Load) (m : Member) : Bool := m.outcome = .pending && m.load = some l

/-- R116: a member whose load is IN PROGRESS as its completion leaves it. -/
def Member.complete (outcome : MemberOutcome) (m : Member) : Member :=
  if m.loadIs .inProgress then { m with load := some .completed, outcome := outcome } else m

/-- R116: the member list with the first load that can begin IN PROGRESS. -/
def beginIn : List Member → Option (List Member)
  | [] => none
  | m :: rest =>
    if m.loadIs .notBegun then some ({ m with load := some .inProgress } :: rest) else (beginIn rest).map (m :: ·)

/-- R119: the result of a job that reaches DONE. -/
def Job.resultOf (aborted : Bool) (j : Job) : JobResult :=
  if aborted then .aborted else if j.members.all (·.outcome = .swapped) then .complete else .partialResult

namespace State

/-- Write a screen's standby. -/
def setStandby (c : Fin 24) (b : Standby) (s : State) : State := s.setScreen c { s.screens[c] with standby := b }

/-! ### The end of a job (R119) -/

/-- R119, R132: the result is handed to the requester runner if it waits for it. -/
def handResult (j : Job) (s : State) : State :=
  match j.requester with
  | .port _ => s
  | .runner r =>
    match s.runners[r].state with
    | .waiting (.takeDone n none) =>
      if n = j.serial then s.setRunner r { s.runners[r] with state := .waiting (.takeDone n j.result) } else s
    | _ => s

/-- R119: the job reaches DONE and becomes the last job. -/
def finishJob (aborted : Bool) (j : Job) (s : State) : State :=
  let done := { j with phase := .done, result := some (j.resultOf aborted) }
  (s.setJob done).handResult done

/-- R119: a job left with no PENDING member is DONE. -/
def settle (s : State) : State :=
  match s.currentJob with
  | none => s
  | some j => if j.members.any (·.outcome = .pending) then s else s.finishJob false j

/-! ### Loading and arming (R116, R117) -/

/-- R117: a member's LOADED standby is made ARMED. -/
def armMember (s : State) (m : Member) : State :=
  match s.screens[m.screen].standby with
  | .loaded c => s.setStandby m.screen (.armed c)
  | .empty => s
  | .previous _ => s
  | .armed _ => s

/-- R117: the arming. -/
def armJob (j : Job) (s : State) : State := ((j.members.foldl armMember s).setJob { j with phase := .armed }).settle

/-- R116, R117: unless a load is in progress, the next load begins; with none left, the job is armed. -/
def advanceLoading (s : State) : State :=
  match s.currentJob with
  | none => s
  | some j =>
    if j.phase ≠ .loading ∨ j.members.any (Member.loadIs .inProgress) then s.settle
    else match beginIn j.members with
      | some ms => s.setJob { j with members := ms }
      | none => s.armJob j

/-! ### Acceptance (R114, R115) -/

/-- R114: the first member whose layout entry is empty. -/
def emptyLayoutAt (ms : Scene) (s : State) : Option Nat := ms.findIdx? fun m => s.library[m.2].isNone

/-- R114: a member at acceptance. -/
def newMember (s : State) (m : Fin 24 × Fin 128) : Member :=
  ⟨m.1, some m.2, some .notBegun, if s.screens[m.1].state = .disabled then .skippedDisabled else .pending⟩

/-- R115: a member of a REVERT job at acceptance. -/
def revertMember (s : State) (c : Fin 24) : Member :=
  ⟨c, none, none,
    if s.screens[c].state = .disabled then .skippedDisabled
    else match s.screens[c].standby with
      | .previous _ => .pending
      | .empty => .rejectedNoPrevious
      | .loaded _ => .rejectedNoPrevious
      | .armed _ => .rejectedNoPrevious⟩

/-- R113: the next serial and the new job record. -/
def newJob (kind : JobKind) (requester : Requester) (phase : Phase) (ms : List Member) (s : State) : State :=
  { s with serial := s.serial + 1 }.setJob ⟨s.serial + 1, kind, requester, ms, phase, none⟩

/-- R114: a SCENE or LAYOUT job is accepted, or refused with EMPTY LAYOUT. -/
def acceptMembers (kind : JobKind) (requester : Requester) (ms : Scene) (s : State) : Except (Code × Nat) State :=
  match s.emptyLayoutAt ms with
  | some i => .error (.emptyLayout, i)
  | none => .ok (s.newJob kind requester .loading (ms.map s.newMember)).advanceLoading

/-- R115: a PENDING member's PREVIOUS standby is made ARMED. -/
def armPrevious (s : State) (m : Member) : State :=
  match s.screens[m.screen].standby with
  | .previous c => if m.outcome = .pending then s.setStandby m.screen (.armed c) else s
  | .empty => s
  | .loaded _ => s
  | .armed _ => s

/-- R115: a REVERT job is accepted. -/
def acceptRevert (requester : Requester) (screens : List (Fin 24)) (s : State) : State :=
  let ms := screens.map s.revertMember
  ((ms.foldl armPrevious s).newJob .revert requester .armed ms).settle

/-- R114, R115, R124: the acceptance of a take by its checks on the tables. -/
def accept (requester : Requester) (t : Take) (s : State) : Except (Code × Nat) State :=
  match t with
  | .scene n _ =>
    match s.scenes[n] with
    | none => .error (.emptyScene, 0)
    | some ms => s.acceptMembers (.scene n) requester ms
  | .layout c e _ => s.acceptMembers .layout requester [(c, e)]
  | .revert c _ => .ok (s.acceptRevert requester [c])

/-! ### Runners and the engine (R124, R125, R131) -/

/-- R131: a runner's take is handled at once. `granted`: the runner leaves WAITING(TAKE GRANT). -/
def submitTake (r : Fin 4) (t : Take) (granted : Bool) (s : State) : State :=
  match s.accept (.runner r) t with
  | .error (code, detail) => s.faultRunner r code (some detail)
  | .ok u =>
    if t.waitComplete && u.engineBusy then u.enterWait r (.takeDone u.serial none)
    else if granted then u.endWait r
    else u.advanceRunner r

/-- R125: a waiting runner is offered the engine while it is IDLE. -/
def offerTo (s : State) (r : Fin 4) : State :=
  if s.engineBusy then s
  else match s.waitingTake r with
    | some t => s.submitTake r t true
    | none => s

/-- R125: the engine, when it is IDLE, is offered to the waiting runners, lowest number first. -/
def offerEngine (s : State) : State := (List.finRange 4).foldl offerTo s

/-! ### Events that meet a job (R116, R118, R120, R122) -/

/-- R120: a member screen is disabled. -/
def memberDisabled (c : Fin 24) (s : State) : State :=
  match s.currentJob with
  | none => s
  | some j =>
    if s.pendingMember c then
      let t := s.setJob { j with members := j.members.map (Member.skip c) }
      let t := match t.screens[c].standby with
        | .loaded _ => t.setStandby c .empty
        | .armed _ => t.setStandby c .empty
        | .empty => t
        | .previous _ => t
      t.advanceLoading.offerEngine
    else s

/-- R118: a member screen has swapped. -/
def memberSwapped (c : Fin 24) (s : State) : State :=
  match s.currentJob with
  | none => s
  | some j =>
    if s.pendingMember c then
      (s.setJob { j with
        members := j.members.map (Member.swap c)
        phase := if j.phase = .armed then .swapping else j.phase }).settle.offerEngine
    else s

/-- R122: a PENDING member's standby at an abort. -/
def abortStandby (kind : JobKind) (s : State) (m : Member) : State :=
  if m.outcome = .pending then
    match s.screens[m.screen].standby with
    | .loaded _ => s.setStandby m.screen .empty
    | .armed c => s.setStandby m.screen (if kind = .revert then .previous c else .empty)
    | .empty => s
    | .previous _ => s
  else s

/-- R122, R123: the job in progress is ended with the result ABORTED. -/
def abortJob (s : State) : State :=
  match s.currentJob with
  | none => s
  | some j => (j.members.foldl (abortStandby j.kind) s).finishJob true { j with members := j.members.map Member.abort }

/-- R116: the load in progress becomes COMPLETED, its member's outcome as given. -/
def completeLoad (outcome : MemberOutcome) (s : State) : State :=
  match s.currentJob with
  | none => s
  | some j => s.setJob { j with members := j.members.map (Member.complete outcome) }

/-- R116: the completion of a load, with the layout its entry holds. -/
def loadCompletes (c : Fin 24) (e : Fin 128) (l : Layout) (s : State) : State :=
  if fits l.windows s.screens[c].width s.screens[c].height then
    ((s.setStandby c (.loaded (contextOf e l))).completeLoad .pending).advanceLoading.offerEngine
  else (s.completeLoad .rejectedGeometry).advanceLoading.offerEngine

/-- The member whose load is IN PROGRESS, with the layout of its entry (R116). -/
def loadInProgress (s : State) : Option (Fin 24 × Fin 128 × Layout) :=
  match s.currentJob with
  | none => none
  | some j => match j.members.find? (Member.loadIs .inProgress) with
    | none => none
    | some m => match m.layout with
      | none => none
      | some e => s.library[e].map fun l => (m.screen, e, l)

/-- R111: the take job is LOADING a scene taken from this number. -/
def sceneBusy (s : State) (n : Fin 32) : Bool :=
  s.saving || s.job.any fun j => j.phase = .loading && j.kind = .scene n

/-- Write a scene table entry. -/
def setScene (n : Fin 32) (x : Option Scene) (s : State) : State := { s with scenes := put s.scenes n x }

end State

/-! ### The scene table's requests (R111, R112) -/

/-- R111 step 4: the tests of the members, screen and layout in turn. -/
def memberTests : List Nat → List Bool
  | a :: b :: rest => within 0 23 a :: within 0 127 b :: memberTests rest
  | [_] => []
  | [] => []

/-- The members that screen and layout bytes spell. -/
def membersOf : List Nat → Scene
  | a :: b :: rest => (Fin.ofNat 24 a, Fin.ofNat 128 b) :: membersOf rest
  | [_] => []
  | [] => []

/-- A scene record (12 section 12.4). -/
def sceneBytes (ms : Scene) : List Byte :=
  byte1 ms.length ++ ms.flatMap fun m => byte1 m.1.val ++ byte1 m.2.val

/-- R111 steps 4 and 5, which R110 also asks of a stored scene: its count and members as fields. -/
def sceneBad (count : Nat) (members : List Nat) : Option (Code × Nat) :=
  match firstBad 1 (within 1 24 count :: memberTests members) with
  | some i => some (.fieldOutOfRange, i)
  | none => (firstRepeat 0 [] ((membersOf members).map (·.1.val))).map fun i => (.duplicateScreen, 2 + 2 * i)

/-- R111: LOAD SCENE. -/
def loadSceneBody (_ : Fin 16) (ps : List Byte) (s : State) : Served :=
  let f := ps.map (·.toNat)
  if 31 < fld f 0 then unchanged s (outOfRange 0)
  else
    let n := Fin.ofNat 32 (fld f 0)
    if s.sceneBusy n then unchanged s .busy
    else match sceneBad (fld f 1) (f.drop 2) with
      | some (code, detail) => unchanged s (.refused code (some detail))
      | none =>
        ⟨s.setScene n (some (membersOf (f.drop 2))),
          .done (byte1 n.val ++ byte1 (fld f 1) ++ flag s.scenes[n].isSome), id⟩

/-- R112: ERASE SCENE. -/
def eraseSceneBody (_ : Fin 16) (ps : List Byte) (s : State) : Served :=
  let n := (byteAt ps 0).toNat
  if 31 < n then unchanged s (outOfRange 0)
  else
    let k := Fin.ofNat 32 n
    if s.sceneBusy k then unchanged s .busy
    else ⟨s.setScene k none, .done (flag s.scenes[k].isSome), id⟩

/-- R112: READ SCENE. -/
def readSceneBody (_ : Fin 16) (ps : List Byte) (s : State) : Served :=
  let n := (byteAt ps 0).toNat
  if 31 < n then unchanged s (outOfRange 0)
  else unchanged s (.done (byte1 n ++ presentRecord (s.scenes[Fin.ofNat 32 n].map sceneBytes)))

/-! ### The engine's requests (R114, R115, R122, R126) -/

/-- R114: the result of an accepted take: serial, kind, members, members of the given outcome, phase. -/
def takeResult (counted : MemberOutcome) (s : State) : List Byte :=
  match s.job with
  | none => []
  | some j =>
    byte2 j.serial.toNat ++ byte1 j.kind.num ++ byte1 j.members.length ++
      byte1 (j.members.countP (·.outcome = counted)) ++ byte1 j.phase.num

/-- R114 steps 2 to 4 and the reply. -/
def requestTake (p : Fin 16) (t : Take) (s : State) : Served :=
  if s.engineBusy then unchanged s .busy
  else match s.accept (.port p) t with
    | .error (code, detail) => unchanged s (.refused code (some detail))
    | .ok u => ⟨u.offerEngine, .done (takeResult .skippedDisabled u), id⟩

/-- R114: TAKE SCENE. -/
def takeSceneBody (p : Fin 16) (ps : List Byte) (s : State) : Served :=
  let n := (byteAt ps 0).toNat
  if 31 < n then unchanged s (outOfRange 0) else requestTake p (.scene (Fin.ofNat 32 n) false) s

/-- R114: TAKE LAYOUT. -/
def takeLayoutBody (p : Fin 16) (ps : List Byte) (s : State) : Served :=
  let f := splitFields [1, 1] ps
  match firstBad 0 [within 0 23 (fld f 0), within 0 127 (fld f 1)] with
  | some i => unchanged s (outOfRange i)
  | none => requestTake p (.layout (Fin.ofNat 24 (fld f 0)) (Fin.ofNat 128 (fld f 1)) false) s

/-- R115 steps 1 and 2. -/
def revertBad (f : List Nat) : Option (Code × Nat) :=
  match firstBad 0 (within 1 24 (fld f 0) :: (f.drop 1).map (within 0 23)) with
  | some i => some (.fieldOutOfRange, i)
  | none => (firstRepeat 1 [] (f.drop 1)).map fun i => (.duplicateScreen, i)

/-- R115: REVERT. -/
def revertBody (p : Fin 16) (ps : List Byte) (s : State) : Served :=
  let f := ps.map (·.toNat)
  match revertBad f with
  | some (code, detail) => unchanged s (.refused code (some detail))
  | none =>
    if s.engineBusy then unchanged s .busy
    else
      let u := s.acceptRevert (.port p) ((f.drop 1).map (Fin.ofNat 24))
      ⟨u.offerEngine, .done (takeResult .pending u), id⟩

/-- R122: ABORT TAKE. -/
def abortTakeBody (_ : Fin 16) (_ : List Byte) (s : State) : Served :=
  match s.currentJob with
  | none => unchanged s (.refused .noTake none)
  | some j =>
    ⟨s.abortJob.offerEngine,
      .done (byte2 j.serial.toNat ++ byte1 (j.members.countP (·.outcome = .pending))), id⟩

/-- R126: a member in a result. -/
def Member.bytes (m : Member) : List Byte :=
  byte1 m.screen.val ++ present 1 (m.layout.map fun e => byte1 e.val) ++ present 1 (m.load.map fun l => byte1 l.num) ++
    byte1 m.outcome.num

/-- A SCENE job's origin (07 section 7.2). -/
def JobKind.origin : JobKind → Option (Fin 32)
  | .scene n => some n
  | .layout => none
  | .revert => none

/-- R126: the job record in a result, its members after their count (log 15). -/
def Job.bytes (j : Job) : List Byte :=
  byte2 j.serial.toNat ++ byte1 j.kind.num ++ present 1 (j.kind.origin.map fun n => byte1 n.val) ++
    byte1 j.requester.num ++ byte1 j.phase.num ++ present 1 (j.result.map fun x => byte1 x.num) ++
    byte1 j.members.length ++ j.members.flatMap Member.bytes

/-- R126: the waiting set (log 19), listed in ascending runner number: R126 gives a set and no order (DESIGN CHOICE,
log 15). -/
def State.waitingSet (s : State) : List (Fin 4 × Take) :=
  (List.finRange 4).filterMap fun r => (s.waitingTake r).map fun t => (r, t)

/-- R126: the report of READ TAKE. -/
def takeReport (s : State) : List Byte :=
  flag s.engineBusy ++ presentRecord (s.job.map (·.bytes)) ++ byte1 s.waitingSet.length ++
    s.waitingSet.flatMap fun x => byte1 x.1.val ++ byte1 x.2.kindNum

/-- MEMBER_LOAD_COMPLETION (R116). Where no load is in progress, none completes (log 4, log 21). -/
def execMemberLoadCompletion (s : State) : Host.Outcome State Fault Refusal :=
  .next (match s.loadInProgress with
    | none => s
    | some (c, e, l) => s.loadCompletes c e l)

/-- LOAD_SCENE (R111). -/
def execLoadScene (s : State) : Host.Outcome State Fault Refusal := .next (s.serve 22 loadSceneBody)

/-- ERASE_SCENE (R112). -/
def execEraseScene (s : State) : Host.Outcome State Fault Refusal := .next (s.serve 23 eraseSceneBody)

/-- READ_SCENE (R112). -/
def execReadScene (s : State) : Host.Outcome State Fault Refusal := .next (s.serve 24 readSceneBody)

/-- TAKE_SCENE (R114). -/
def execTakeScene (s : State) : Host.Outcome State Fault Refusal := .next (s.serve 25 takeSceneBody)

/-- TAKE_LAYOUT (R114). -/
def execTakeLayout (s : State) : Host.Outcome State Fault Refusal := .next (s.serve 26 takeLayoutBody)

/-- REVERT (R115). -/
def execRevert (s : State) : Host.Outcome State Fault Refusal := .next (s.serve 27 revertBody)

/-- ABORT_TAKE (R122). -/
def execAbortTake (s : State) : Host.Outcome State Fault Refusal := .next (s.serve 28 abortTakeBody)

/-- READ_TAKE (R126). -/
def execReadTake (s : State) : Host.Outcome State Fault Refusal := .next (s.serve 29 (readRequest takeReport))

end Sys2Proof.Machine
end

