-- ==== Sys2Proof/Machine/Screens.lean ====
section
/-! DEFINITION. Screen composition (05): cadence ticks, the work of a tick, and the screens' requests. -/

namespace Sys2Proof.Machine

/-! ### The stages of a tick (05 section 5.4) -/

/-- What a leg is to show: a slot, or the slate colour (R77, R78, R80). -/
structure Leg where
  slot : Option (Fin 64)
  status : RenderStatus
deriving DecidableEq, Repr

/-- R80: both ratios between 1/8 and 2. -/
def scaleFits (w : Window) (f : Format) : Bool :=
  f.width ≤ 8 * w.width && w.width ≤ 2 * f.width && f.height ≤ 8 * w.height && w.height ≤ 2 * f.height

namespace State

/-- R77, R18: an eligible feed's READY slot. -/
def feedSlot (s : State) (i : Fin 16) : Option (Fin 64) := if s.eligible i then s.readySlot i else none

/-- R77: a source resolves to a slot, with its status, or does not. -/
def resolve (s : State) (source : Nat) : Option Leg :=
  if source < 16 then (s.feedSlot (Fin.ofNat 16 source)).map fun k => ⟨some k, .showingSource⟩
  else s.stills[Fin.ofNat 4 (source - 16)].map fun k => ⟨some k, .showingStill⟩

/-- R78: a leg's fallback, by the slot it latches. -/
def fallbackLeg (s : State) (w : Window) (held : Option (Fin 64)) : Leg :=
  match w.fallback with
  | .hold => match held with
    | some k => ⟨some k, .held⟩
    | none => ⟨none, .slateFallback⟩
  | .slate => ⟨none, .slateFallback⟩
  | .backup => match w.backup.bind fun b => s.feedSlot (Fin.ofNat 16 b) with
    | some k => ⟨some k, .backup⟩
    | none => ⟨none, .slateFallback⟩

/-- R80: a slot that fails the scale check is not shown. -/
def scaleLeg (s : State) (w : Window) (leg : Leg) : Leg :=
  match leg.slot with
  | none => leg
  | some k =>
    if s.slots[k].picture.all fun t => scaleFits w t.format then leg else ⟨none, .scaleOutOfRange⟩

/-- R77 to R80: a leg that is not frozen. -/
def planLeg (s : State) (w : Window) (source : Nat) (held : Option (Fin 64)) : Leg :=
  s.scaleLeg w ((s.resolve source).getD (s.fallbackLeg w held))

/-- R79, R84: the status of a frozen leg. -/
def frozenStatus (latch : Option (Fin 64)) (status : Option RenderStatus) : Option RenderStatus :=
  if latch.isNone then some .slateFallback else status

/-- R79, R84: a frozen window keeps its latches. -/
def keepWindow (w : LiveWindow) : LiveWindow :=
  { w with
    status := frozenStatus w.latch w.status
    fromStatus := w.dissolve.bind fun d => frozenStatus d.latch w.fromStatus }

/-- R77 to R81, R84: a window that resolves, with the slots its legs are to latch. -/
def planWindow (s : State) (w : LiveWindow) : LiveWindow :=
  let main := s.planLeg w.copy w.current w.latch
  let second := w.dissolve.map fun d => (d, s.planLeg w.copy d.source d.latch)
  { w with
    latch := main.slot
    status := some main.status
    dissolve := second.map fun x => { x.1 with latch := x.2.slot }
    fromStatus := second.map fun x => x.2.status }

/-- R77 to R81: a window through the stages up to the latch stage. -/
def stageWindow (s : State) (w : LiveWindow) : LiveWindow := if w.freeze then keepWindow w else s.planWindow w

/-- R81: a leg that moves to another slot latches it, then releases its old one. -/
def moveLatch (old new : Option (Fin 64)) (s : State) : State :=
  if old = new then s
  else match new with
    | some k => (s.latch k).releaseOpt old
    | none => s.releaseOpt old

/-- R81: the two legs of a window latch independently. -/
def moveWindow (s : State) (x : LiveWindow × LiveWindow) : State :=
  (s.moveLatch x.1.latch x.2.latch).moveLatch (x.1.dissolve.bind (·.latch)) (x.2.dissolve.bind (·.latch))

end State

/-- R82: whether a window's dissolve ends at this tick. -/
def dissolveEnds (w : LiveWindow) : Bool := w.dissolve.any fun d => d.step + 1 = d.length

/-- R82: a window through the dissolve stage. -/
def stepDissolve (w : LiveWindow) : LiveWindow :=
  match w.dissolve with
  | none => w
  | some d =>
    if d.step + 1 = d.length then { w with dissolve := none, fromStatus := none }
    else { w with dissolve := some { d with step := d.step + 1 } }

/-- R83: a pulse one picture on; a staged change takes effect at its wrap. -/
def stepPhase (p : Pulse) (staged : Option Staged) : Pulse × Option Staged :=
  let phase := (p.phase + 1) % p.period
  match staged with
  | some (.set period n) => if phase = 0 then (⟨period, n, 0⟩, none) else ({ p with phase := phase }, staged)
  | some .off => ({ p with phase := phase }, staged)
  | none => ({ p with phase := phase }, none)

/-- R83: a window through the pulse stage. -/
def stepPulse (w : LiveWindow) : LiveWindow :=
  match w.staged, w.pulse with
  | some .off, _ => { w with pulse := none, staged := none }
  | some (.set period n), none => { w with pulse := some ⟨period, n, 0⟩, staged := none }
  | staged, some p => { w with pulse := some (stepPhase p staged).1, staged := (stepPhase p staged).2 }
  | none, none => w

namespace State

/-- R76: the swap of a screen whose standby is ARMED. -/
def swapContexts (c : Fin 24) (x : Context) (s : State) : State :=
  match s.screens[c].active with
  | none => (s.setScreen c { s.screens[c] with active := some x, standby := .empty }).memberSwapped c
  | some old =>
    let t := s.releaseWindows old.windows
    (t.setScreen c
      { t.screens[c] with active := some x, standby := .previous (old.mapWindows reduceWindow) }).memberSwapped c

/-- R76: the swap stage. -/
def swapStage (c : Fin 24) (s : State) : State :=
  match s.screens[c].standby with
  | .armed x => s.swapContexts c x
  | .empty => s
  | .previous _ => s
  | .loaded _ => s

/-- R82: the from-latches of the dissolves that end. -/
def releaseEnded (s : State) (w : LiveWindow) : State :=
  if dissolveEnds w then s.releaseOpt (w.dissolve.bind (·.latch)) else s

/-- R77 to R84: the stages after the swap, over the windows of the active context. -/
def composeStages (c : Fin 24) (x : Context) (s : State) : State :=
  let staged := x.windows.map s.stageWindow
  let t := (x.windows.zip staged).foldl moveWindow s
  let t := staged.foldl releaseEnded t
  t.setScreen c { t.screens[c] with active := some { x with windows := staged.map fun w => stepPulse (stepDissolve w) } }

/-- R71, R85: the picture is emitted. -/
def emitFrame (c : Fin 24) (s : State) : State :=
  s.setScreen c { s.screens[c] with output := some (s.frameOf c) }

/-- R71, R76 to R85: a screen takes a tick. -/
def takeTick (c : Fin 24) (s : State) : State :=
  let t := (s.setScreen c { s.screens[c] with ticksDue := s.screens[c].ticksDue - 1 }).swapStage c
  (match t.screens[c].active with
    | none => t
    | some x => t.composeStages c x).emitFrame c

end State

/-! ### Cadence ticks (R72, R133) -/

/-- R72: a tick is delivered to an enabled screen of the cadence (log 6). -/
def Screen.deliver (cadence : Cadence) (x : Screen) : Screen :=
  if x.enabled ∧ x.cadence = cadence then { x with ticksDue := x.ticksDue + 1 } else x

/-- R133: a tick is delivered to a runner that counts the generator's ticks; the last one waits to be taken
(log 7). -/
def Runner.deliver (cadence : Cadence) (x : Runner) : Runner :=
  match x.state with
  | .waiting (.pictures k n due) =>
    if k = cadence ∧ !due then
      if n ≤ 1 then { x with state := .waiting (.pictures k n true) } else { x with state := .waiting (.pictures k (n - 1) false) }
    else x
  | _ => x

/-- R72: a generator's tick. -/
def State.deliverTick (cadence : Cadence) (s : State) : State :=
  { s with
    screens := mapTable (Screen.deliver cadence) s.screens
    runners := mapTable (Runner.deliver cadence) s.runners }

/-! ### Settings (R70, R90 to R92) -/

/-- The four settings of SET SCREEN. -/
structure ScreenSettings where
  enabled : Bool
  cadence : Cadence
  width : Nat
  height : Nat
  start : Option (Fin 128)
deriving DecidableEq, Repr

/-- The settings that SET SCREEN's fields 1 to 6 give. -/
def settingsOf (f : List Nat) : ScreenSettings :=
  ⟨fld f 1 = 1, cadenceOf (fld f 2), fld f 3, fld f 4, if fld f 5 = 1 then some (Fin.ofNat 128 (fld f 6)) else none⟩

/-- A screen with the four settings replaced. -/
def Screen.withSettings (x : Screen) (g : ScreenSettings) : Screen :=
  { x with enabled := g.enabled, cadence := g.cadence, width := g.width, height := g.height, start := g.start }

/-- R59: a context whose layout fits a geometry. -/
def Context.fitsIn (c : Context) (width height : Nat) : Bool := fits (c.windows.map (·.copy)) width height

/-- R92: a DISABLED screen's contexts after its geometry has changed. -/
def Screen.refit (x : Screen) : Screen :=
  if x.active.any fun c => !c.fitsIn x.width x.height then { x with active := none, standby := .empty }
  else match x.standby with
    | .previous c => if c.fitsIn x.width x.height then x else { x with standby := .empty }
    | .empty => x
    | .loaded _ => x
    | .armed _ => x

namespace State

/-- R90: a screen is disabled. -/
def disableScreen (c : Fin 24) (s : State) : State :=
  let t := match s.screens[c].active with
    | none => s
    | some x => s.releaseWindows x.windows
  let t := t.setScreen c { t.screens[c] with
    enabled := false
    active := t.screens[c].active.map (Context.mapWindows darkenWindow)
    ticksDue := 0
    output := none }
  t.memberDisabled c

/-- R92: what follows the reply: the test of the contexts, the disable or enable, the change of cadence. An enable
is done by the setting itself (R91). -/
def applySettings (c : Fin 24) (was : Screen) (s : State) : State :=
  let now := s.screens[c]
  let t := if was.state = .disabled ∧ (was.width ≠ now.width ∨ was.height ≠ now.height) then s.setScreen c now.refit else s
  let t := if was.enabled && !now.enabled then t.disableScreen c else t
  if was.cadence = now.cadence then t else t.setScreen c { t.screens[c] with ticksDue := 0 }

/-- R73: an enabled screen has the generator as its cadence. -/
def cadenceInUse (s : State) (k : Cadence) : Bool := s.screens.toList.any fun x => x.enabled && x.cadence = k

/-- Set a generator's rate. -/
def setRate (k : Cadence) (rate : Nat) (s : State) : State :=
  match k with
  | .a => { s with rateA := rate }
  | .b => { s with rateB := rate }

/-- Change the window of the given number in a screen's active context. -/
def modWindow (c : Fin 24) (n : Nat) (f : LiveWindow → LiveWindow) (s : State) : State :=
  s.setScreen c { s.screens[c] with
    active := s.screens[c].active.map (Context.mapWindows fun w => if w.copy.number = n then f w else w) }

/-- R87: the checks on the screen and the window, then the request itself. -/
def onWindow (c : Fin 24) (n : Nat) (act : Context → LiveWindow → State × Answer) (s : State) : State × Answer :=
  if s.screens[c].state ≠ .showing then (s, .refused .screenNotShowing none)
  else match s.screens[c].active with
    | none => (s, .refused .screenNotShowing none)
    | some x => match x.windows.find? fun w => w.copy.number = n with
      | none => (s, .refused .noSuchWindow none)
      | some w => act x w

end State

/-! ### Requests -/

/-- R92: SET SCREEN's checks on the screen as it stands. -/
def setScreenBad (s : State) (c : Fin 24) (g : ScreenSettings) : Option Code :=
  let x := s.screens[c]
  let resized : Bool := x.width ≠ g.width || x.height ≠ g.height
  if (x.cadence ≠ g.cadence || resized) && s.pendingMember c then some .memberOfTake
  else if resized && x.state = .showing then some .screenNotDark
  else none

/-- R92: SET SCREEN. The effects follow the reply (log 14). -/
def setScreenBody (_ : Fin 16) (ps : List Byte) (s : State) : Served :=
  let f := ps.map (·.toNat)
  match firstBad 0 (screenTests f) with
  | some i => unchanged s (outOfRange i)
  | none =>
    if s.saving then unchanged s .busy
    else
      let c := Fin.ofNat 24 (fld f 0)
      let g := settingsOf f
      match setScreenBad s c g with
      | some code => unchanged s (.refused code none)
      | none =>
        let was := s.screens[c]
        ⟨s.setScreen c (was.withSettings g), .done [], fun t => t.applySettings c was⟩

/-- R73: SET CADENCE. -/
def setCadenceBody (_ : Fin 16) (ps : List Byte) (s : State) : Served :=
  let f := ps.map (·.toNat)
  match firstBad 0 [within 0 1 (fld f 0), [24, 25, 30, 50, 60].contains (fld f 1)] with
  | some i => unchanged s (outOfRange i)
  | none =>
    if s.saving then unchanged s .busy
    else if s.cadenceInUse (cadenceOf (fld f 0)) then unchanged s (.refused .cadenceInUse none)
    else ⟨s.setRate (cadenceOf (fld f 0)) (fld f 1), .done [], id⟩

/-- The palette that 48 bytes spell (12 section 12.3). -/
def paletteOf (bs : List Byte) : Vector Colour 16 :=
  Vector.ofFn fun i => ⟨byteAt bs (3 * i.val), byteAt bs (3 * i.val + 1), byteAt bs (3 * i.val + 2)⟩

/-- R86: SET PALETTE. -/
def setPaletteBody (_ : Fin 16) (ps : List Byte) (s : State) : Served :=
  if s.saving then unchanged s .busy else ⟨{ s with palette := paletteOf ps }, .done [], id⟩

/-- R88: FREEZE, as a request and as a cue entry. -/
def freezeFields (f : List Nat) (s : State) : State × Answer :=
  match firstBad 0 (freezeTests f) with
  | some i => (s, outOfRange i)
  | none =>
    let c := Fin.ofNat 24 (fld f 0)
    s.onWindow c (fld f 1) fun _ _ => (s.modWindow c (fld f 1) fun w => { w with freeze := fld f 2 = 1 }, .done [])

/-- R88: FREEZE. -/
def freezeBody (_ : Fin 16) (ps : List Byte) (s : State) : Served :=
  let r := freezeFields (ps.map (·.toNat)) s
  ⟨r.1, r.2, id⟩

/-- R89: the change that SET PULSE stages. -/
def stagedOf (f : List Nat) : Staged := if fld f 2 = 1 then .set (fld f 3) (fld f 4) else .off

/-- R89: SET PULSE, as a request and as a cue entry. -/
def setPulseFields (f : List Nat) (s : State) : State × Answer :=
  match firstBad 0 (setPulseTests f) with
  | some i => (s, outOfRange i)
  | none =>
    let c := Fin.ofNat 24 (fld f 0)
    s.onWindow c (fld f 1) fun _ w =>
      if w.copy.border.isNone then (s, outOfRange 2)
      else (s.modWindow c (fld f 1) fun w => { w with staged := some (stagedOf f) }, .done [])

/-- R89: SET PULSE. -/
def setPulseBody (_ : Fin 16) (ps : List Byte) (s : State) : Served :=
  let r := setPulseFields (ps.map (·.toNat)) s
  ⟨r.1, r.2, id⟩

/-- R93: a dissolve in a result. -/
def Dissolve.bytes (d : Dissolve) : List Byte := byte1 d.source ++ slotBytes d.latch ++ byte1 d.step ++ byte1 d.length

/-- R93: a staged pulse in a result: mode, period, on-count (log 15). -/
def Staged.bytes : Staged → List Byte
  | .off => [0, 0, 0]
  | .set p n => byte1 1 ++ byte1 p ++ byte1 n

/-- A render status that may be absent. -/
def statusBytes (x : Option RenderStatus) : List Byte := present 1 (x.map fun r => byte1 r.num)

/-- R93: a window's runtime in a result, in the order of 05 section 5.3. -/
def LiveWindow.bytes (w : LiveWindow) : List Byte :=
  byte1 w.current ++ slotBytes w.latch ++ present 5 (w.dissolve.map (·.bytes)) ++ flag w.freeze ++
    present 3 (w.pulse.map fun p => byte1 p.period ++ byte1 p.onCount ++ byte1 p.phase) ++
    present 3 (w.staged.map (·.bytes)) ++ statusBytes w.status ++ statusBytes w.fromStatus

/-- R93: a context in a result. -/
def Context.bytes (c : Context) : List Byte :=
  byte1 c.origin.val ++ c.layout.bytes ++ c.windows.flatMap LiveWindow.bytes

/-- The context a standby holds, if any. -/
def Standby.context : Standby → Option Context
  | .empty => none
  | .previous c => some c
  | .loaded c => some c
  | .armed c => some c

/-- A palette colour in a result. -/
def Colour.bytes (c : Colour) : List Byte := [c.red, c.green, c.blue]

/-- The four settings in the order of SET SCREEN, the start layout with its presence mark. -/
def Screen.settingsBytes (x : Screen) : List Byte :=
  flag x.enabled ++ byte1 (cadenceNum x.cadence) ++ byte1 x.width ++ byte1 x.height ++
    present 1 (x.start.map fun e => byte1 e.val)

/-- R93: the report of READ SCREEN. -/
def screenReport (c : Fin 24) (s : State) : List Byte :=
  let x := s.screens[c]
  x.settingsBytes ++ byte1 x.state.num ++ presentRecord (x.active.map (·.bytes)) ++ byte1 x.standby.num ++
    presentRecord (x.standby.context.map (·.bytes)) ++ flag (s.pendingMember c) ++ byte1 s.rateA ++ byte1 s.rateB ++
    s.palette.toList.flatMap Colour.bytes

/-- R93: READ SCREEN. -/
def readScreenBody (_ : Fin 16) (ps : List Byte) (s : State) : Served :=
  let n := (byteAt ps 0).toNat
  if 23 < n then unchanged s (outOfRange 0) else unchanged s (.done (screenReport (Fin.ofNat 24 n) s))

/-- CADENCE_TICK (R72). -/
def execCadenceTick (cadence : Cadence) (s : State) : Host.Outcome State Fault Refusal := .next (s.deliverTick cadence)

/-- SCREEN_TICK (R71). A DISABLED screen takes no tick, and none is taken that was not delivered (log 4, log 6). -/
def execScreenTick (screen : Fin 24) (s : State) : Host.Outcome State Fault Refusal :=
  .next (if s.screens[screen].enabled ∧ 0 < s.screens[screen].ticksDue then s.takeTick screen else s)

/-- SET_SCREEN (R92). -/
def execSetScreen (s : State) : Host.Outcome State Fault Refusal := .next (s.serve 10 setScreenBody)

/-- SET_CADENCE (R73). -/
def execSetCadence (s : State) : Host.Outcome State Fault Refusal := .next (s.serve 11 setCadenceBody)

/-- SET_PALETTE (R86). -/
def execSetPalette (s : State) : Host.Outcome State Fault Refusal := .next (s.serve 12 setPaletteBody)

/-- FREEZE (R88). -/
def execFreeze (s : State) : Host.Outcome State Fault Refusal := .next (s.serve 13 freezeBody)

/-- SET_PULSE (R89). -/
def execSetPulse (s : State) : Host.Outcome State Fault Refusal := .next (s.serve 14 setPulseBody)

/-- READ_SCREEN (R93). -/
def execReadScreen (s : State) : Host.Outcome State Fault Refusal := .next (s.serve 15 readScreenBody)

end Sys2Proof.Machine
end

