-- ==== Sys2Proof/Machine/Windows.lean ====
section
/-! DEFINITION. Window takes, rotation lists and the ramp (06). -/

namespace Sys2Proof.Machine

/-- What a take carried out (R102); `transition` is `none` for NONE. -/
structure TakeEffect where
  state : State
  transition : Option Transition
  cutSubstituted : Bool
  completed : Bool

/-- R99: the area of windows, each one that the test names counted twice. -/
def countedArea (twice : LiveWindow → Bool) (ws : List LiveWindow) : Nat :=
  (ws.map fun w => w.copy.height * w.copy.width * if twice w then 2 else 1).sum

/-- R102: the area in use. -/
def areaInUse (ws : List LiveWindow) : Nat := countedArea (·.dissolve.isSome) ws

/-- R99: the area once the window of the given number dissolves. -/
def areaWith (n : Nat) (ws : List LiveWindow) : Nat :=
  countedArea (fun w => w.dissolve.isSome || w.copy.number = n) ws

/-- R97, R100: a window taken by a cut. -/
def cutWindow (source : Nat) (w : LiveWindow) : LiveWindow :=
  { w with current := source, dissolve := none, fromStatus := none, freeze := false }

/-- R98, R100, R101: a window on which a dissolve is begun. -/
def dissolveWindow (source length : Nat) (w : LiveWindow) : LiveWindow :=
  { w with
    current := source
    latch := none
    dissolve := some ⟨w.current, w.latch, 0, length⟩
    fromStatus := none
    freeze := false }

/-- R101: a window whose dissolve is completed, its target staying current. -/
def completeWindow (w : LiveWindow) : LiveWindow := cutWindow w.current w

/-- R96 to R101: the take of a window of the active context. -/
def takeWindow (c : Fin 24) (x : Context) (w : LiveWindow) (source : Nat) (t : Transition) (s : State) : TakeEffect :=
  let n := w.copy.number
  let completed := w.dissolve.isSome
  if source = w.current ∧ !completed then ⟨s, none, false, false⟩
  else
    let s := s.releaseOpt (w.dissolve.bind (·.latch))
    if source = w.current then ⟨s.modWindow c n completeWindow, none, false, completed⟩
    else match t with
      | .cut => ⟨s.modWindow c n (cutWindow source), some .cut, false, completed⟩
      | .dissolve length =>
        if areaWith n x.windows ≤ Config.areaBudget then
          ⟨s.modWindow c n (dissolveWindow source length), some (.dissolve length), false, completed⟩
        else ⟨s.modWindow c n (cutWindow source), some .cut, true, completed⟩

/-- The windows of a screen's active context. -/
def State.activeWindows (s : State) (c : Fin 24) : List LiveWindow :=
  (s.screens[c].active.map (·.windows)).getD []

/-- R102: the number of the transition carried out. -/
def transitionNum : Option Transition → Nat
  | none => 2
  | some .cut => 0
  | some (.dissolve _) => 1

/-- R102: the length of a dissolve carried out. -/
def transitionLength : Option Transition → Option Nat
  | none => none
  | some .cut => none
  | some (.dissolve l) => some l

/-- R102: the result of a take (log 15). -/
def takeEffectBytes (c : Fin 24) (n : Nat) (e : TakeEffect) : List Byte :=
  let ws := e.state.activeWindows c
  byte1 c.val ++ byte1 n ++ byte1 (((ws.find? fun w => w.copy.number = n).map (·.current)).getD 0) ++
    byte1 (transitionNum e.transition) ++ present 1 ((transitionLength e.transition).map byte1) ++
    flag e.cutSubstituted ++ flag e.completed ++ byte2 (areaInUse ws)

/-- R97: the override of WINDOW TAKE's fields 3 to 5, or the layout's transition. -/
def transitionOf (f : List Nat) (w : LiveWindow) : Transition :=
  if fld f 3 = 1 then (if fld f 4 = 1 then .dissolve (fld f 5) else .cut) else w.copy.transition

/-- R96: WINDOW TAKE, as a request and as a cue entry. -/
def windowTakeFields (f : List Nat) (s : State) : State × Answer :=
  match firstBad 0 (windowTakeTests f) with
  | some i => (s, outOfRange i)
  | none =>
    let c := Fin.ofNat 24 (fld f 0)
    s.onWindow c (fld f 1) fun x w =>
      let e := takeWindow c x w (fld f 2) (transitionOf f w) s
      (e.state, .done (takeEffectBytes c (fld f 1) e))

/-- R96: WINDOW TAKE. -/
def windowTakeBody (_ : Fin 16) (ps : List Byte) (s : State) : Served :=
  let r := windowTakeFields (ps.map (·.toNat)) s
  ⟨r.1, r.2, id⟩

/-! ### Rotation (R105 to R109) -/

/-- R107: the indexes in the order in which they are tried. -/
def Rotation.tries (l : Rotation) : List Nat :=
  (List.range l.entries.length).map fun i => (l.position + 1 + i) % l.entries.length

/-- R107: the entry taken, with its index. -/
def rotateSearch (s : State) (l : Rotation) (current : Nat) : Option (Nat × Fin 16) :=
  l.tries.findSome? fun i => l.entries[i]?.bind fun feed =>
    if s.eligible feed ∧ feed.val ≠ current then some (i, feed) else none

/-- Write a rotation list. -/
def State.setRotation (k : Fin 8) (l : Rotation) (s : State) : State := { s with rotations := put s.rotations k l }

/-- R108: the result of ROTATE. For an exhausted search R108 names the exhausted flag, the transition NONE, the current
source and the position; that the other fields stand in their places too is the model's choice (log 15). -/
def rotateBytes (c : Fin 24) (n : Nat) (e : TakeEffect) (k : Fin 8) (position : Nat) (exhausted : Bool) : List Byte :=
  takeEffectBytes c n e ++ byte1 k.val ++ byte1 position ++ flag exhausted

/-- R107, R108: ROTATE with its fields, and whether the search was exhausted. An exhausted search is answered with the
whole result: NONE, both flags of R102 clear, the area in use, the list and its position (DESIGN CHOICE, log 15). -/
def rotateFields (f : List Nat) (s : State) : State × Answer × Bool :=
  match firstBad 0 (rotateTests f) with
  | some i => (s, outOfRange i, false)
  | none =>
    let c := Fin.ofNat 24 (fld f 0)
    let k : Fin 8 := Fin.ofNat 8 (fld f 2)
    let l := s.rotations[k]
    let exhausted := s.screens[c].state = .showing && match (s.activeWindows c).find? fun w => w.copy.number = fld f 1 with
      | none => false
      | some w => (rotateSearch s l w.current).isNone
    let r := s.onWindow c (fld f 1) fun x w =>
      match rotateSearch s l w.current with
      | none => (s, .done (rotateBytes c (fld f 1) ⟨s, none, false, false⟩ k l.position true))
      | some (i, feed) =>
        let e := takeWindow c x w feed.val w.copy.transition (s.setRotation k { l with position := i })
        (e.state, .done (rotateBytes c (fld f 1) e k i false))
    (r.1, r.2, exhausted)

/-- R107: ROTATE. -/
def rotateBody (_ : Fin 16) (ps : List Byte) (s : State) : Served :=
  let r := rotateFields (ps.map (·.toNat)) s
  ⟨r.1, r.2.1, id⟩

/-- R106: LOAD ROTATION's checks of ranges and repeated entries, which R105 also asks of a stored list. -/
def rotationBad (count : Nat) (entries : List Nat) : Option Nat :=
  match firstBad 1 (within 1 16 count :: entries.map (within 0 15)) with
  | some i => some i
  | none => firstRepeat 2 [] entries

/-- R106: LOAD ROTATION. -/
def loadRotationBody (_ : Fin 16) (ps : List Byte) (s : State) : Served :=
  let f := ps.map (·.toNat)
  if 7 < fld f 0 then unchanged s (outOfRange 0)
  else match rotationBad (fld f 1) (f.drop 2) with
    | some i => unchanged s (outOfRange i)
    | none =>
      if s.saving then unchanged s .busy
      else ⟨s.setRotation (Fin.ofNat 8 (fld f 0)) ⟨(f.drop 2).map (Fin.ofNat 16), 0⟩, .done [], id⟩

/-- R109: READ ROTATION. -/
def readRotationBody (_ : Fin 16) (ps : List Byte) (s : State) : Served :=
  let n := (byteAt ps 0).toNat
  if 7 < n then unchanged s (outOfRange 0)
  else
    let l := s.rotations[Fin.ofNat 8 n]
    unchanged s (.done (flag (!l.entries.isEmpty) ++ byte1 l.entries.length ++ (l.entries.flatMap fun e => byte1 e.val) ++
      byte1 l.position))

/-! ### The ramp (R103, R104, R109) -/

/-- The ramp that 16 fields spell. -/
def rampOf (f : List Nat) : Vector Nat 16 := Vector.ofFn fun i => fld f i.val

/-- R104: SET RAMP. -/
def setRampBody (_ : Fin 16) (ps : List Byte) (s : State) : Served :=
  let f := ps.map (·.toNat)
  match firstBad 0 (f.map (within 0 32)) with
  | some i => unchanged s (outOfRange i)
  | none => if s.saving then unchanged s .busy else ⟨{ s with ramp := rampOf f }, .done [], id⟩

/-- R109: the report of READ RAMP. -/
def rampReport (s : State) : List Byte := s.ramp.toList.flatMap byte1

/-- WINDOW_TAKE (R96). -/
def execWindowTake (s : State) : Host.Outcome State Fault Refusal := .next (s.serve 16 windowTakeBody)

/-- ROTATE (R107). -/
def execRotate (s : State) : Host.Outcome State Fault Refusal := .next (s.serve 17 rotateBody)

/-- SET_RAMP (R104). -/
def execSetRamp (s : State) : Host.Outcome State Fault Refusal := .next (s.serve 18 setRampBody)

/-- LOAD_ROTATION (R106). -/
def execLoadRotation (s : State) : Host.Outcome State Fault Refusal := .next (s.serve 19 loadRotationBody)

/-- READ_RAMP (R109). -/
def execReadRamp (s : State) : Host.Outcome State Fault Refusal := .next (s.serve 20 (readRequest rampReport))

/-- READ_ROTATION (R109). -/
def execReadRotation (s : State) : Host.Outcome State Fault Refusal := .next (s.serve 21 readRotationBody)

end Sys2Proof.Machine
end

