-- ==== Sys2Proof/Machine/Cues.lean ====
section
/-! DEFINITION. Cue lists and runners (08): the cue store, the execution of each kind of entry, the ends of waits, and
the runners' requests. -/

namespace Sys2Proof.Machine

/-! ### Execution (08 section 8.4) -/

namespace State

/-- The entry at a runner's position; past the store there is none, which reads as EMPTY (R139). -/
def entryAt (s : State) (r : Fin 4) : CueEntry :=
  if h : s.runners[r].position < Config.cueStoreEnd then s.cues[s.runners[r].position] else CueEntry.emptyEntry

/-- R139: the execution of an entry of the given kind by a RUNNING runner, after the three tests. Where the runner is
not RUNNING, or its entry is of another kind, the event does not arise (log 4). -/
def cueEvent (kind : CueKind) (run : CueEntry → State → State) (r : Fin 4) (s : State) : State :=
  let x := s.runners[r]
  let e := s.entryAt r
  if x.state = .running ∧ e.kind = kind then
    if Config.spinLimit ≤ x.spin then s.faultRunner r .spin (some 0)
    else if Config.cueStoreEnd ≤ x.position then s.faultRunner r .address (some 0)
    else if e.kind = .empty then s.faultRunner r .emptyEntry (some 0)
    else run e s
  else s

/-- R130: how a runner goes on after an entry that acts as a request. -/
def followRequest (r : Fin 4) (x : State × Answer) : State :=
  match x.2 with
  | .done _ => x.1.advanceRunner r
  | .refused code detail => x.1.faultRunner r code detail
  | .busy => x.1

/-- R130: an entry that acts as the request of its name. -/
def actAs (fields : List Nat → State → State × Answer) (r : Fin 4) (e : CueEntry) (s : State) : State :=
  followRequest r (fields e.operands s)

/-- R124, R131: a take entry. -/
def takeEntry (take : CueEntry → Take) (r : Fin 4) (e : CueEntry) (s : State) : State :=
  if s.engineBusy then s.enterWait r (.takeGrant (take e)) else (s.submitTake r (take e) false).offerEngine

/-- R130, R108: a ROTATE entry. -/
def rotateEntry (r : Fin 4) (e : CueEntry) (s : State) : State :=
  let x := rotateFields e.operands s
  if x.2.2 ∧ StopOption.ofNum e.op4 = .fault then s.faultRunner r .rotationExhausted (some e.op3)
  else followRequest r (x.1, x.2.1)

/-- R133: WAIT PICTURES. -/
def waitPicturesEntry (r : Fin 4) (e : CueEntry) (s : State) : State :=
  s.enterWait r (.pictures (cadenceOf e.op1) e.op2 false)

/-- R134: WAIT TIME. -/
def waitTimeEntry (r : Fin 4) (e : CueEntry) (s : State) : State :=
  if s.time.valid then s.enterWait r (.time e.op1) else s.faultRunner r .timeUnset (some 0)

/-- R135: WAIT QUALIFIED; the timer's length in milliseconds. -/
def waitQualifiedEntry (r : Fin 4) (e : CueEntry) (s : State) : State :=
  if s.sources[Fin.ofNat 16 e.op1].state = .qualified then s.advanceRunner r
  else s.enterWait r (.qualified (Fin.ofNat 16 e.op1) (StopOption.ofNum e.op3) (1000 * e.op2))

/-- R136, R137: a runner moved elsewhere, with the stack given. -/
def moveRunner (r : Fin 4) (address : Nat) (stack : List Nat) (s : State) : State :=
  s.setRunner r { s.runners[r] with position := address, stack := stack, spin := s.runners[r].spin + 1 }

/-- R136: JUMP. -/
def jumpEntry (r : Fin 4) (e : CueEntry) (s : State) : State := s.moveRunner r e.op1 s.runners[r].stack

/-- R136: CALL. -/
def callEntry (r : Fin 4) (e : CueEntry) (s : State) : State :=
  if Config.stackDepth ≤ s.runners[r].stack.length then s.faultRunner r .stackOverflow (some e.op1)
  else s.moveRunner r e.op1 (s.runners[r].stack ++ [s.runners[r].position + 1])

/-- R137: RETURN. -/
def returnFrom (r : Fin 4) (s : State) : State :=
  match s.runners[r].stack.getLast? with
  | none => s.faultRunner r .stackUnderflow (some 0)
  | some a => s.moveRunner r a s.runners[r].stack.dropLast

/-- R137: HALT. -/
def haltRunner (r : Fin 4) (s : State) : State := s.setRunner r { s.runners[r] with state := .idle, stack := [] }

/-! ### The ends of waits -/

/-- R133: the runner takes the tick that brought its count to 0 (log 7). -/
def countEnds (r : Fin 4) (s : State) : State :=
  match s.runners[r].state with
  | .waiting (.pictures _ _ true) => s.endWait r
  | _ => s

/-- R135: the timer expires first. -/
def timerExpires (r : Fin 4) (s : State) : State :=
  match s.runners[r].state with
  | .waiting (.qualified i .fault _) => s.faultRunner r .waitTimeout (some i.val)
  | .waiting (.qualified _ .continue _) => s.endWait r
  | _ => s

/-- R132: the runner acts on the result handed to it. -/
def resultTaken (r : Fin 4) (s : State) : State :=
  match s.runners[r].state with
  | .waiting (.takeDone n (some .aborted)) => s.faultRunner r .takeAborted (some n.toNat)
  | .waiting (.takeDone _ (some .complete)) => s.endWait r
  | .waiting (.takeDone _ (some .partialResult)) => s.endWait r
  | _ => s

/-- R128: entries written from an address on. -/
def writeCues : Nat → List CueEntry → State → State
  | _, [], s => s
  | a, e :: rest, s => writeCues (a + 1) rest { s with cues := put s.cues (Fin.ofNat 1024 a) e }

/-- R129: a run of entries. -/
def cueRun (s : State) (start count : Nat) : List CueEntry :=
  (List.range count).map fun i => s.cues[Fin.ofNat 1024 (start + i)]

/-- R144: STOP CUE's effect. -/
def stopRunner (r : Fin 4) (s : State) : State := s.setRunner r { s.runners[r] with state := .idle }

/-- R145: RESUME CUE's effect; the position past the store stays there (log 21). -/
def resumeRunner (r : Fin 4) (skip : Bool) (s : State) : State :=
  let x := s.runners[r]
  s.setRunner r { x with
    state := .running
    spin := 0
    position := if skip then min Config.cueStoreEnd (x.position + 1) else x.position }

end State

/-! ### Requests -/

/-- R128 step 1, R129: a run's start and count. -/
def runBad (start count : Nat) : Option Nat :=
  firstBad 0 [within 0 1023 start, within 1 64 count && decide (start + count ≤ 1024)]

/-- R128: LOAD CUES. -/
def loadCuesBody (_ : Fin 16) (ps : List Byte) (s : State) : Served :=
  let f := splitFields [2, 1] ps
  match runBad (fld f 0) (fld f 1) with
  | some i => unchanged s (outOfRange i)
  | none =>
    if s.saving then unchanged s .busy
    else
      let entries := cueFields (fld f 1) (ps.drop 3)
      match firstBad 2 (entries.flatMap entryTests) with
      | some i => unchanged s (outOfRange i)
      | none => ⟨s.writeCues (fld f 0) (entries.map entryOfFields), .done (byte2 (fld f 0) ++ byte1 (fld f 1)), id⟩

/-- R129: READ CUES. -/
def readCuesBody (_ : Fin 16) (ps : List Byte) (s : State) : Served :=
  let f := splitFields [2, 1] ps
  match runBad (fld f 0) (fld f 1) with
  | some i => unchanged s (outOfRange i)
  | none => unchanged s (.done (byte2 (fld f 0) ++ byte1 (fld f 1) ++ (s.cueRun (fld f 0) (fld f 1)).flatMap CueEntry.bytes))

/-- R143: START CUE. R143 gives the address its range and states no refusal; an address outside it is refused at its
index (DEDUCED, log 22). -/
def startCueBody (_ : Fin 16) (ps : List Byte) (s : State) : Served :=
  let f := splitFields [1, 2] ps
  match firstBad 0 [within 0 3 (fld f 0), within 0 1023 (fld f 1)] with
  | some i => unchanged s (outOfRange i)
  | none =>
    let r := Fin.ofNat 4 (fld f 0)
    if s.canStart r then ⟨s.startRunner r (fld f 1) .request, .done [], id⟩
    else unchanged s (.refused .runnerActive none)

/-- R144: STOP CUE. -/
def stopCueBody (_ : Fin 16) (ps : List Byte) (s : State) : Served :=
  let n := (byteAt ps 0).toNat
  if 3 < n then unchanged s (outOfRange 0) else ⟨s.stopRunner (Fin.ofNat 4 n), .done [], id⟩

/-- R145: RESUME CUE. R145 names two options and states no refusal; another option is refused at its index, before the
runner's state is tested (DEDUCED, log 22). -/
def resumeCueBody (_ : Fin 16) (ps : List Byte) (s : State) : Served :=
  let f := splitFields [1, 1] ps
  match firstBad 0 [within 0 3 (fld f 0), within 0 1 (fld f 1)] with
  | some i => unchanged s (outOfRange i)
  | none =>
    let r := Fin.ofNat 4 (fld f 0)
    if s.runners[r].state = .faulted then ⟨s.resumeRunner r (fld f 1 = 1), .done [], id⟩
    else unchanged s (.refused .runnerNotFaulted none)

/-- R146: a wait in a result; `left` is the time left on a WAIT QUALIFIED timer. -/
def Wait.bytes (left : Nat) : Wait → List Byte
  | .pictures k n _ => byte1 (cadenceNum k) ++ byte2 n
  | .time t => byte4 t
  | .qualified i o _ => byte1 i.val ++ byte1 o.num ++ byte4 left
  | .takeGrant t => byte1 t.kindNum
  | .takeDone n result => byte2 n.toNat ++ present 1 (result.map fun x => byte1 x.num)

/-- The wait of a runner's state, absent except in WAITING (08 section 8.3). -/
def RunnerState.wait : RunnerState → Option Wait
  | .waiting w => some w
  | .idle => none
  | .running => none
  | .faulted => none

/-- R146: a fault record in a result: class, code, address, detail, seconds of day. -/
def FaultRecord.bytes (x : FaultRecord) : List Byte :=
  byte1 x.kind.number.1 ++ byte1 x.kind.number.2 ++ byte2 x.address ++ byte2 x.detail ++ byte4 x.seconds

/-- R146: a runner record in a result (log 15). -/
def Runner.bytes (left : Nat) (x : Runner) : List Byte :=
  byte1 x.state.num ++ byte2 x.position ++ byte1 x.stack.length ++ x.stack.flatMap byte2 ++
    presentRecord (x.state.wait.map (Wait.bytes left)) ++ byte1 x.spin ++ present 1 (x.cause.map fun c => byte1 c.num) ++
    present 10 (x.faultRecord.map (·.bytes))

/-- R146, log 9: the time left on a runner's WAIT QUALIFIED timer is a free value within the timer's length. -/
def State.timeLeft (s : State) (r : Fin 4) : Nat :=
  match s.runners[r].state with
  | .waiting (.qualified _ _ length) => length - Config.freeElapsed s.freeCount
  | _ => 0

/-- R146: READ RUNNER. 08 section 8.5 states the refusal of a runner number for the three runner requests that modify
the part; the model refuses it here alike (DEDUCED, log 22). -/
def readRunnerBody (_ : Fin 16) (ps : List Byte) (s : State) : Served :=
  let n := (byteAt ps 0).toNat
  if 3 < n then unchanged s (outOfRange 0)
  else
    let r := Fin.ofNat 4 n
    ⟨{ s with freeCount := s.freeCount + 1 }, .done (s.runners[r].bytes (s.timeLeft r)), id⟩

/-! ### Commands -/

/-- LOAD_CUES (R128). -/
def execLoadCues (s : State) : Host.Outcome State Fault Refusal := .next (s.serve 30 loadCuesBody)

/-- START_CUE (R143). -/
def execStartCue (s : State) : Host.Outcome State Fault Refusal := .next (s.serve 31 startCueBody)

/-- STOP_CUE (R144). -/
def execStopCue (s : State) : Host.Outcome State Fault Refusal := .next (s.serve 32 stopCueBody)

/-- RESUME_CUE (R145). -/
def execResumeCue (s : State) : Host.Outcome State Fault Refusal := .next (s.serve 33 resumeCueBody)

/-- READ_CUES (R129). -/
def execReadCues (s : State) : Host.Outcome State Fault Refusal := .next (s.serve 34 readCuesBody)

/-- READ_RUNNER (R146). -/
def execReadRunner (s : State) : Host.Outcome State Fault Refusal := .next (s.serve 35 readRunnerBody)

/-- CUE_TAKE_SCENE (R131). -/
def execCueTakeScene (runner : Fin 4) (s : State) : Host.Outcome State Fault Refusal :=
  .next (s.cueEvent .takeScene (State.takeEntry (fun e => .scene (Fin.ofNat 32 e.op1) (e.op2 = 1)) runner) runner)

/-- CUE_TAKE_LAYOUT (R131). -/
def execCueTakeLayout (runner : Fin 4) (s : State) : Host.Outcome State Fault Refusal :=
  .next (s.cueEvent .takeLayout
    (State.takeEntry (fun e => .layout (Fin.ofNat 24 e.op1) (Fin.ofNat 128 e.op2) (e.op3 = 1)) runner) runner)

/-- CUE_REVERT (R131). -/
def execCueRevert (runner : Fin 4) (s : State) : Host.Outcome State Fault Refusal :=
  .next (s.cueEvent .revert (State.takeEntry (fun e => .revert (Fin.ofNat 24 e.op1) (e.op2 = 1)) runner) runner)

/-- CUE_WINDOW_TAKE (R130). -/
def execCueWindowTake (runner : Fin 4) (s : State) : Host.Outcome State Fault Refusal :=
  .next (s.cueEvent .windowTake (State.actAs windowTakeFields runner) runner)

/-- CUE_FREEZE (R130). -/
def execCueFreeze (runner : Fin 4) (s : State) : Host.Outcome State Fault Refusal :=
  .next (s.cueEvent .freeze (State.actAs freezeFields runner) runner)

/-- CUE_SET_PULSE (R130). -/
def execCueSetPulse (runner : Fin 4) (s : State) : Host.Outcome State Fault Refusal :=
  .next (s.cueEvent .setPulse (State.actAs setPulseFields runner) runner)

/-- CUE_CAPTURE (R130). -/
def execCueCapture (runner : Fin 4) (s : State) : Host.Outcome State Fault Refusal :=
  .next (s.cueEvent .capture (State.actAs captureFields runner) runner)

/-- CUE_RELEASE_STILL (R130). -/
def execCueReleaseStill (runner : Fin 4) (s : State) : Host.Outcome State Fault Refusal :=
  .next (s.cueEvent .releaseStill (State.actAs releaseStillFields runner) runner)

/-- CUE_ROTATE (R108). -/
def execCueRotate (runner : Fin 4) (s : State) : Host.Outcome State Fault Refusal :=
  .next (s.cueEvent .rotate (State.rotateEntry runner) runner)

/-- CUE_REQUALIFY (R130). -/
def execCueRequalify (runner : Fin 4) (s : State) : Host.Outcome State Fault Refusal :=
  .next (s.cueEvent .requalify (State.actAs requalifyFields runner) runner)

/-- WAIT_PICTURES (R133). -/
def execWaitPictures (runner : Fin 4) (s : State) : Host.Outcome State Fault Refusal :=
  .next (s.cueEvent .waitPictures (State.waitPicturesEntry runner) runner)

/-- WAIT_TIME (R134). -/
def execWaitTime (runner : Fin 4) (s : State) : Host.Outcome State Fault Refusal :=
  .next (s.cueEvent .waitTime (State.waitTimeEntry runner) runner)

/-- WAIT_QUALIFIED (R135). -/
def execWaitQualified (runner : Fin 4) (s : State) : Host.Outcome State Fault Refusal :=
  .next (s.cueEvent .waitQualified (State.waitQualifiedEntry runner) runner)

/-- JUMP (R136). -/
def execJump (runner : Fin 4) (s : State) : Host.Outcome State Fault Refusal :=
  .next (s.cueEvent .jump (State.jumpEntry runner) runner)

/-- CALL (R136). -/
def execCall (runner : Fin 4) (s : State) : Host.Outcome State Fault Refusal :=
  .next (s.cueEvent .call (State.callEntry runner) runner)

/-- RETURN (R137). -/
def execReturnEntry (runner : Fin 4) (s : State) : Host.Outcome State Fault Refusal :=
  .next (s.cueEvent .ret (fun _ s => s.returnFrom runner) runner)

/-- HALT (R137). -/
def execHaltEntry (runner : Fin 4) (s : State) : Host.Outcome State Fault Refusal :=
  .next (s.cueEvent .halt (fun _ s => s.haltRunner runner) runner)

/-- EMPTY_ENTRY (R139): the entry is EMPTY, or the position is past the store. -/
def execEmptyEntry (runner : Fin 4) (s : State) : Host.Outcome State Fault Refusal :=
  .next (s.cueEvent .empty (fun _ s => s) runner)

/-- WAIT_PICTURES_COUNT_END (R133). -/
def execWaitPicturesCountEnd (runner : Fin 4) (s : State) : Host.Outcome State Fault Refusal := .next (s.countEnds runner)

/-- WAIT_QUALIFIED_TIMER_EXPIRY (R135). -/
def execWaitQualifiedTimerExpiry (runner : Fin 4) (s : State) : Host.Outcome State Fault Refusal :=
  .next (s.timerExpires runner)

/-- TAKE_RESULT_TAKEN (R132). -/
def execTakeResultTaken (runner : Fin 4) (s : State) : Host.Outcome State Fault Refusal := .next (s.resultTaken runner)

end Sys2Proof.Machine
end

