-- ==== Sys2Proof/Machine/Layouts.lean ====
section
/-! DEFINITION. The layout library's requests (04): LOAD LAYOUT, ERASE LAYOUT and READ LAYOUT. -/

namespace Sys2Proof.Machine

/-- R66: a PENDING member of a SCENE or LAYOUT job whose load has not completed and which names the entry. -/
def Member.holdsEntry (e : Fin 128) (m : Member) : Bool :=
  m.outcome = .pending && m.layout = some e && m.load.any (· ≠ .completed)

namespace State

/-- R66: an edit of an entry is answered BUSY. -/
def entryBusy (s : State) (e : Fin 128) : Bool :=
  s.saving || s.job.any fun j => j.phase = .loading && j.members.any (Member.holdsEntry e)

/-- Write a library entry. -/
def setEntry (e : Fin 128) (l : Option Layout) (s : State) : State := { s with library := put s.library e l }

end State

/-- R60 to R65: LOAD LAYOUT. -/
def loadLayoutBody (_ : Fin 16) (ps : List Byte) (s : State) : Served :=
  let n := (byteAt ps 0).toNat
  if 127 < n then unchanged s (outOfRange 0)
  else
    let e := Fin.ofNat 128 n
    if s.entryBusy e then unchanged s .busy
    else match recordBad (ps.drop 1) with
      | some (code, detail) => unchanged s (.refused code (some detail))
      | none =>
        let l := layoutOf (ps.drop 1)
        ⟨s.setEntry e (some l), .done (byte1 n ++ byte2 l.check ++ flag s.library[e].isSome), id⟩

/-- R67: ERASE LAYOUT. -/
def eraseLayoutBody (_ : Fin 16) (ps : List Byte) (s : State) : Served :=
  let n := (byteAt ps 0).toNat
  if 127 < n then unchanged s (outOfRange 0)
  else
    let e := Fin.ofNat 128 n
    if s.entryBusy e then unchanged s .busy
    else ⟨s.setEntry e none, .done (byte1 n ++ flag s.library[e].isSome), id⟩

/-- R68: READ LAYOUT. -/
def readLayoutBody (_ : Fin 16) (ps : List Byte) (s : State) : Served :=
  let n := (byteAt ps 0).toNat
  if 127 < n then unchanged s (outOfRange 0)
  else unchanged s (.done (byte1 n ++ presentRecord (s.library[Fin.ofNat 128 n].map (·.bytes))))

/-- LOAD_LAYOUT (R60). -/
def execLoadLayout (s : State) : Host.Outcome State Fault Refusal := .next (s.serve 7 loadLayoutBody)

/-- ERASE_LAYOUT (R67). -/
def execEraseLayout (s : State) : Host.Outcome State Fault Refusal := .next (s.serve 8 eraseLayoutBody)

/-- READ_LAYOUT (R68). -/
def execReadLayout (s : State) : Host.Outcome State Fault Refusal := .next (s.serve 9 readLayoutBody)

end Sys2Proof.Machine
end

