-- ==== Sys2Proof/Machine/Ports.lean ====
section
/-! DEFINITION. Feed ports (01): link sync, the sorting of cells, the band assembler. -/

namespace Sys2Proof.Machine

namespace State

/-- R7: the assembler enters DISCARDING, the band being discarded. -/
def discardFrom (p : Fin 16) (s : State) : State :=
  (s.modCounters p fun c => { c with discarded := c.discarded + 1 }).modPort p fun x => { x with assembly := .discarding }

/-- A picture that can not go on, counted as a gap picture (R7, R9). -/
def gapPicture (p : Fin 16) (s : State) : State :=
  ((s.discardFrom p).modCounters p fun c => { c with gaps := c.gaps + 1 }).reportErrored p 0

/-- R6, R10: a band is written as received; a failed check is counted. -/
def writeChecked (p : Fin 16) (k : Fin 64) (b : BandCell) (fails : Bool) (s : State) : State :=
  let s := s.writeBand k b.payload
  if fails then s.modCounters p fun c => { c with checkFailed := c.checkFailed + 1 } else s

/-- R7: a first band taken while the assembler is IDLE or DISCARDING. -/
def firstBand (p : Fin 16) (b : BandCell) (format : Format) (s : State) : State :=
  if !format.usable || b.last then s.gapPicture p
  else
    match s.grant p b.number format with
    | (none, s) => (s.discardFrom p).reportStarved p
    | (some k, s) =>
      let fails := bandFails b format.width
      (s.writeChecked p k b fails).modPort p fun x => { x with assembly := .assembling k b.number format 1 fails }

/-- R12: the skipped number at the completion of a picture. -/
def skippedNumber (reference : Option Byte) (number : Byte) : Nat :=
  match reference with
  | none => 0
  | some r => (number - r).toNat - 1

/-- R11, R12: a picture is complete. -/
def completePicture (p : Fin 16) (k : Fin 64) (number : Byte) (format : Format) (errored : Bool) (s : State) : State :=
  let skipped := skippedNumber s.ports[p].reference number
  let s := s.modPort p fun x => { x with assembly := .idle, reference := some number }
  if errored then (s.abandon k).reportErrored p skipped else (s.publish p k).reportClean p format skipped

/-- R9, R10, R11: a later band taken while ASSEMBLING. -/
def laterBand (p : Fin 16) (b : BandCell) (k : Fin 64) (number : Byte) (format : Format) (expected : Nat)
    (errored : Bool) (s : State) : State :=
  if b.first || b.index ≠ expected || b.last ≠ (b.index + 1 = format.height) then (s.abandon k).gapPicture p
  else
    let fails := bandFails b format.width
    let s := s.writeChecked p k b fails
    if b.last then s.completePicture p k number format (errored || fails)
    else s.modPort p fun x => { x with assembly := .assembling k number format (expected + 1) (errored || fails) }

/-- R5: the source states in which pictures are assembled. -/
def assembles (s : State) (p : Fin 16) : Bool :=
  !s.loading && s.sources[p].state ≠ .disabled && s.sources[p].state ≠ .down

/-- R5, R7 to R13: a band cell handed to the assembler. -/
def assemble (p : Fin 16) (b : BandCell) (s : State) : State :=
  if !s.assembles p then s.modCounters p fun c => { c with discarded := c.discarded + 1 }
  else
    match (if b.index = 0 then b.format else none) with
    | some format =>
      match s.ports[p].assembly with
      | .assembling k _ _ _ _ =>
        (((s.abandon k).modCounters p fun c => { c with truncated := c.truncated + 1 }).reportErrored p 0).firstBand p b
          format
      | .idle => s.firstBand p b format
      | .discarding => s.firstBand p b format
    | none =>
      match s.ports[p].assembly with
      | .assembling k number format expected errored => s.laterBand p b k number format expected errored
      | .idle => s.modCounters p fun c => { c with discarded := c.discarded + 1 }
      | .discarding => s.modCounters p fun c => { c with discarded := c.discarded + 1 }

/-- R4: a well-formed cell that arrives IN SYNC is sorted. -/
def sortCell (p : Fin 16) (c : Cell) (s : State) : State :=
  match c with
  | .malformed => s
  | .idle => s
  | .control r => s.requestArrives p r
  | .band b => (s.modCounters p fun c => { c with received := c.received + 1 }).assemble p b

/-- R3, R14: the link goes OUT OF SYNC. -/
def loseSync (p : Fin 16) (s : State) : State :=
  ((s.modPort p fun x => { x with link := .outOfSync, goodRun := 0, badRun := 0 }).dropAssembly p).syncLost p

/-- R2: the link becomes IN SYNC. -/
def gainSync (p : Fin 16) (s : State) : State :=
  (s.modPort p fun x => { x with link := .inSync, goodRun := 0, badRun := 0 }).syncGained p

/-- R1, R2, R3: a malformed cell. -/
def malformedArrives (p : Fin 16) (s : State) : State :=
  let s := s.modCounters p fun c => { c with malformed := c.malformed + 1 }
  match s.ports[p].link with
  | .outOfSync => s.modPort p fun x => { x with goodRun := 0 }
  | .inSync =>
    let s := s.modPort p fun x => { x with badRun := x.badRun + 1 }
    if 4 ≤ s.ports[p].badRun then s.loseSync p else s

/-- R2, R3: a well-formed cell; the cell that completes the good run is itself discarded. -/
def wellFormedArrives (p : Fin 16) (c : Cell) (s : State) : State :=
  match s.ports[p].link with
  | .outOfSync =>
    let s := s.modPort p fun x => { x with goodRun := x.goodRun + 1 }
    if 8 ≤ s.ports[p].goodRun then s.gainSync p else s
  | .inSync => (s.modPort p fun x => { x with badRun := 0 }).sortCell p c

/-- R1 to R4: a cell arrives. The silence timer restarts (R2); the cell's bytes say what it is (log 2). -/
def cellArrives (p : Fin 16) (cell : List Byte) (s : State) : State :=
  let s := s.modPort p fun x => { x with silence := true }
  match classify cell with
  | .malformed => s.malformedArrives p
  | .idle => s.wellFormedArrives p .idle
  | .control r => s.wellFormedArrives p (.control r)
  | .band b => s.wellFormedArrives p (.band b)

/-- R2, R3: the silence timer expires, and restarts. A timer that is stopped does not expire (R17, log 4). -/
def silenceExpires (p : Fin 16) (s : State) : State :=
  if !s.ports[p].silence then s
  else
    match s.ports[p].link with
    | .outOfSync => s.modPort p fun x => { x with goodRun := 0 }
    | .inSync => s.loseSync p

end State

/-- BAND_CELL (R4). -/
def execBandCell (port : Fin 16) (cell : List Byte) (s : State) : Host.Outcome State Fault Refusal :=
  .next (s.cellArrives port cell)

/-- CONTROL_CELL (R157). -/
def execControlCell (port : Fin 16) (cell : List Byte) (s : State) : Host.Outcome State Fault Refusal :=
  .next (s.cellArrives port cell)

/-- CONTROL_CELL_OUT_OF_SYNC (R2). -/
def execControlCellOutOfSync (port : Fin 16) (cell : List Byte) (s : State) : Host.Outcome State Fault Refusal :=
  .next (s.cellArrives port cell)

/-- IDLE_CELL (R2). -/
def execIdleCell (port : Fin 16) (cell : List Byte) (s : State) : Host.Outcome State Fault Refusal :=
  .next (s.cellArrives port cell)

/-- MALFORMED_CELL (R1). -/
def execMalformedCell (port : Fin 16) (cell : List Byte) (s : State) : Host.Outcome State Fault Refusal :=
  .next (s.cellArrives port cell)

/-- SILENCE_TIMER_EXPIRY (R3). -/
def execSilenceTimerExpiry (port : Fin 16) (s : State) : Host.Outcome State Fault Refusal :=
  .next (s.silenceExpires port)

end Sys2Proof.Machine
end

