-- ==== Sys2Proof/Machine/Management.lean ====
section
/-! DEFINITION. The request unit's own requests (10): grants, STATUS, FETCH CONDITION, RESTART, unknown codes. -/

namespace Sys2Proof.Machine

namespace State

/-- R166: the named port is the only one holding FULL. -/
def onlyFull (s : State) (p : Fin 16) : Bool :=
  (List.finRange 16).all fun q => (s.ports[q].grant = .full) == decide (q = p)

/-- R163: the record is emptied and the attention mark cleared. -/
def clearCondition (p : Fin 16) (s : State) : State := s.modPort p fun x => { x with condition := none, attention := false }

/-- R170: a port's change marks are cleared. -/
def clearMarks (p : Fin 16) (s : State) : State := s.modPort p fun x => { x with marks := .clear }

/-- R164: the attention condition on every port. -/
def raiseAttention (code : Code) (detail : Nat) (s : State) : State :=
  s.modPorts fun x => { x with attention := true, condition := some ⟨code, detail, 0⟩ }

end State

/-- The sixteen grants in a result. -/
def grantBytes (s : State) : List Byte := s.ports.toList.flatMap fun p => byte1 p.grant.num

/-- R166: SET GRANT. -/
def setGrantBody (_ : Fin 16) (ps : List Byte) (s : State) : Served :=
  let f := splitFields [1, 1] ps
  match firstBad 0 [within 0 15 (fld f 0), within 0 2 (fld f 1)] with
  | some i => unchanged s (outOfRange i)
  | none =>
    let q := Fin.ofNat 16 (fld f 0)
    let g := Grant.ofNum (fld f 1)
    if s.saving then unchanged s .busy
    else if g ≠ .full ∧ s.onlyFull q then unchanged s (.refused .lastFullGrant (some 0))
    else
      let t := s.modPort q fun x => { x with grant := g }
      ⟨t, .done (grantBytes t), id⟩

/-- R163: the result of FETCH CONDITION (log 15). -/
def conditionBytes (c : Option Condition) : List Byte :=
  match c with
  | none => flag true ++ [0, 0, 0, 0, 0]
  | some x => flag false ++ byte1 x.code.number.1 ++ byte1 x.code.number.2 ++ byte2 x.detail ++ [x.tag]

/-- R163: FETCH CONDITION. -/
def fetchConditionBody (p : Fin 16) (_ : List Byte) (s : State) : Served :=
  ⟨s, .done (conditionBytes s.ports[p].condition), fun t => t.clearCondition p⟩

/-- The change marks in a result (R169). -/
def ChangeMarks.bytes (m : ChangeMarks) : List Byte :=
  m.sources.toList.flatMap flag ++ m.screens.toList.flatMap flag ++ m.runners.toList.flatMap flag ++ flag m.take

/-- R170: the report of STATUS on a port. -/
def statusReport (p : Fin 16) (s : State) : List Byte :=
  byte1 s.wallFault ++ (s.sources.toList.flatMap fun x => byte1 x.state.num) ++
    (s.screens.toList.flatMap fun x => byte1 x.state.num ++ byte1 x.standby.num) ++
    flag s.engineBusy ++ present 1 (s.currentJob.map fun j => byte1 j.phase.num) ++
    present 2 (s.currentJob.map fun j => byte2 j.serial.toNat) ++
    (s.runners.toList.flatMap fun x => byte1 x.state.num) ++ byte1 s.freeSlots ++ flag s.starving ++
    byte4 s.time.seconds ++ byte1 s.time.weekday ++ flag s.time.valid ++ byte1 s.store.state.num ++
    byte1 s.store.outcome.num ++ s.ports[p].marks.bytes

/-- R170: STATUS. -/
def statusBody (p : Fin 16) (_ : List Byte) (s : State) : Served :=
  ⟨s, .done (statusReport p s), fun t => t.clearMarks p⟩

/-! ### RESTART (R167) -/

/-- R17, R158, R169: a port at RESTART. -/
def Port.restart (x : Port) : Port :=
  { x with assembly := .idle, reference := none, counters := ⟨0, 0, 0, 0, 0, 0⟩, queue := [], marks := .all }

/-- R35: a source at RESTART, by its link. -/
def Source.restart (link : LinkState) (x : Source) : Source where
  state := if x.state = .disabled then .disabled else if link = .inSync then .acquiring else .down
  params := x.params
  seen := 0
  cleanRun := 0
  missRun := 0
  stale := none
  format := none
  completed := 0
  errored := 0
  starved := 0
  skipped := 0
  toQualify := 0

/-- R95: a screen at RESTART, after the abort of the take job. -/
def Screen.restart (x : Screen) : Screen := { x with active := x.active.map (Context.mapWindows darkenWindow) }

namespace State

/-- R174: a save in flight is abandoned. -/
def abandonSave (s : State) : State :=
  if s.saving then
    let t := s.loseImageArea true
    { t with store := { t.store with state := .idle, outcome := .abandoned } }
  else s

/-- R167: every block's RESTART rule, for a RESTART that arrived on the given port. -/
def restartBlocks (p : Fin 16) (s : State) : State :=
  let t := s.abortJob
  let t := { t with
    ports := mapTable Port.restart t.ports
    sources := Vector.ofFn fun i => t.sources[i].restart t.ports[i].link
    slots := Vector.replicate 64 Slot.empty
    stills := Vector.replicate 4 none
    screens := mapTable Screen.restart t.screens
    runners := Vector.replicate 4 Runner.powerOn
    served := 15 }
  (t.abandonSave).raiseAttention .restarted p.val

/-- R159, R160: a request whose code names none is served. Where the request to be served next is another, the event
does not arise (log 3, log 4). -/
def serveUnknown (s : State) : State :=
  match s.nextRequest with
  | none => s
  | some (p, r) =>
    if knownCode r.code.toNat then s
    else (s.beginService p).serveRequest (fun _ _ t => unchanged t (.refused .unknownRequest (some 0))) p r

end State

/-- R167: RESTART; the reply is sent first. -/
def restartBody (p : Fin 16) (_ : List Byte) (s : State) : Served := ⟨s, .done [], fun t => t.restartBlocks p⟩

/-- SET_GRANT (R166). -/
def execSetGrant (s : State) : Host.Outcome State Fault Refusal := .next (s.serve 40 setGrantBody)

/-- READ_GRANTS (R166). -/
def execReadGrants (s : State) : Host.Outcome State Fault Refusal := .next (s.serve 41 (readRequest grantBytes))

/-- STATUS (R170). -/
def execStatus (s : State) : Host.Outcome State Fault Refusal := .next (s.serve 42 statusBody)

/-- FETCH_CONDITION (R163). -/
def execFetchCondition (s : State) : Host.Outcome State Fault Refusal := .next (s.serve 43 fetchConditionBody)

/-- RESTART (R167). -/
def execRestart (s : State) : Host.Outcome State Fault Refusal := .next (s.serve 44 restartBody)

/-- UNKNOWN_REQUEST (R160). -/
def execUnknownRequest (s : State) : Host.Outcome State Fault Refusal := .next s.serveUnknown

end Sys2Proof.Machine
end

