-- ==== Sys2Proof/Machine/Schedule.lean ====
section
/-! DEFINITION. Time base, alarms and source triggers (09): the second tick and the schedule's requests. -/

namespace Sys2Proof.Machine

/-- R148: the time base one second on. -/
def TimeBase.advance (t : TimeBase) : TimeBase :=
  if 86399 ≤ t.seconds then { t with seconds := 0, weekday := if 6 ≤ t.weekday then 0 else t.weekday + 1 }
  else { t with seconds := t.seconds + 1 }

/-- R151: an alarm acts at the second the time base holds. -/
def Alarm.matches (a : Alarm) (t : TimeBase) : Bool :=
  a.enabled && a.seconds = t.seconds && a.weekdays.getLsbD t.weekday

namespace State

/-- R151: one alarm meets a second tick. -/
def alarmMeets (s : State) (n : Fin 16) : State :=
  let a := s.alarms[n]
  if a.matches s.time then
    if s.canStart a.runner then
      (s.startRunner a.runner a.address (.alarm n)).modAlarm n fun a =>
        { a with outcome := .started, lastActed := some s.time.seconds }
    else s.modAlarm n fun a => { a with outcome := .runnerActive, lastActed := some s.time.seconds }
  else s

/-- R151: the alarms in ascending order, while the time base is valid. -/
def matchAlarms (s : State) : State := if s.time.valid then (List.finRange 16).foldl alarmMeets s else s

/-- R134: one runner in WAITING(TIME) compares the new seconds of day with its target. -/
def timeMeets (s : State) (r : Fin 4) : State :=
  match s.runners[r].state with
  | .waiting (.time target) => if target = s.time.seconds then s.endWait r else s
  | _ => s

/-- R49: drops this second become drops last second. -/
def moveDrops (s : State) : State :=
  { s with starvation := { s.starvation with lastSecond := s.starvation.thisSecond, thisSecond := 0 } }

/-- R148: a second tick. -/
def secondTick (s : State) : State :=
  let t := { s with time := s.time.advance }.moveDrops
  ((List.finRange 4).foldl timeMeets t).matchAlarms

end State

/-- R149: SET TIME. -/
def setTimeBody (_ : Fin 16) (ps : List Byte) (s : State) : Served :=
  let f := splitFields [4, 1] ps
  match firstBad 0 [within 0 86399 (fld f 0), within 0 6 (fld f 1)] with
  | some i => unchanged s (outOfRange i)
  | none =>
    ⟨{ s with time := ⟨fld f 0, fld f 1, true⟩ }, .done (byte4 (fld f 0) ++ byte1 (fld f 1) ++ flag s.time.valid), id⟩

/-- The widths of SET ALARM's fields. -/
def alarmWidths : List Nat := [1, 1, 4, 1, 1, 2]

/-- The widths of SET TRIGGER's fields. -/
def triggerWidths : List Nat := [1, 1, 1, 1, 1, 2, 1]

/-- The alarm that SET ALARM's fields give, its outcome cleared (R152). -/
def alarmOf (f : List Nat) : Alarm :=
  ⟨fld f 1 = 1, fld f 2, BitVec.ofNat 7 (fld f 3), Fin.ofNat 4 (fld f 4), fld f 5, .none, none⟩

/-- The trigger that SET TRIGGER's fields give, its outcome cleared (R154). -/
def triggerOf (f : List Nat) : Trigger :=
  ⟨fld f 1 = 1, Fin.ofNat 16 (fld f 2), .ofNum (fld f 3), Fin.ofNat 4 (fld f 4), fld f 5, fld f 6 = 1, .none, none⟩

/-- R152 steps 1 and 2. -/
def alarmBad (f : List Nat) : Option Nat :=
  match firstBad 0 (alarmTests f) with
  | some i => some i
  | none => if fld f 1 = 1 ∧ fld f 3 = 0 then some 3 else none

/-- R152: SET ALARM. -/
def setAlarmBody (_ : Fin 16) (ps : List Byte) (s : State) : Served :=
  let f := splitFields alarmWidths ps
  match alarmBad f with
  | some i => unchanged s (outOfRange i)
  | none =>
    if s.saving then unchanged s .busy
    else
      let n := Fin.ofNat 16 (fld f 0)
      ⟨s.modAlarm n fun _ => alarmOf f, .done (byte1 n.val ++ byte1 s.alarms[n].outcome.num), id⟩

/-- R154: SET TRIGGER. -/
def setTriggerBody (_ : Fin 16) (ps : List Byte) (s : State) : Served :=
  let f := splitFields triggerWidths ps
  match firstBad 0 (triggerTests f) with
  | some i => unchanged s (outOfRange i)
  | none =>
    if s.saving then unchanged s .busy
    else
      let n := Fin.ofNat 16 (fld f 0)
      ⟨s.modTrigger n fun _ => triggerOf f, .done (byte1 n.val ++ byte1 s.triggers[n].outcome.num), id⟩

/-- The first five fields of an alarm (12 section 12.4). -/
def Alarm.settingBytes (a : Alarm) : List Byte :=
  flag a.enabled ++ byte4 a.seconds ++ byte1 a.weekdays.toNat ++ byte1 a.runner.val ++ byte2 a.address

/-- The first seven fields of a trigger (12 section 12.4). -/
def Trigger.settingBytes (g : Trigger) : List Byte :=
  flag g.enabled ++ byte1 g.source.val ++ byte1 g.event.num ++ byte1 g.runner.val ++ byte2 g.address ++ flag g.once

/-- A last outcome and last acted in a result (R155). -/
def outcomeBytes (o : ActOutcome) (acted : Option Nat) : List Byte := byte1 o.num ++ present 4 (acted.map byte4)

/-- R155: the report of READ SCHEDULE. -/
def scheduleReport (s : State) : List Byte :=
  byte4 s.time.seconds ++ byte1 s.time.weekday ++ flag s.time.valid ++
    (s.alarms.toList.flatMap fun a => a.settingBytes ++ outcomeBytes a.outcome a.lastActed) ++
    s.triggers.toList.flatMap fun g => g.settingBytes ++ outcomeBytes g.outcome g.lastActed

/-- SECOND_TICK (R148). -/
def execSecondTick (s : State) : Host.Outcome State Fault Refusal := .next s.secondTick

/-- SET_TIME (R149). -/
def execSetTime (s : State) : Host.Outcome State Fault Refusal := .next (s.serve 36 setTimeBody)

/-- SET_ALARM (R152). -/
def execSetAlarm (s : State) : Host.Outcome State Fault Refusal := .next (s.serve 37 setAlarmBody)

/-- SET_TRIGGER (R154). -/
def execSetTrigger (s : State) : Host.Outcome State Fault Refusal := .next (s.serve 38 setTriggerBody)

/-- READ_SCHEDULE (R155). -/
def execReadSchedule (s : State) : Host.Outcome State Fault Refusal := .next (s.serve 39 (readRequest scheduleReport))

end Sys2Proof.Machine
end

