-- ==== Sys2Proof/Machine/Store.lean ====
section
/-! DEFINITION. Stored tables and start-up (11, 12 section 12.5): the image, the save, power-on and the end of start-up. -/

namespace Sys2Proof.Machine

/-! ### Writing the image (R172, 12 section 12.5) -/

/-- A section: number, reserved byte, body length, body. That the part writes the reserved byte as 0 is the model's choice
(DESIGN CHOICE, log 27). -/
def sectionBytes (number : Nat) (body : List Byte) : List Byte := byte1 number ++ [0] ++ byte4 body.length ++ body

/-- Section 1: an entry's record with its size. -/
def entryImage (l : Option Layout) : List Byte :=
  match l with
  | none => byte2 0
  | some x => byte2 x.imageBytes.length ++ x.imageBytes

/-- Section 2: a scene record; a count of 0 stands for an empty entry. -/
def sceneImage (x : Option Scene) : List Byte := (x.map sceneBytes).getD [0]

/-- Section 3: a list's count and 16 entry bytes. -/
def Rotation.image (l : Rotation) : List Byte :=
  byte1 l.entries.length ++ (List.range 16).flatMap fun i => byte1 ((l.entries[i]?.map (·.val)).getD 0)

/-- The ten section bodies, in order. -/
def sectionBodies (s : State) : List (List Byte) :=
  [s.library.toList.flatMap entryImage,
    s.scenes.toList.flatMap sceneImage,
    s.rotations.toList.flatMap Rotation.image,
    s.cues.toList.flatMap CueEntry.bytes,
    s.alarms.toList.flatMap Alarm.settingBytes ++ s.triggers.toList.flatMap Trigger.settingBytes,
    s.palette.toList.flatMap Colour.bytes ++ s.ramp.toList.flatMap byte1,
    s.sources.toList.flatMap fun x => x.params.bytes,
    s.screens.toList.flatMap Screen.settingsBytes,
    byte1 s.rateA ++ byte1 s.rateB,
    grantBytes s]

/-- Sections numbered from the given number on. -/
def joinSections : Nat → List (List Byte) → List Byte
  | _, [] => []
  | n, body :: rest => sectionBytes n body ++ joinSections (n + 1) rest

/-- R172: the content, from the tables as they stand. -/
def imageContent (s : State) : List Byte := joinSections 1 (sectionBodies s)

/-- R172: the header before a content. That the part writes its six reserved bytes as 0 is the model's choice (DESIGN CHOICE,
log 27). -/
def imageHeader (content : List Byte) : List Byte :=
  byte2 Config.imageFormat ++ byte4 content.length ++ byte4 (crc32 content).toNat ++ List.replicate 6 0

/-- R172: SAVE TABLES. That the content length takes 4 bytes in the result, as it does in the header, is the model's choice
(DESIGN CHOICE, log 15). -/
def saveTablesBody (_ : Fin 16) (_ : List Byte) (s : State) : Served :=
  match s.store.state with
  | .idle =>
    let content := imageContent s
    ⟨{ s with store := { s.store with state := .saving .erasing (imageHeader content ++ content) } },
      .done (byte4 content.length ++ byte4 (crc32 content).toNat), id⟩
  | .startUpLoad _ => unchanged s .busy
  | .saving _ _ => unchanged s .busy

/-! ### The stages of a save (R173) -/

namespace State

/-- R173: the erase completes. -/
def eraseCompletes (s : State) : State :=
  match s.store.state with
  | .saving .erasing image =>
    { s with store := { s.store with
      state := .saving .programming image
      flash := { s.store.flash with cells := [], unknown := none } } }
  | _ => s

/-- R173: the program completes. -/
def programCompletes (s : State) : State :=
  match s.store.state with
  | .saving .programming image =>
    { s with store := { s.store with
      state := .saving .readingBack image
      flash := { s.store.flash with cells := memWriteBytes s.store.flash.cells 0 image } } }
  | _ => s

/-- R173: the read-back completes; the bytes named read back so (log 11). That it completes, matching or not, is what the
model takes for R174's "a later save completes": it clears the mark crcFails (DESIGN CHOICE, log 12). -/
def readBackCompletes (differing : List Host.Cell) (s : State) : State :=
  match s.store.state with
  | .saving .readingBack image =>
    let flash := { s.store.flash with cells := memWriteCells s.store.flash.cells differing, crcFails := false }
    { s with store := ⟨.idle, if flash.readBytes 0 image.length = image then .ok else .readBackMismatch, flash⟩ }
  | _ => s

/-- R173: a save ends with NO ANSWER. -/
def saveUnanswered (s : State) : State := { s with store := { s.store with state := .idle, outcome := .noAnswer } }

/-- R173, R175: the flash does not answer a command (log 12, log 13). A save that ends so has not completed in R174's sense,
at the read-back of a fully programmed image too: the mark crcFails stays as it was (DESIGN CHOICE, log 12). -/
def flashUnanswered (s : State) : State :=
  match s.store.state with
  | .saving .erasing _ => (s.loseImageArea s.store.flash.crcFails).saveUnanswered
  | .saving .programming _ => (s.loseImageArea s.store.flash.crcFails).saveUnanswered
  | .saving .readingBack _ => s.saveUnanswered
  | .startUpLoad _ => { s with store := { s.store with state := .startUpLoad false } }
  | .idle => s

end State

/-! ### Reading the image (R175, 12 section 12.5) -/

/-- The bodies of n sections, numbered from k on, that fill the bytes exactly. -/
def splitSections : Nat → Nat → List Byte → Option (List (List Byte))
  | 0, _, bs => if bs.isEmpty then some [] else none
  | n + 1, k, bs =>
    let length := beNat ((bs.drop 2).take 4)
    if bs.length < 6 ∨ (byteAt bs 0).toNat ≠ k ∨ bs.length < 6 + length then none
    else (splitSections n (k + 1) (bs.drop (6 + length))).map (((bs.drop 6).take length) :: ·)

/-- n records with a size read from their first bytes, that fill the bytes exactly. -/
def splitRecords (head : Nat) (size : List Byte → Nat) : Nat → List Byte → Option (List (List Byte))
  | 0, bs => if bs.isEmpty then some [] else none
  | n + 1, bs =>
    if bs.length < head ∨ bs.length < size bs then none
    else (splitRecords head size n (bs.drop (size bs))).map (bs.take (size bs) :: ·)

/-- Section 1's entries, each with its 2-byte size. -/
def libraryRecords (body : List Byte) : Option (List (List Byte)) :=
  splitRecords 2 (fun bs => 2 + beNat (bs.take 2)) 128 body

/-- Section 2's scene records. -/
def sceneRecords (body : List Byte) : Option (List (List Byte)) :=
  splitRecords 1 (fun bs => 1 + 2 * (byteAt bs 0).toNat) 32 body

/-- R175: the sections of a content, and the entries of sections 1 and 2, when the lengths agree. -/
structure Image where
  library : List (List Byte)
  scenes : List (List Byte)
  bodies : List (List Byte)
deriving DecidableEq, Repr

/-- A body of an image. -/
def Image.body (im : Image) (number : Nat) : List Byte := im.bodies.getD (number - 1) []

/-- The lengths of sections 3 to 10 (12 section 12.5). -/
def fixedLengths : List Nat := [136, 15360, 256, 64, 112, 144, 2, 16]

/-- R175: the content cut at its places, when its lengths agree. -/
def parseContent (content : List Byte) : Option Image :=
  match splitSections 10 1 content with
  | none => none
  | some bodies =>
    if (bodies.drop 2).map (·.length) = fixedLengths then
      match libraryRecords (bodies.getD 0 []), sceneRecords (bodies.getD 1 []) with
      | some library, some scenes => some ⟨library, scenes, bodies⟩
      | _, _ => none
    else none

/-- R175: the image of the flash, when it is valid. -/
def validImage (answered : Bool) (f : Flash) : Option Image :=
  let header := f.readBytes 0 16
  let length := beNat ((header.drop 2).take 4)
  if answered && !f.crcFails && beNat (header.take 2) == Config.imageFormat && decide (16 + length ≤ Config.imageArea) then
    let content := f.readBytes 16 length
    if (crc32 content).toNat = beNat ((header.drop 6).take 4) then parseContent content else none
  else none

/-! ### The tables from the image (R176 steps 1 and 2) -/

/-- R69: a stored layout; one that fails a check, or whose size is not its record's, is not taken (log 18). -/
def storedLayout (entry : List Byte) : Option Layout :=
  let bs := entry.drop 2
  if bs.length = 5 + (byteAt bs 0).toNat + 20 * (byteAt bs (2 + (byteAt bs 0).toNat)).toNat ∧ (recordBad bs).isNone then
    some (layoutOf bs)
  else none

/-- R110: a stored scene. -/
def storedScene (entry : List Byte) : Option Scene :=
  let members := (entry.drop 1).map (·.toNat)
  if (sceneBad (byteAt entry 0).toNat members).isNone then some (membersOf members) else none

/-- R105: a stored rotation list, its position 0. -/
def storedRotation (bs : List Byte) : Rotation :=
  let n := (byteAt bs 0).toNat
  let entries := ((bs.drop 1).take n).map (·.toNat)
  if (rotationBad n entries).isNone then ⟨entries.map (Fin.ofNat 16), 0⟩ else .unloaded

/-- R127: a stored cue entry. -/
def storedCue (bs : List Byte) : CueEntry :=
  let f := splitFields cueWidths bs
  if (firstBad 0 (entryTests f)).isNone then entryOfFields f else CueEntry.emptyEntry

/-- R156: a stored alarm. -/
def storedAlarm (bs : List Byte) : Alarm :=
  let f := 0 :: splitFields [1, 4, 1, 1, 2] bs
  if (alarmBad f).isNone then alarmOf f else .powerOn

/-- R156: a stored trigger. -/
def storedTrigger (bs : List Byte) : Trigger :=
  let f := 0 :: splitFields [1, 1, 1, 1, 2, 1] bs
  if (firstBad 0 (triggerTests f)).isNone then triggerOf f else .powerOn

/-- R103: the stored ramp, or the whole power-on ramp. -/
def storedRamp (bs : List Byte) : Vector Nat 16 :=
  let f := bs.map (·.toNat)
  if (firstBad 0 (f.map (within 0 32))).isNone then rampOf f else rampAtPowerOn

/-- R34: stored source parameters. -/
def storedParams (bs : List Byte) : SourceParams :=
  let f := 0 :: splitFields [1, 1, 1, 1, 1, 2] bs
  if (sourceBad f).isNone then paramsOf f else .powerOn

/-- R94: stored screen settings. -/
def storedSettings (bs : List Byte) : ScreenSettings :=
  let f := 0 :: bs.map (·.toNat)
  if (firstBad 0 (screenTests f)).isNone then settingsOf f else ⟨true, .a, 240, 68, none⟩

/-- R72: a stored rate, or the power-on rate. -/
def storedRate (n powerOn : Nat) : Nat := if [24, 25, 30, 50, 60].contains n then n else powerOn

/-- Record i of records of one size. -/
def recordAt (size : Nat) (bs : List Byte) (i : Nat) : List Byte := (bs.drop (size * i)).take size

/-- R165: the stored grants, F0 made FULL where none is. -/
def storedGrant (bs : List Byte) (p : Fin 16) : Grant :=
  if p = 0 ∧ !((List.range 16).any fun i => (byteAt bs i).toNat = 2) then .full else .ofNum (byteAt bs p.val).toNat

/-- R70, R94: a screen whose settings are taken at start-up; one that is disabled, or changes cadence, drops its
ticks. -/
def Screen.startSettings (x : Screen) (g : ScreenSettings) : Screen :=
  { x.withSettings g with
    ticksDue := if g.enabled ∧ g.cadence = x.cadence then x.ticksDue else 0
    output := if g.enabled then x.output else none }

namespace State

/-- R94: a screen takes its settings from the image; a change of its state marks it (R71). -/
def restoreScreen (im : Image) (s : State) (c : Fin 24) : State :=
  s.setScreen c (s.screens[c].startSettings (storedSettings (recordAt 6 (im.body 8) c.val)))

/-- R176 steps 1 and 2. -/
def restoreTables (im : Image) (s : State) : State :=
  let rates := im.body 9
  (List.finRange 24).foldl (restoreScreen im) { s with
    library := Vector.ofFn fun i => storedLayout (im.library.getD i.val [])
    scenes := Vector.ofFn fun i => storedScene (im.scenes.getD i.val [])
    rotations := Vector.ofFn fun i => storedRotation (recordAt 17 (im.body 3) i.val)
    cues := Vector.ofFn fun i => storedCue (recordAt 15 (im.body 4) i.val)
    alarms := Vector.ofFn fun i => storedAlarm (recordAt 9 (im.body 5) i.val)
    triggers := Vector.ofFn fun i => storedTrigger (recordAt 7 ((im.body 5).drop 144) i.val)
    palette := paletteOf (im.body 6)
    ramp := storedRamp ((im.body 6).drop 48)
    rateA := storedRate (byteAt rates 0).toNat 60
    rateB := storedRate (byteAt rates 1).toNat 50
    sources := Vector.ofFn fun i => { s.sources[i] with params := storedParams (recordAt 7 (im.body 7) i.val) }
    ports := Vector.ofFn fun p => { s.ports[p] with grant := storedGrant (im.body 10) p } }

/-- R176 step 3, R34: a source at the end of start-up. -/
def startSource (s : State) (i : Fin 16) : State :=
  if !s.sources[i].params.enable then s.setSourceState i .disabled
  else if s.ports[i].link = .inSync then s.enterAcquiring i
  else s

/-- R176 step 4, R94: a screen at the end of start-up. -/
def startScreen (s : State) (c : Fin 24) : State :=
  let x := s.screens[c]
  if !x.enabled then s
  else match x.start with
    | none => s
    | some e =>
      match s.library[e] with
      | none => s
      | some l =>
        if fits l.windows x.width x.height then s.setScreen c { x with active := some (contextOf e l), standby := .empty }
        else s

/-- R176 steps 3 to 6. -/
def settleStart (code : Code) (s : State) : State :=
  let t := (List.finRange 24).foldl startScreen ((List.finRange 16).foldl startSource s)
  let t := t.raiseAttention code 0
  { t with store := { t.store with state := .idle } }

/-- R176: the end of start-up. -/
def endStartUp (s : State) : State :=
  match s.store.state with
  | .startUpLoad answered =>
    match validImage answered s.store.flash with
    | some im => (s.restoreTables im).settleStart .powerOnImage
    | none => s.settleStart .powerOnEmpty
  | .idle => s
  | .saving _ _ => s

/-- R175: power-on. The flash alone is kept; a save in flight leaves it as an abandoned one (R174). -/
def powerOn (s : State) : State :=
  let t := if s.saving then s.loseImageArea true else s
  { State.reset with
    store := { State.reset.store with flash := t.store.flash }
    freeCount := t.freeCount
    pending := t.pending }

end State

/-- SAVE_TABLES (R172). -/
def execSaveTables (s : State) : Host.Outcome State Fault Refusal := .next (s.serve 45 saveTablesBody)

/-- ERASE_COMPLETE (R173). -/
def execEraseComplete (s : State) : Host.Outcome State Fault Refusal := .next s.eraseCompletes

/-- PROGRAM_COMPLETE (R173). -/
def execProgramComplete (s : State) : Host.Outcome State Fault Refusal := .next s.programCompletes

/-- READ_BACK_COMPLETE (R173), with the bytes that read back otherwise; none lies outside the area (log 11). -/
def execReadBackComplete (differing : List Host.Cell) (s : State) : Host.Outcome State Fault Refusal :=
  match differing.find? fun c => Config.imageArea ≤ c.1 with
  | some c => .fault (.outsideImageArea c.1)
  | none => .next (s.readBackCompletes differing)

/-- FLASH_NO_ANSWER (R173). -/
def execFlashNoAnswer (s : State) : Host.Outcome State Fault Refusal := .next s.flashUnanswered

/-- POWER_ON (R175). -/
def execPowerOn (s : State) : Host.Outcome State Fault Refusal := .next s.powerOn

/-- START_UP_END (R176). -/
def execStartUpEnd (s : State) : Host.Outcome State Fault Refusal := .next s.endStartUp

end Sys2Proof.Machine
end

