-- ==== Sys2Proof/Machine/Dispatch.lean ====
section
/-! DEFINITION. What each command does: one arm for each row of the table. -/

namespace Sys2Proof.Machine

/-- The effect of a command on everything but the queue. -/
def exec (i : Instr) (s : State) : Host.Outcome State Fault Refusal :=
  match i with
  | .powerOn => Sys2Proof.Machine.execPowerOn s
  | .startUpEnd => Sys2Proof.Machine.execStartUpEnd s
  | .bandCell port cell => Sys2Proof.Machine.execBandCell port cell s
  | .controlCell port cell => Sys2Proof.Machine.execControlCell port cell s
  | .idleCell port cell => Sys2Proof.Machine.execIdleCell port cell s
  | .malformedCell port cell => Sys2Proof.Machine.execMalformedCell port cell s
  | .silenceTimerExpiry port => Sys2Proof.Machine.execSilenceTimerExpiry port s
  | .staleTimerExpiry source => Sys2Proof.Machine.execStaleTimerExpiry source s
  | .cadenceTick cadence => Sys2Proof.Machine.execCadenceTick cadence s
  | .screenTick screen => Sys2Proof.Machine.execScreenTick screen s
  | .waitPicturesCountEnd runner => Sys2Proof.Machine.execWaitPicturesCountEnd runner s
  | .secondTick => Sys2Proof.Machine.execSecondTick s
  | .waitQualifiedTimerExpiry runner => Sys2Proof.Machine.execWaitQualifiedTimerExpiry runner s
  | .memberLoadCompletion => Sys2Proof.Machine.execMemberLoadCompletion s
  | .takeResultTaken runner => Sys2Proof.Machine.execTakeResultTaken runner s
  | .eraseComplete => Sys2Proof.Machine.execEraseComplete s
  | .programComplete => Sys2Proof.Machine.execProgramComplete s
  | .readBackComplete differing => Sys2Proof.Machine.execReadBackComplete differing s
  | .flashNoAnswer => Sys2Proof.Machine.execFlashNoAnswer s
  | .setSource => Sys2Proof.Machine.execSetSource s
  | .requalify => Sys2Proof.Machine.execRequalify s
  | .readSource => Sys2Proof.Machine.execReadSource s
  | .capture => Sys2Proof.Machine.execCapture s
  | .releaseStill => Sys2Proof.Machine.execReleaseStill s
  | .readPool => Sys2Proof.Machine.execReadPool s
  | .loadLayout => Sys2Proof.Machine.execLoadLayout s
  | .eraseLayout => Sys2Proof.Machine.execEraseLayout s
  | .readLayout => Sys2Proof.Machine.execReadLayout s
  | .setScreen => Sys2Proof.Machine.execSetScreen s
  | .setCadence => Sys2Proof.Machine.execSetCadence s
  | .setPalette => Sys2Proof.Machine.execSetPalette s
  | .freeze => Sys2Proof.Machine.execFreeze s
  | .setPulse => Sys2Proof.Machine.execSetPulse s
  | .readScreen => Sys2Proof.Machine.execReadScreen s
  | .windowTake => Sys2Proof.Machine.execWindowTake s
  | .rotate => Sys2Proof.Machine.execRotate s
  | .setRamp => Sys2Proof.Machine.execSetRamp s
  | .loadRotation => Sys2Proof.Machine.execLoadRotation s
  | .readRamp => Sys2Proof.Machine.execReadRamp s
  | .readRotation => Sys2Proof.Machine.execReadRotation s
  | .loadScene => Sys2Proof.Machine.execLoadScene s
  | .eraseScene => Sys2Proof.Machine.execEraseScene s
  | .readScene => Sys2Proof.Machine.execReadScene s
  | .takeScene => Sys2Proof.Machine.execTakeScene s
  | .takeLayout => Sys2Proof.Machine.execTakeLayout s
  | .revert => Sys2Proof.Machine.execRevert s
  | .abortTake => Sys2Proof.Machine.execAbortTake s
  | .readTake => Sys2Proof.Machine.execReadTake s
  | .loadCues => Sys2Proof.Machine.execLoadCues s
  | .readCues => Sys2Proof.Machine.execReadCues s
  | .startCue => Sys2Proof.Machine.execStartCue s
  | .stopCue => Sys2Proof.Machine.execStopCue s
  | .resumeCue => Sys2Proof.Machine.execResumeCue s
  | .readRunner => Sys2Proof.Machine.execReadRunner s
  | .setTime => Sys2Proof.Machine.execSetTime s
  | .setAlarm => Sys2Proof.Machine.execSetAlarm s
  | .setTrigger => Sys2Proof.Machine.execSetTrigger s
  | .readSchedule => Sys2Proof.Machine.execReadSchedule s
  | .setGrant => Sys2Proof.Machine.execSetGrant s
  | .readGrants => Sys2Proof.Machine.execReadGrants s
  | .status => Sys2Proof.Machine.execStatus s
  | .fetchCondition => Sys2Proof.Machine.execFetchCondition s
  | .restart => Sys2Proof.Machine.execRestart s
  | .saveTables => Sys2Proof.Machine.execSaveTables s
  | .cueTakeScene runner => Sys2Proof.Machine.execCueTakeScene runner s
  | .cueTakeLayout runner => Sys2Proof.Machine.execCueTakeLayout runner s
  | .cueRevert runner => Sys2Proof.Machine.execCueRevert runner s
  | .cueWindowTake runner => Sys2Proof.Machine.execCueWindowTake runner s
  | .cueFreeze runner => Sys2Proof.Machine.execCueFreeze runner s
  | .cueSetPulse runner => Sys2Proof.Machine.execCueSetPulse runner s
  | .cueCapture runner => Sys2Proof.Machine.execCueCapture runner s
  | .cueReleaseStill runner => Sys2Proof.Machine.execCueReleaseStill runner s
  | .cueRotate runner => Sys2Proof.Machine.execCueRotate runner s
  | .cueRequalify runner => Sys2Proof.Machine.execCueRequalify runner s
  | .waitPictures runner => Sys2Proof.Machine.execWaitPictures runner s
  | .waitTime runner => Sys2Proof.Machine.execWaitTime runner s
  | .waitQualified runner => Sys2Proof.Machine.execWaitQualified runner s
  | .jump runner => Sys2Proof.Machine.execJump runner s
  | .call runner => Sys2Proof.Machine.execCall runner s
  | .returnEntry runner => Sys2Proof.Machine.execReturnEntry runner s
  | .haltEntry runner => Sys2Proof.Machine.execHaltEntry runner s
  | .controlCellOutOfSync port cell => Sys2Proof.Machine.execControlCellOutOfSync port cell s
  | .emptyEntry runner => Sys2Proof.Machine.execEmptyEntry runner s
  | .unknownRequest => Sys2Proof.Machine.execUnknownRequest s

end Sys2Proof.Machine
end

