-- ==== Sys2Proof/WellFormed.lean ====
section
/-! DEFINITION. Well-formed commands: a cell's bytes are of the kind its command names (log 2), and a read-back names
addresses of the image area in ascending order (log 11). -/

namespace Sys2Proof

open Machine

/-- R1: the cell is a well-formed band cell. -/
def isBandCell (cell : List Byte) : Bool :=
  match classify cell with
  | .band _ => true
  | _ => false

/-- R1: the cell is a well-formed control cell. -/
def isControlCell (cell : List Byte) : Bool :=
  match classify cell with
  | .control _ => true
  | _ => false

/-- Addresses of the image area, strictly ascending. -/
def ascending : List Host.Cell → Bool
  | [] => true
  | [c] => c.1 < Config.imageArea
  | c :: d :: rest => c.1 < d.1 && ascending (d :: rest)

/-- Whether a command is well-formed. Every command without a cell or bytes is. -/
def Instr.wellFormed : Instr → Bool
  | .bandCell _ cell => isBandCell cell
  | .controlCell _ cell => isControlCell cell
  | .controlCellOutOfSync _ cell => isControlCell cell
  | .idleCell _ cell => classify cell = .idle
  | .malformedCell _ cell => classify cell = .malformed
  | .readBackComplete differing => ascending differing
  | _ => true

end Sys2Proof
end

