-- ==== Sys2Proof/Safety.lean ====
section
/-! DEFINITION. The laws of the part that its spec names, and the words in which the statements are written. -/

namespace Sys2Proof.Machine

/-! ### The words of the statements -/

/-- A port with its change marks left out. -/
def Port.unmarked (x : Port) : Port := { x with marks := .clear }

/-- A state with the change marks of every port left out. -/
def State.unmarked (s : State) : State := { s with ports := mapTable Port.unmarked s.ports }

/-- Two states that differ in change marks at most. -/
def SameButMarks (t u : State) : Prop := t.unmarked = u.unmarked

/-- What of the take job is marked (R113): its phase and its members' outcomes. -/
def State.jobView (s : State) : Option (Phase × List MemberOutcome) := s.job.map fun j => (j.phase, j.members.map (·.outcome))

/-- R169 between two states: on every port, whatever its grant, a mark that was set stays set, and the marks of the sources,
screens and runners whose state differs, of the screens whose standby state differs, and of a take job whose phase or
outcomes differ, are set. -/
def Marked (s t : State) : Prop :=
  ∀ q : Fin 16,
    (∀ i : Fin 16, s.ports[q].marks.sources[i] = true ∨ t.sources[i].state ≠ s.sources[i].state →
      t.ports[q].marks.sources[i] = true) ∧
    (∀ c : Fin 24, s.ports[q].marks.screens[c] = true ∨ t.screens[c].state ≠ s.screens[c].state ∨
        t.screens[c].standby.num ≠ s.screens[c].standby.num →
      t.ports[q].marks.screens[c] = true) ∧
    (∀ r : Fin 4, s.ports[q].marks.runners[r] = true ∨ t.runners[r].state.num ≠ s.runners[r].state.num →
      t.ports[q].marks.runners[r] = true) ∧
    (s.ports[q].marks.take = true ∨ t.jobView ≠ s.jobView → t.ports[q].marks.take = true)

/-- The request r of port p is the one served next, has the given code, and passes the tests of R160 before the
owning block. -/
abbrev State.Serves (s : State) (code : Nat) (p : Fin 16) (r : Request) : Prop :=
  s.nextRequest = some (p, r) ∧ r.code.toNat = code ∧ screenRequest s.ports[p] r = .pass

/-- A port whose oldest request has been answered with the given reply cell. -/
def Port.answered (x : Port) (cell : List Byte) : Port := { x with queue := x.queue.tail, lane := x.lane ++ [cell] }

/-- The part as u has it, with the request r of port p answered (R159, R161): the request has left its queue, p is the
port served last, and one reply with the given wall fault code stands on the return lane. -/
def AnsweredWith (fault : Nat) (s t u : State) (p : Fin 16) (r : Request) (status : ReplyStatus) (result : List Byte) :
    Prop :=
  SameButMarks t { u with
    served := p
    ports := put s.ports p (s.ports[p].answered (replyCell r.tag r.code status fault result)) }

/-- The part as u has it, with the request r of port p answered once the rest was done: the reply carries the wall fault
code of u (R168; WallFaultIsTheHighest says which number that is). -/
def AnsweredAs (s t u : State) (p : Fin 16) (r : Request) (status : ReplyStatus) (result : List Byte) : Prop :=
  AnsweredWith u.wallFault s t u p r status result

/-- The part as it was, with the request r of port p refused (R160 to R162, R168): the condition stands in the port's
record and one REFUSED reply on its return lane. A detail that no rule states is a value of the model's own counter's draw
(log 8). -/
def RefusedAs (s t : State) (p : Fin 16) (r : Request) (code : Code) (detail : Option Nat) : Prop :=
  ∃ d n : Nat, (∀ x, detail = some x → d = x ∧ n = s.freeCount) ∧
    SameButMarks t { s with
      served := p
      freeCount := n
      ports := put s.ports p { s.ports[p].answered (replyCell r.tag r.code .refused s.wallFault []) with
        condition := some ⟨code, d, r.tag⟩ } }

/-- A RUNNING runner about to execute the entry e, of the given kind, after the tests of R139. -/
abbrev State.Executes (s : State) (kind : CueKind) (r : Fin 4) (e : CueEntry) : Prop :=
  s.runners[r].state = .running ∧ s.runners[r].spin < 64 ∧ s.runners[r].position < 1024 ∧ s.entryAt r = e ∧ e.kind = kind

/-- A state with one runner's record replaced. -/
def State.withRunner (s : State) (r : Fin 4) (x : Runner) : State := { s with runners := put s.runners r x }

/-- A state with one source record replaced. -/
def State.withSource (s : State) (i : Fin 16) (x : Source) : State := { s with sources := put s.sources i x }

/-- A state with one port replaced. -/
def State.withPort (s : State) (p : Fin 16) (x : Port) : State := { s with ports := put s.ports p x }

/-- A state with one slot replaced. -/
def State.withSlot (s : State) (k : Fin 64) (x : Slot) : State := { s with slots := put s.slots k x }

/-- A state with one screen replaced. -/
def State.withScreen (s : State) (c : Fin 24) (x : Screen) : State := { s with screens := put s.screens c x }

/-- A runner that has gone on to the next entry after an execution (R139). -/
def Runner.next (x : Runner) : Runner := { x with position := x.position + 1, spin := x.spin + 1 }

/-- A runner that has left a wait for the next entry (R132 to R135). -/
def Runner.resumed (x : Runner) : Runner := { x with state := .running, position := x.position + 1 }

/-- A runner that faults at its position (R141). -/
def Runner.faultedWith (x : Runner) (kind : Code) (detail seconds : Nat) : Runner :=
  { x with state := .faulted, faultRecord := some ⟨kind, x.position, detail, seconds⟩ }

/-- A runner that waits (R140). -/
def Runner.waitingFor (x : Runner) (w : Wait) : Runner := { x with state := .waiting w, spin := 0 }

/-- A runner that has been started (R143). -/
def Runner.startedAt (address : Nat) (cause : StartCause) : Runner := ⟨.running, address, [], 0, some cause, none⟩

/-- A source that has entered ACQUIRING (R24). -/
def Source.acquiringFrom (x : Source) : Source :=
  { x with state := .acquiring, seen := 0, cleanRun := 0, missRun := 0, stale := none }

/-- A READY slot that has been retired (R42). -/
def Slot.retired (x : Slot) : Slot := if 0 < x.holds then { x with state := .retired } else Slot.empty

/-- The part with the picture in progress of the given assembly record abandoned (R14, R15, R41). -/
def State.abandoned (s : State) (a : Assembly) : State :=
  match a with
  | .assembling k _ _ _ _ => s.withSlot k Slot.empty
  | .idle => s
  | .discarding => s

/-- What the loss of sync leaves (R3, R14, R22): the port, given as it was but for the cell or expiry that caused it, has its
assembler IDLE, and the picture in progress is abandoned; a source that was neither DISABLED nor DOWN becomes DOWN, its READY
slot is retired and the event DOWN is raised (R32). -/
def LinkLost (s t : State) (p : Fin 16) (before : Port) : Prop :=
  let v := s.abandoned before.assembly
  ∃ w : State,
    (s.sources[p].state ≠ .disabled → s.sources[p].state ≠ .down → t = w.raiseEvent p .down) ∧
    (s.sources[p].state = .disabled ∨ s.sources[p].state = .down → t = w) ∧
    (∀ q : Fin 16, w.ports[q].unmarked = (if q = p then
      { before with link := .outOfSync, goodRun := 0, badRun := 0, assembly := .idle, reference := none }
      else s.ports[q]).unmarked) ∧
    (∀ i : Fin 16, w.sources[i] = if i = p ∧ s.sources[p].state ≠ .disabled ∧ s.sources[p].state ≠ .down then
      { s.sources[p] with state := .down, stale := none } else s.sources[i]) ∧
    (∀ k : Fin 64, w.slots[k] =
      if s.sources[p].state ≠ .disabled ∧ s.sources[p].state ≠ .down ∧ v.readySlot p = some k then v.slots[k].retired
      else v.slots[k]) ∧
    { w with ports := s.ports, sources := s.sources, slots := s.slots } = s

/-- The command that serves a request of the given code (12 section 12.3). -/
def commandOf (code : Nat) : Instr :=
  match code with
  | 1 => .setSource
  | 2 => .requalify
  | 3 => .readSource
  | 4 => .capture
  | 5 => .releaseStill
  | 6 => .readPool
  | 7 => .loadLayout
  | 8 => .eraseLayout
  | 9 => .readLayout
  | 10 => .setScreen
  | 11 => .setCadence
  | 12 => .setPalette
  | 13 => .freeze
  | 14 => .setPulse
  | 15 => .readScreen
  | 16 => .windowTake
  | 17 => .rotate
  | 18 => .setRamp
  | 19 => .loadRotation
  | 20 => .readRamp
  | 21 => .readRotation
  | 22 => .loadScene
  | 23 => .eraseScene
  | 24 => .readScene
  | 25 => .takeScene
  | 26 => .takeLayout
  | 27 => .revert
  | 28 => .abortTake
  | 29 => .readTake
  | 30 => .loadCues
  | 31 => .startCue
  | 32 => .stopCue
  | 33 => .resumeCue
  | 34 => .readCues
  | 35 => .readRunner
  | 36 => .setTime
  | 37 => .setAlarm
  | 38 => .setTrigger
  | 39 => .readSchedule
  | 40 => .setGrant
  | 41 => .readGrants
  | 42 => .status
  | 43 => .fetchCondition
  | 44 => .restart
  | 45 => .saveTables
  | _ => .unknownRequest

/-- The active context with the windows of the given number changed. -/
def Screen.withWindow (x : Screen) (n : Nat) (f : LiveWindow → LiveWindow) : Screen :=
  { x with active := x.active.map (Context.mapWindows fun w => if w.copy.number = n then f w else w) }

/-! ### Start-up (R176) -/

/-- A source at the end of start-up, its parameters settled (R34): DISABLED, ACQUIRING, or as it stood. -/
def Source.started (link : LinkState) (x : Source) : Source :=
  if x.params.enable = false then { x with state := .disabled } else if link = .inSync then x.acquiringFrom else x

/-- A screen at the end of start-up, its settings and the library settled (R94): an enabled one whose start layout is
present and fits becomes SHOWING. -/
def Screen.started (library : Vector (Option Layout) 128) (x : Screen) : Screen :=
  match x.start with
  | none => x
  | some e =>
    match library[e] with
    | none => x
    | some l =>
      if x.enabled = true ∧ fits l.windows x.width x.height = true then
        { x with active := some (contextOf e l), standby := .empty }
      else x

/-- R176 steps 3 to 6, from the part s with its tables settled to t, with the attention condition of the given code. -/
def StartUpSettled (code : Code) (s t : State) : Prop :=
  (∀ p : Fin 16, t.ports[p].unmarked = { s.ports[p] with attention := true, condition := some ⟨code, 0, 0⟩ }.unmarked) ∧
  (∀ i : Fin 16, t.sources[i] = s.sources[i].started s.ports[i].link) ∧
  (∀ c : Fin 24, t.screens[c] = s.screens[c].started s.library) ∧
  { t with ports := s.ports, sources := s.sources, screens := s.screens } = { s with store := { s.store with state := .idle } }

/-- R176 steps 1 and 2: u is s with what a valid image gives (R34, R69, R72, R86, R94, R103, R105, R110, R127, R156, R165).
A stored record that fails its check is left empty or takes its power-on values. The size of a stored layout is log 18's,
the ticks due and the last picture of a screen are logs 6 and 17. -/
def TablesFrom (im : Image) (s u : State) : Prop :=
  (∀ e : Fin 128,
    let record := (im.library.getD e.val []).drop 2
    let label := (byteAt record 0).toNat
    u.library[e] = if record.length = 5 + label + 20 * (byteAt record (2 + label)).toNat ∧ recordBad record = none then
      some (layoutOf record) else none) ∧
  (∀ n : Fin 32,
    let record := im.scenes.getD n.val []
    let members := (record.drop 1).map (·.toNat)
    u.scenes[n] = if sceneBad (byteAt record 0).toNat members = none then some (membersOf members) else none) ∧
  (∀ k : Fin 8,
    let record := recordAt 17 (im.body 3) k.val
    let count := (byteAt record 0).toNat
    let entries := ((record.drop 1).take count).map (·.toNat)
    u.rotations[k] = if rotationBad count entries = none then ⟨entries.map (Fin.ofNat 16), 0⟩ else ⟨[], 0⟩) ∧
  (∀ a : Fin 1024,
    let f := splitFields cueWidths (recordAt 15 (im.body 4) a.val)
    u.cues[a] = if firstBad 0 (entryTests f) = none then entryOfFields f else ⟨.empty, 0, 0, 0, 0, 0, 0⟩) ∧
  (∀ n : Fin 16,
    let f := 0 :: splitFields [1, 4, 1, 1, 2] (recordAt 9 (im.body 5) n.val)
    u.alarms[n] = if alarmBad f = none then
      ⟨fld f 1 = 1, fld f 2, BitVec.ofNat 7 (fld f 3), Fin.ofNat 4 (fld f 4), fld f 5, .none, none⟩
      else ⟨false, 0, 0, 0, 0, .none, none⟩) ∧
  (∀ n : Fin 16,
    let f := 0 :: splitFields [1, 1, 1, 1, 2, 1] (recordAt 7 ((im.body 5).drop 144) n.val)
    u.triggers[n] = if firstBad 0 (triggerTests f) = none then
      ⟨fld f 1 = 1, Fin.ofNat 16 (fld f 2), .ofNum (fld f 3), Fin.ofNat 4 (fld f 4), fld f 5, fld f 6 = 1, .none, none⟩
      else ⟨false, 0, .qualified, 0, 0, false, .none, none⟩) ∧
  (∀ i : Fin 16, u.palette[i] =
    ⟨byteAt (im.body 6) (3 * i.val), byteAt (im.body 6) (3 * i.val + 1), byteAt (im.body 6) (3 * i.val + 2)⟩) ∧
  (∀ i : Fin 16,
    let ramp := (im.body 6).drop 48
    u.ramp[i] = if ∀ b ∈ ramp, b.toNat ≤ 32 then (byteAt ramp i.val).toNat else 2 * (i.val + 1)) ∧
  (∀ n : Nat, n = (byteAt (im.body 9) 0).toNat →
    u.rateA = if n = 24 ∨ n = 25 ∨ n = 30 ∨ n = 50 ∨ n = 60 then n else 60) ∧
  (∀ n : Nat, n = (byteAt (im.body 9) 1).toNat →
    u.rateB = if n = 24 ∨ n = 25 ∨ n = 30 ∨ n = 50 ∨ n = 60 then n else 50) ∧
  (∀ i : Fin 16,
    let f := 0 :: splitFields [1, 1, 1, 1, 1, 2] (recordAt 7 (im.body 7) i.val)
    u.sources[i] = { s.sources[i] with params := if sourceBad f = none then paramsOf f else ⟨true, 2, 3, 30, 4, 200⟩ }) ∧
  (∀ c : Fin 24,
    let f := 0 :: (recordAt 6 (im.body 8) c.val).map (·.toNat)
    let g : ScreenSettings := if firstBad 0 (screenTests f) = none then settingsOf f else ⟨true, .a, 240, 68, none⟩
    u.screens[c] = { s.screens[c] with
      enabled := g.enabled
      cadence := g.cadence
      width := g.width
      height := g.height
      start := g.start
      ticksDue := if g.enabled = true ∧ g.cadence = s.screens[c].cadence then s.screens[c].ticksDue else 0
      output := if g.enabled = true then s.screens[c].output else none }) ∧
  (∀ p : Fin 16, u.ports[p] = { s.ports[p] with
    grant := if p = 0 ∧ ∀ q : Fin 16, (byteAt (im.body 10) q.val).toNat ≠ 2 then .full
      else Grant.ofNum (byteAt (im.body 10) p.val).toNat }) ∧
  { u with library := s.library, scenes := s.scenes, rotations := s.rotations, cues := s.cues, alarms := s.alarms,
           triggers := s.triggers, palette := s.palette, ramp := s.ramp, rateA := s.rateA, rateB := s.rateB,
           sources := s.sources, screens := s.screens, ports := s.ports } = s

/-- The part v with the stored tables of s in place, as an image carries them (R172): a list without its position, an alarm
or a trigger without its last outcome and last acted time. What becomes of a screen's ticks due and last picture is logs 6
and 17. -/
def State.withTablesOf (v s : State) : State := { v with
  library := s.library
  scenes := s.scenes
  rotations := mapTable (fun x => { x with position := 0 }) s.rotations
  cues := s.cues
  alarms := mapTable (fun x => { x with outcome := .none, lastActed := none }) s.alarms
  triggers := mapTable (fun x => { x with outcome := .none, lastActed := none }) s.triggers
  palette := s.palette
  ramp := s.ramp
  rateA := s.rateA
  rateB := s.rateB
  sources := Vector.ofFn fun i => { v.sources[i] with params := s.sources[i].params }
  screens := Vector.ofFn fun c =>
    let x := s.screens[c]
    { v.screens[c] with
      enabled := x.enabled
      cadence := x.cadence
      width := x.width
      height := x.height
      start := x.start
      ticksDue := if x.enabled = true ∧ x.cadence = v.screens[c].cadence then v.screens[c].ticksDue else 0
      output := if x.enabled = true then v.screens[c].output else none }
  ports := Vector.ofFn fun p => { v.ports[p] with grant := s.ports[p].grant } }

/-! ### Alarms and triggers (09) -/

/-- A trigger that is enabled and watches for the given event of the given source (R153). -/
abbrev Trigger.Watches (g : Trigger) (i : Fin 16) (event : SourceEvent) : Prop :=
  g.enabled = true ∧ g.source = i ∧ g.event = event

/-! ### Reports (R24) -/

/-- R24: the part s with the source record z in place, z being a source in ACQUIRING whose report has been counted, comes
to t by the test that follows the report: QUALIFIED with the event and the end of the waits for it, FAILED with the event,
or no change. -/
def AcquiringTested (s t : State) (i : Fin 16) (z : Source) : Prop :=
  let passes : Prop := z.params.passRun ≤ z.cleanRun ∧ z.params.minPictures ≤ z.seen
  (passes → ∃ w : State, SameButMarks w (s.withSource i { z with
      state := .qualified, toQualify := z.seen, missRun := 0, stale := some z.params.staleLimit }) ∧
    t = (w.endQualifiedWaits i).raiseEvent i .qualified) ∧
  (¬ passes → z.params.maxPictures ≤ z.seen → ∃ w : State,
    SameButMarks w (s.withSource i { z with state := .failed, stale := none }) ∧ t = w.raiseEvent i .failed) ∧
  (¬ passes → z.seen < z.params.maxPictures → SameButMarks t (s.withSource i z))

/-! ### The take engine (07) -/

/-- A standby as an abort leaves that of a PENDING member (R122): LOADED and ARMED become EMPTY, the ARMED one of a REVERT
becomes PREVIOUS again. A member whose load has not completed has an EMPTY or PREVIOUS standby, which is kept. -/
def Standby.aborted (kind : JobKind) (b : Standby) : Standby :=
  match b with
  | .loaded _ => .empty
  | .armed x => if kind = .revert then .previous x else .empty
  | .empty => .empty
  | .previous x => .previous x

/-- A standby as the disable of a PENDING member's screen leaves it (R120): LOADED and ARMED become EMPTY. -/
def Standby.emptied (b : Standby) : Standby :=
  match b with
  | .loaded _ => .empty
  | .armed _ => .empty
  | .empty => .empty
  | .previous x => .previous x

/-- A screen as the arming of a job with the given member screens leaves it (R117). -/
def Screen.armedIn (members : List (Fin 24)) (c : Fin 24) (x : Screen) : Screen :=
  match x.standby with
  | .loaded y => if c ∈ members then { x with standby := .armed y } else x
  | .empty => x
  | .previous _ => x
  | .armed _ => x

/-- The runner of number q as the end of a job leaves it (R119, R132): the requester that waits for the end is handed the
result. -/
def Runner.handed (j : Job) (result : JobResult) (q : Fin 4) (x : Runner) : Runner :=
  if j.requester = .runner q ∧ x.state = .waiting (.takeDone j.serial none) then
    { x with state := .waiting (.takeDone j.serial (some result)) }
  else x

/-! ### Windows -/

/-- The screen c is SHOWING and its active context x holds the window w of number n (R87). -/
abbrev State.Shows (s : State) (c : Fin 24) (n : Nat) (x : Context) (w : LiveWindow) : Prop :=
  s.screens[c].enabled = true ∧ s.screens[c].active = some x ∧ x.windows.find? (fun y => y.copy.number = n) = some w

/-- No runner waits for the take engine (R124). -/
abbrev State.NoneWaits (s : State) : Prop := ∀ r : Fin 4, s.waitingTake r = none

/-! ### The work of a tick (05 section 5.4) -/

/-- What a leg of a window is to show (R77, R78, R80, R84): a leg of the given source, which latches the slot held, comes to
the given slot, or to a colour, and to the given status. -/
def LegShows (s : State) (w : Window) (source : Nat) (held slot : Option (Fin 64)) (status : RenderStatus) : Prop :=
  let shown (k : Fin 64) (st : RenderStatus) : Prop :=
    ((s.slots[k].picture.all fun y => scaleFits w y.format) = true → slot = some k ∧ status = st) ∧
    ((s.slots[k].picture.all fun y => scaleFits w y.format) = false → slot = none ∧ status = .scaleOutOfRange)
  let slate : Prop := slot = none ∧ status = .slateFallback
  (∀ k : Fin 64, source < 16 → s.eligible (Fin.ofNat 16 source) = true → s.readySlot (Fin.ofNat 16 source) = some k →
    shown k .showingSource) ∧
  (∀ k : Fin 64, 16 ≤ source → s.stills[Fin.ofNat 4 (source - 16)] = some k → shown k .showingStill) ∧
  ((source < 16 ∧ s.eligible (Fin.ofNat 16 source) = false) ∨ (16 ≤ source ∧ s.stills[Fin.ofNat 4 (source - 16)] = none) →
    (∀ k : Fin 64, w.fallback = .hold → held = some k → shown k .held) ∧
    (w.fallback = .hold → held = none → slate) ∧
    (w.fallback = .slate → slate) ∧
    (∀ (b : Nat) (k : Fin 64), w.fallback = .backup → w.backup = some b → s.eligible (Fin.ofNat 16 b) = true →
      s.readySlot (Fin.ofNat 16 b) = some k → shown k .backup) ∧
    (w.fallback = .backup → (∀ b : Nat, w.backup = some b → s.eligible (Fin.ofNat 16 b) = false) → slate))

/-- R85: the pixel that a leg of the window w, latching the given slot or none, shows x pixels across and y lines down from
the corner of the rectangle: the source pixel of the slot's picture that is nearest on each axis, a column group being 8 pixels,
a band 16 lines and a pixel two bytes, or the slate colour. The order of lines and pixels in a band's payload, lines from the
top and pixels from the left, is the model's (DEDUCED, log 26); so is the slate colour for a latched slot without a picture
(log 21). -/
def State.legPixel (s : State) (w : Window) (latch : Option (Fin 64)) (x y : Nat) : Word16 :=
  match latch.bind fun k => s.slots[k].picture.map fun t => (t.format, s.slots[k].bands) with
  | none => s.palette[Fin.ofNat 16 w.slate].pixel
  | some (f, bands) =>
    let across := (2 * x + 1) * (8 * f.width) / (2 * (8 * w.width))
    let down := (2 * y + 1) * (16 * f.height) / (2 * (16 * w.height))
    let band := bands.getD (down / 16) []
    let place := 2 * (down % 16 * (8 * f.width) + across)
    byteAt band place ++ byteAt band (place + 1)

/-- R85: the pixel p is the pixels a and b blended with the ramp entry r: each of red, green and blue is
(r × a + (32 − r) × b + 16) divided by 32, with the fraction dropped. -/
def Blended (r : Nat) (a b p : Word16) : Prop :=
  p.extractLsb' 11 5 = BitVec.ofNat 5 ((r * (a.extractLsb' 11 5).toNat + (32 - r) * (b.extractLsb' 11 5).toNat + 16) / 32) ∧
  p.extractLsb' 5 6 = BitVec.ofNat 6 ((r * (a.extractLsb' 5 6).toNat + (32 - r) * (b.extractLsb' 5 6).toNat + 16) / 32) ∧
  p.extractLsb' 0 5 = BitVec.ofNat 5 ((r * (a.extractLsb' 0 5).toNat + (32 - r) * (b.extractLsb' 0 5).toNat + 16) / 32)

/-- R85: the pixel p, x pixels across and y lines down from the corner of the rectangle, is what the window w shows there: the
border colour where its border is drawn, and else its main leg, blended with the second leg of its dissolve if it has one. -/
def State.ShowsPixel (s : State) (w : LiveWindow) (x y : Nat) (p : Word16) : Prop :=
  let edge : Prop := x < 4 ∨ y < 4 ∨ 8 * w.copy.width ≤ x + 4 ∨ 16 * w.copy.height ≤ y + 4
  let lit : Prop := ∀ q : Pulse, w.pulse = some q → q.phase < q.onCount
  let main := s.legPixel w.copy w.latch x y
  (∀ b : Nat, w.copy.border = some b → lit → edge → p = s.palette[Fin.ofNat 16 b].pixel) ∧
  (w.copy.border = none ∨ ¬ lit ∨ ¬ edge →
    (w.dissolve = none → p = main) ∧
    ∀ d : Dissolve, w.dissolve = some d →
      Blended s.ramp[Fin.ofNat 16 (min d.step 15)] main (s.legPixel w.copy d.latch x y) p)

/-- R85: the pixel x pixels across and y lines down lies in the rectangle of the window w. -/
def Window.Covers (w : Window) (x y : Nat) : Prop :=
  8 * w.left ≤ x ∧ x < 8 * (w.left + w.width) ∧ 16 * w.top ≤ y ∧ y < 16 * (w.top + w.height)

/-- R76: a screen after the swap to the context y. -/
def Screen.swapped (x : Screen) (y : Context) : Screen :=
  { x with
    active := some y
    standby := match x.active with
      | none => .empty
      | some old => .previous (old.mapWindows reduceWindow) }

/-- R77 to R85: from v, whose screen c has the active context x, the stages after the swap come to t. The latch stage and the
dissolve stage move the holds, window by window; the picture is composed from what the stages leave. -/
def TickComposed (v t : State) (c : Fin 24) (x : Context) : Prop :=
  let planned := x.windows.map v.stageWindow
  t.slots = (planned.foldl State.releaseEnded ((x.windows.zip planned).foldl State.moveWindow v)).slots ∧
  t.screens = put v.screens c { v.screens[c] with
    active := some { x with windows := planned.map fun w => stepPulse (stepDissolve w) }
    output := t.screens[c].output } ∧
  t.screens[c].output = some (t.frameOf c) ∧
  { t with slots := v.slots, screens := v.screens } = v

/-! ### The laws -/

namespace State

/-- R157: a request queue never holds more than 4 requests. -/
abbrev QueueLaw (s : State) : Prop := ∀ p : Fin 16, s.ports[p].queue.length ≤ 4

/-- R136, R140: a return stack never holds more than 4 addresses, and a spin count never passes 64. -/
abbrev RunnerLaw (s : State) : Prop := ∀ r : Fin 4, s.runners[r].stack.length ≤ 4 ∧ s.runners[r].spin ≤ 64

/-- The image area keeps its canonical form (log 10). -/
abbrev FlashLaw (s : State) : Prop := memWf s.store.flash.cells = true

/-- R43: every RETIRED slot has a hold count of at least one. -/
abbrev RetiredLaw (s : State) : Prop := ∀ k : Fin 64, s.slots[k].state = .retired → 1 ≤ s.slots[k].holds

/-- R165: at least one port holds FULL. -/
abbrev GrantLaw (s : State) : Prop := ∃ p : Fin 16, s.ports[p].grant = .full

end State

/-! ### The stored tables -/

/-- A layout of the library (R61 to R65, R69): a serialized record of the size that its counts give, which passes the checks,
spells it. -/
def Layout.Checked (l : Layout) : Prop :=
  ∃ bs : List Byte,
    bs.length = 5 + (byteAt bs 0).toNat + 20 * (byteAt bs (2 + (byteAt bs 0).toNat)).toNat ∧ recordBad bs = none ∧
    l = layoutOf bs

/-- R110: a scene has 1 to 24 members, and no screen twice. -/
abbrev SceneChecked (x : Scene) : Prop := 1 ≤ x.length ∧ x.length ≤ 24 ∧ (x.map (·.1)).Nodup

/-- R105: a list has at most 16 entries, none of them twice. -/
abbrev Rotation.Checked (x : Rotation) : Prop := x.entries.length ≤ 16 ∧ x.entries.Nodup

/-- R128: an entry passes the tests of its seven fields. -/
abbrev CueEntry.Checked (e : CueEntry) : Prop := firstBad 0 (entryTests (e.kind.num :: e.operands)) = none

/-- R152: an alarm's time and address are in range, and an enabled one has a weekday. -/
abbrev Alarm.Checked (a : Alarm) : Prop :=
  a.seconds ≤ 86399 ∧ a.address ≤ 1023 ∧ (a.enabled = true → a.weekdays ≠ 0)

/-- R31: the parameters of a source are in range, and max pictures is not below min pictures. -/
abbrev SourceParams.Checked (x : SourceParams) : Prop :=
  1 ≤ x.passRun ∧ x.passRun ≤ 4 ∧ x.minPictures ≤ 15 ∧ 1 ≤ x.maxPictures ∧ x.maxPictures ≤ 63 ∧
    x.minPictures ≤ x.maxPictures ∧ 1 ≤ x.suspectLimit ∧ x.suspectLimit ≤ 15 ∧ 20 ≤ x.staleLimit ∧ x.staleLimit ≤ 2000

/-- R92: the geometry of a screen is in range. -/
abbrev Screen.Sized (x : Screen) : Prop := 40 ≤ x.width ∧ x.width ≤ 240 ∧ 12 ≤ x.height ∧ x.height ≤ 68

/-- Every entry of a stored table is one that its owner's checks pass: layouts, scenes, rotation lists, cue entries, alarms,
triggers (R154), the ramp (R103), the rates (R72), source parameters and screen settings. -/
abbrev State.TablesLaw (s : State) : Prop :=
  (∀ (e : Fin 128) (l : Layout), s.library[e] = some l → l.Checked) ∧
  (∀ (n : Fin 32) (x : Scene), s.scenes[n] = some x → SceneChecked x) ∧
  (∀ k : Fin 8, s.rotations[k].Checked) ∧
  (∀ a : Fin 1024, s.cues[a].Checked) ∧
  (∀ n : Fin 16, s.alarms[n].Checked) ∧
  (∀ n : Fin 16, s.triggers[n].address ≤ 1023) ∧
  (∀ i : Fin 16, s.ramp[i] ≤ 32) ∧
  s.rateA ∈ [24, 25, 30, 50, 60] ∧ s.rateB ∈ [24, 25, 30, 50, 60] ∧
  (∀ i : Fin 16, s.sources[i].params.Checked) ∧
  (∀ c : Fin 24, s.screens[c].Sized)

/-- R64: a layout's windows are within the area budget. -/
abbrev Layout.AreaFits (l : Layout) : Prop := (l.windows.map fun w => w.height * w.width).sum ≤ 24480

/-- R99: a context's windows are within the area budget, each dissolving window counted twice. -/
abbrev Context.AreaFits (c : Context) : Prop := areaInUse c.windows ≤ 24480

/-- R75, R99: a standby context carries no dissolve. -/
abbrev Context.NoDissolve (c : Context) : Prop := ∀ w ∈ c.windows, w.dissolve = none

/-- R99: the law of the area budget, with what keeps it: the library's layouts and the standby contexts, which carry
no dissolve, are within the budget too. -/
abbrev State.AreaLaw (s : State) : Prop :=
  (∀ (e : Fin 128) (l : Layout), s.library[e] = some l → l.AreaFits) ∧
  (∀ (c : Fin 24) (x : Context), s.screens[c].active = some x → x.AreaFits) ∧
  (∀ (c : Fin 24) (x : Context), s.screens[c].standby.context = some x → x.AreaFits ∧ x.NoDissolve)

end Sys2Proof.Machine
end

