-- ==== Sys2Proof/Certificates/Slice0/Obligations.lean ====
section
/-! DEFINITION. The statements for the provers. -/

open Sys2Proof Sys2Proof.Machine

/-! ### The queue and the reset -/

/-- A step carries out the command at the front of the queue; an empty queue idles (log 1). -/
def Obligations.StepRunsTheFrontCommand : Prop :=
  (∀ (c : Instr) (s : State), step { s with pending := c :: s.pending } = exec c s) ∧
  ∀ s : State, s.pending = [] → step s = .next s

/-- The values at power-on of every block, as its rule gives them, the palette and the ramp among them. -/
def Obligations.ResetHoldsThePowerOnValues : Prop :=
  let s := State.reset
  (∀ p : Fin 16, s.ports[p].link = .outOfSync ∧ s.ports[p].goodRun = 0 ∧ s.ports[p].badRun = 0 ∧
    s.ports[p].silence = false ∧ s.ports[p].assembly = .idle ∧ s.ports[p].reference = none ∧
    s.ports[p].counters = ⟨0, 0, 0, 0, 0, 0⟩ ∧ s.ports[p].grant = (if p = 0 then .full else .none) ∧
    s.ports[p].queue = [] ∧ s.ports[p].condition = none ∧ s.ports[p].attention = false ∧ s.ports[p].marks = .all) ∧
  (∀ i : Fin 16, s.sources[i] = ⟨.down, ⟨true, 2, 3, 30, 4, 200⟩, 0, 0, 0, none, none, 0, 0, 0, 0, 0⟩) ∧
  (∀ k : Fin 64, s.slots[k].state = .free ∧ s.slots[k].picture = none ∧ s.slots[k].holds = 0) ∧ s.freeSlots = 64 ∧
  (∀ k : Fin 4, s.stills[k] = none) ∧ s.starvation = ⟨0, 0, 0, none⟩ ∧
  (∀ e : Fin 128, s.library[e] = none) ∧
  (∀ c : Fin 24, s.screens[c].enabled = true ∧ s.screens[c].cadence = .a ∧ s.screens[c].width = 240 ∧
    s.screens[c].height = 68 ∧ s.screens[c].start = none ∧ s.screens[c].state = .dark ∧
    s.screens[c].active = none ∧ s.screens[c].standby = .empty) ∧
  s.rateA = 60 ∧ s.rateB = 50 ∧ (∀ i : Fin 16, s.ramp[i] = 2 * (i.val + 1)) ∧
  s.palette.toList = [⟨0, 0, 0⟩, ⟨255, 255, 255⟩, ⟨255, 0, 0⟩, ⟨0, 255, 0⟩, ⟨0, 0, 255⟩, ⟨255, 255, 0⟩, ⟨0, 255, 255⟩,
    ⟨255, 0, 255⟩, ⟨128, 128, 128⟩] ++ List.replicate 7 ⟨0, 0, 0⟩ ∧
  (∀ k : Fin 8, s.rotations[k] = ⟨[], 0⟩) ∧ (∀ n : Fin 32, s.scenes[n] = none) ∧
  s.serial = 0 ∧ s.job = none ∧ s.engineBusy = false ∧ (∀ a : Fin 1024, s.cues[a].kind = .empty) ∧
  (∀ r : Fin 4, s.runners[r] = ⟨.idle, 0, [], 0, none, none⟩) ∧ s.time = ⟨0, 0, false⟩ ∧
  (∀ n : Fin 16, s.alarms[n] = ⟨false, 0, 0, 0, 0, .none, none⟩) ∧
  (∀ n : Fin 16, s.triggers[n] = ⟨false, 0, .qualified, 0, 0, false, .none, none⟩) ∧
  s.served = 15 ∧ s.loading = true ∧ s.store.outcome = .none

/-- The laws hold in the state after reset. That the image area is in its canonical form, nothing listed and every byte
erased, is the model's choice (FlashLaw, log 10). -/
def Obligations.LawsHoldAtReset : Prop :=
  State.reset.QueueLaw ∧ State.reset.RunnerLaw ∧ State.reset.FlashLaw ∧ State.reset.RetiredLaw ∧
    State.reset.GrantLaw ∧ State.reset.AreaLaw ∧ State.reset.TablesLaw

/-- (1) POWER_ON: the whole part is as at reset, but for the flash, which is kept; a save in flight leaves its
contents not given and its CRC-32 failing (log 12). (2) START_UP_END without a valid image: every table, parameter and
setting stays as it was, and the sources, screens, attention conditions and store are settled (R176 steps 3 to 6). (3)
START_UP_END with a valid image: the tables, rates, parameters, settings and grants are those that the image gives, each by
its owner's rule, and the rest is settled from them. In (3) it is the model's choice, and no owner's rule, that a library
entry whose stored 2-byte size is not its record's size is left empty and the image stays valid (DEDUCED, log 18), and what
becomes of a screen's ticks due and last picture (logs 6 and 17). (4) Which images are valid (R175; the marks of a broken save and of a
flash that did not answer are logs 12 and 13). (5) Outside START-UP LOAD the end of start-up does not arise (log 4). -/
def Obligations.PowerOnAndStartUp : Prop :=
  (∀ s : State, ∃ t : State, exec .powerOn s = .next t ∧
      t = { State.reset with
        store := { State.reset.store with flash := t.store.flash }
        freeCount := t.freeCount
        pending := s.pending } ∧
      (s.saving = false → t.store.flash = s.store.flash ∧ t.freeCount = s.freeCount) ∧
      (s.saving = true → t.store.flash.crcFails = true ∧ t.store.flash.unknown.isSome = true)) ∧
  (∀ (s : State) (answered : Bool), s.store.state = .startUpLoad answered → validImage answered s.store.flash = none →
      ∃ t : State, exec .startUpEnd s = .next t ∧ StartUpSettled .powerOnEmpty s t) ∧
  (∀ (s : State) (answered : Bool) (im : Image), s.store.state = .startUpLoad answered →
      validImage answered s.store.flash = some im →
      ∃ t u : State, exec .startUpEnd s = .next t ∧ TablesFrom im s u ∧ StartUpSettled .powerOnImage u t) ∧
  (∀ (answered : Bool) (f : Flash) (im : Image),
      let header := f.readBytes 0 16
      let length := beNat ((header.drop 2).take 4)
      validImage answered f = some im ↔
        answered = true ∧ f.crcFails = false ∧ beNat (header.take 2) = 1 ∧ 16 + length ≤ 262144 ∧
          (crc32 (f.readBytes 16 length)).toNat = beNat ((header.drop 6).take 4) ∧
          parseContent (f.readBytes 16 length) = some im) ∧
  ∀ s : State, s.loading = false → exec .startUpEnd s = .next s

/-! ### Feed ports -/

/-- (1) A well-formed cell that arrives OUT OF SYNC: the good run grows, and its eighth cell brings the link IN SYNC,
which takes a DOWN source to ACQUIRING once start-up has ended; the cell itself does nothing else. (2) An idle cell
that arrives IN SYNC ends the bad run and does nothing else. -/
def Obligations.WellFormedCellsServeTheLink : Prop :=
  (∀ (s : State) (p : Fin 16) (cell : List Byte) (c : Instr),
      c ∈ [Instr.bandCell p cell, .controlCell p cell, .idleCell p cell, .controlCellOutOfSync p cell] →
      s.ports[p].link = .outOfSync → classify cell ≠ .malformed →
      (s.ports[p].goodRun < 7 → exec c s = .next (s.withPort p
        { s.ports[p] with silence := true, goodRun := s.ports[p].goodRun + 1 })) ∧
      (7 ≤ s.ports[p].goodRun →
        let u := s.withPort p { s.ports[p] with silence := true, link := .inSync, goodRun := 0, badRun := 0 }
        ∃ t : State, exec c s = .next t ∧
          SameButMarks t (if s.sources[p].state = .down ∧ s.loading = false then
            u.withSource p s.sources[p].acquiringFrom else u))) ∧
  (∀ (s : State) (p : Fin 16) (cell : List Byte), s.ports[p].link = .inSync → classify cell = .idle →
      exec (.idleCell p cell) s = .next (s.withPort p { s.ports[p] with silence := true, badRun := 0 }))

/-- (1) A malformed cell is counted; it ends the good run, and the fourth of a bad run takes the link OUT OF SYNC. (2)
The silence timer's expiry ends the good run OUT OF SYNC and the link IN SYNC; a timer that is stopped does not expire
(log 4). What the loss of sync leaves: the picture in progress abandoned, the source's READY slot RETIRED if held and FREE
otherwise, the source DOWN, and the event DOWN raised (R14, R22, R32, R42); what the event does to the triggers is
AlarmsAndTriggersStartRunners. -/
def Obligations.TheLinkIsLost : Prop :=
  (∀ (s : State) (p : Fin 16) (cell : List Byte), classify cell = .malformed →
      let x : Port := { s.ports[p] with
        silence := true, counters := { s.ports[p].counters with malformed := s.ports[p].counters.malformed + 1 } }
      (s.ports[p].link = .outOfSync → exec (.malformedCell p cell) s = .next (s.withPort p { x with goodRun := 0 })) ∧
      (s.ports[p].link = .inSync → s.ports[p].badRun < 3 →
        exec (.malformedCell p cell) s = .next (s.withPort p { x with badRun := x.badRun + 1 })) ∧
      (s.ports[p].link = .inSync → 3 ≤ s.ports[p].badRun →
        ∃ t : State, exec (.malformedCell p cell) s = .next t ∧ LinkLost s t p x)) ∧
  (∀ (s : State) (p : Fin 16),
      (s.ports[p].silence = false → exec (.silenceTimerExpiry p) s = .next s) ∧
      (s.ports[p].silence = true → s.ports[p].link = .outOfSync →
        exec (.silenceTimerExpiry p) s = .next (s.withPort p { s.ports[p] with goodRun := 0 })) ∧
      (s.ports[p].silence = true → s.ports[p].link = .inSync →
        ∃ t : State, exec (.silenceTimerExpiry p) s = .next t ∧ LinkLost s t p s.ports[p]))

/-- A control cell that arrives IN SYNC: discarded under grant NONE, BUSY in START-UP LOAD, FULL when the queue holds 4,
queued otherwise. A BUSY or FULL reply carries the wall fault code of the part at that moment (R157, R168). -/
def Obligations.ControlCellsAreQueued : Prop :=
  ∀ (s : State) (p : Fin 16) (cell : List Byte) (r : Request), s.ports[p].link = .inSync → classify cell = .control r →
    let x : Port := { s.ports[p] with silence := true, badRun := 0 }
    let replied (status : ReplyStatus) := exec (.controlCell p cell) s =
      .next (s.withPort p { x with lane := x.lane ++ [replyCell r.tag r.code status s.wallFault []] })
    (s.ports[p].grant = .none → exec (.controlCell p cell) s = .next (s.withPort p x)) ∧
    (s.ports[p].grant ≠ .none → s.loading = true → replied .busy) ∧
    (s.ports[p].grant ≠ .none → s.loading = false → 4 ≤ s.ports[p].queue.length → replied .full) ∧
    (s.ports[p].grant ≠ .none → s.loading = false → s.ports[p].queue.length < 4 →
      exec (.controlCell p cell) s = .next (s.withPort p { x with queue := x.queue ++ [r] }))

/-- (1) A band in sequence that is not the picture's last is written as received and counted, and a failed check sets
the errored mark. (2) A band is counted and discarded where no picture is assembled: in a source or store state
without assembly (R5), or where it is no first band, by its index or for want of the first-band mark, while the assembler
is IDLE or DISCARDING (R13). (3) A band that is no first band and is not in sequence is a band gap: the picture is
abandoned, the band discarded, a gap picture counted, and ERRORED reported (R9; LastBandsPublish says what a report
does). -/
def Obligations.BandsAreWrittenOrDiscarded : Prop :=
  (∀ (s : State) (p : Fin 16) (cell : List Byte) (b : BandCell) (k : Fin 64) (n : Byte) (f : Format) (e : Nat) (m : Bool),
      s.ports[p].link = .inSync → classify cell = .band b → s.assembles p = true →
      s.ports[p].assembly = .assembling k n f e m → b.first = false → 1 ≤ e → b.index = e → b.last = false →
      e + 1 ≠ f.height →
      exec (.bandCell p cell) s = .next ((s.withSlot k { s.slots[k] with bands := s.slots[k].bands ++ [b.payload] }).withPort p
        { s.ports[p] with
          silence := true
          badRun := 0
          assembly := .assembling k n f (e + 1) (m || bandFails b f.width)
          counters := { s.ports[p].counters with
            received := s.ports[p].counters.received + 1
            checkFailed := if bandFails b f.width then s.ports[p].counters.checkFailed + 1 else s.ports[p].counters.checkFailed } })) ∧
  (∀ (s : State) (p : Fin 16) (cell : List Byte) (b : BandCell),
      s.ports[p].link = .inSync → classify cell = .band b →
      s.assembles p = false ∨
        ((s.ports[p].assembly = .idle ∨ s.ports[p].assembly = .discarding) ∧ (b.index ≠ 0 ∨ b.first = false)) →
      exec (.bandCell p cell) s = .next (s.withPort p { s.ports[p] with
        silence := true
        badRun := 0
        counters := { s.ports[p].counters with
          received := s.ports[p].counters.received + 1
          discarded := s.ports[p].counters.discarded + 1 } })) ∧
  (∀ (s : State) (p : Fin 16) (cell : List Byte) (b : BandCell) (k : Fin 64) (n : Byte) (f : Format) (e : Nat) (m : Bool),
      s.ports[p].link = .inSync → classify cell = .band b → s.assembles p = true →
      s.ports[p].assembly = .assembling k n f e m → b.index ≠ 0 ∨ b.first = false →
      b.first = true ∨ b.index ≠ e ∨ (b.last = true ↔ b.index + 1 ≠ f.height) →
      exec (.bandCell p cell) s = .next (State.reportErrored p 0 ((s.withSlot k Slot.empty).withPort p { s.ports[p] with
        silence := true
        badRun := 0
        assembly := .discarding
        counters := { s.ports[p].counters with
          received := s.ports[p].counters.received + 1
          discarded := s.ports[p].counters.discarded + 1
          gaps := s.ports[p].counters.gaps + 1 } })))

/-- (1) A first band that can begin a picture is granted the lowest FREE slot, whose record is filled; with no slot FREE
the drop is recorded and the picture is starved. (2) A first band that cannot begin a picture is discarded, counted as a gap
picture and reported ERRORED (R7). (3) A first band that arrives while ASSEMBLING truncates the picture in progress, whose
slot is FREE again and which is reported ERRORED, and is then taken as (1) and (2) say (R8); LastBandsPublish says what a
report does. -/
def Obligations.FirstBandsAreGrantedOrStarved : Prop :=
  (∀ (s : State) (p : Fin 16) (cell : List Byte) (b : BandCell) (f : Format),
    s.ports[p].link = .inSync → classify cell = .band b → s.assembles p = true →
    s.ports[p].assembly = .idle ∨ s.ports[p].assembly = .discarding →
    b.index = 0 → b.format = some f → f.usable = true → b.last = false →
    let c : PortCounters := { s.ports[p].counters with received := s.ports[p].counters.received + 1 }
    (∀ k : Fin 64, s.slots[k].state = .free → (∀ j : Fin 64, j < k → s.slots[j].state ≠ .free) →
      exec (.bandCell p cell) s = .next ((s.withSlot k ⟨.filling, some ⟨p, b.number, f⟩, 0, [b.payload]⟩).withPort p
        { s.ports[p] with
          silence := true
          badRun := 0
          assembly := .assembling k b.number f 1 (bandFails b f.width)
          counters := { c with checkFailed := if bandFails b f.width then c.checkFailed + 1 else c.checkFailed } })) ∧
    ((∀ k : Fin 64, s.slots[k].state ≠ .free) →
      exec (.bandCell p cell) s = .next ({ s.withSource p { s.sources[p] with starved := s.sources[p].starved + 1 } with
        starvation := {
          thisSecond := min 65535 (s.starvation.thisSecond + 1)
          lastSecond := s.starvation.lastSecond
          total := s.starvation.total + 1
          lastDrop := some (p, s.time.seconds) } }.withPort p
        { s.ports[p] with
          silence := true
          badRun := 0
          assembly := .discarding
          counters := { c with discarded := c.discarded + 1 } }))) ∧
  (∀ (s : State) (p : Fin 16) (cell : List Byte) (b : BandCell) (f : Format),
    s.ports[p].link = .inSync → classify cell = .band b → s.assembles p = true →
    s.ports[p].assembly = .idle ∨ s.ports[p].assembly = .discarding →
    b.index = 0 → b.format = some f → f.usable = false ∨ b.last = true →
    exec (.bandCell p cell) s = .next (State.reportErrored p 0 (s.withPort p { s.ports[p] with
      silence := true
      badRun := 0
      assembly := .discarding
      counters := { s.ports[p].counters with
        received := s.ports[p].counters.received + 1
        discarded := s.ports[p].counters.discarded + 1
        gaps := s.ports[p].counters.gaps + 1 } }))) ∧
  ∀ (s : State) (p : Fin 16) (cell : List Byte) (b : BandCell) (f g : Format) (old : Fin 64) (n : Byte) (e : Nat) (m : Bool),
    s.ports[p].link = .inSync → classify cell = .band b → s.assembles p = true →
    s.ports[p].assembly = .assembling old n g e m → b.index = 0 → b.format = some f →
    let v := State.reportErrored p 0 ((s.withSlot old Slot.empty).withPort p { s.ports[p] with
      silence := true
      badRun := 0
      counters := { s.ports[p].counters with
        received := s.ports[p].counters.received + 1
        truncated := s.ports[p].counters.truncated + 1 } })
    let c := v.ports[p].counters
    (f.usable = true → b.last = false → ∀ k : Fin 64, k = old ∨ s.slots[k].state = .free →
      (∀ j : Fin 64, j < k → j ≠ old ∧ s.slots[j].state ≠ .free) →
      exec (.bandCell p cell) s = .next ((v.withSlot k ⟨.filling, some ⟨p, b.number, f⟩, 0, [b.payload]⟩).withPort p
        { v.ports[p] with
          assembly := .assembling k b.number f 1 (bandFails b f.width)
          counters := { c with checkFailed := if bandFails b f.width then c.checkFailed + 1 else c.checkFailed } })) ∧
    (f.usable = false ∨ b.last = true →
      exec (.bandCell p cell) s = .next (State.reportErrored p 0 (v.withPort p { v.ports[p] with
        assembly := .discarding
        counters := { c with discarded := c.discarded + 1, gaps := c.gaps + 1 } })))

/-- (1) The last band of a clean picture: its slot becomes READY, the owner's READY slot before it is RETIRED if held and
FREE otherwise, and the CLEAN report of an unchanged format is taken by a QUALIFIED source. (2) In every source state: a
last band whose picture is clean publishes it and reports CLEAN; one whose picture is errored, by its own check or by an
earlier band's, leaves the slot FREE and reports ERRORED, both with the skipped number (R11). (3) What a CLEAN report does
to the source in ACQUIRING, QUALIFIED, SUSPECT and FAILED, with the format unchanged and with a change of format (R24, R26
to R29). (4) What an ERRORED report does in these states (R24, R26 to R28). (5) The entry to QUALIFIED ends every WAIT
QUALIFIED of the source (R135); what its event does to the triggers is AlarmsAndTriggersStartRunners. -/
def Obligations.LastBandsPublish : Prop :=
  (∀ (s : State) (p : Fin 16) (cell : List Byte) (b : BandCell) (k : Fin 64) (n : Byte) (f : Format) (e : Nat),
    s.ports[p].link = .inSync → classify cell = .band b → s.loading = false → s.sources[p].state = .qualified →
    s.sources[p].format = some f → s.ports[p].assembly = .assembling k n f e false → s.slots[k].state = .filling →
    b.first = false → 1 ≤ e → b.index = e → b.last = true → e + 1 = f.height → bandFails b f.width = false →
    ∃ t : State, exec (.bandCell p cell) s = .next t ∧
      t.slots[k] = { s.slots[k] with state := .ready, bands := s.slots[k].bands ++ [b.payload] } ∧
      (∀ j : Fin 64, j ≠ k → t.slots[j] = if s.readySlot p = some j then
        (if 0 < s.slots[j].holds then { s.slots[j] with state := .retired } else Slot.empty) else s.slots[j]) ∧
      { t with slots := s.slots } =
        (s.withSource p { s.sources[p] with
          completed := s.sources[p].completed + 1
          skipped := s.sources[p].skipped + BitVec.ofNat 32 (State.skippedNumber s.ports[p].reference n)
          cleanRun := min 255 (s.sources[p].cleanRun + 1)
          stale := some s.sources[p].params.staleLimit }).withPort p { s.ports[p] with
            silence := true
            badRun := 0
            assembly := .idle
            reference := some n
            counters := { s.ports[p].counters with received := s.ports[p].counters.received + 1 } }) ∧
  (∀ (s : State) (p : Fin 16) (cell : List Byte) (b : BandCell) (k : Fin 64) (n : Byte) (f : Format) (e : Nat) (m : Bool),
      s.ports[p].link = .inSync → classify cell = .band b → s.assembles p = true →
      s.ports[p].assembly = .assembling k n f e m → s.slots[k].state = .filling →
      b.first = false → 1 ≤ e → b.index = e → b.last = true → e + 1 = f.height →
      let fails := bandFails b f.width
      let skipped := State.skippedNumber s.ports[p].reference n
      let x : Port := { s.ports[p] with
        silence := true
        badRun := 0
        assembly := .idle
        reference := some n
        counters := { s.ports[p].counters with
          received := s.ports[p].counters.received + 1
          checkFailed := if fails then s.ports[p].counters.checkFailed + 1 else s.ports[p].counters.checkFailed } }
      (m = false → fails = false → ∃ v : State, exec (.bandCell p cell) s = .next (v.reportClean p f skipped) ∧
        v.slots[k] = { s.slots[k] with state := .ready, bands := s.slots[k].bands ++ [b.payload] } ∧
        (∀ j : Fin 64, j ≠ k → v.slots[j] = if s.readySlot p = some j then
          (if 0 < s.slots[j].holds then { s.slots[j] with state := .retired } else Slot.empty) else s.slots[j]) ∧
        { v with slots := s.slots } = s.withPort p x) ∧
      (m = true ∨ fails = true → exec (.bandCell p cell) s =
        .next (State.reportErrored p skipped ((s.withSlot k Slot.empty).withPort p x)))) ∧
  (∀ (s : State) (i : Fin 16) (f : Format) (skipped : Nat),
      let x := s.sources[i]
      let y : Source := { x with
        completed := x.completed + 1, skipped := x.skipped + BitVec.ofNat 32 skipped, format := some f }
      let changed : Prop := ∃ g : Format, x.format = some g ∧ g ≠ f
      let t := s.reportClean i f skipped
      (x.state = .acquiring → ¬ changed →
        AcquiringTested s t i { y with seen := x.seen + 1, cleanRun := x.cleanRun + 1 }) ∧
      (x.state = .acquiring ∨ x.state = .qualified ∨ x.state = .suspect → changed →
        AcquiringTested s t i { y with state := .acquiring, seen := 1, cleanRun := 1, missRun := 0, stale := none }) ∧
      (x.state = .qualified → ¬ changed → t = s.withSource i
        { y with cleanRun := min 255 (x.cleanRun + 1), stale := some x.params.staleLimit }) ∧
      (x.state = .suspect → ¬ changed → x.cleanRun + 1 < x.params.passRun →
        t = s.withSource i { y with cleanRun := x.cleanRun + 1, stale := some x.params.staleLimit }) ∧
      (x.state = .suspect → ¬ changed → x.params.passRun ≤ x.cleanRun + 1 → ∃ w : State,
        SameButMarks w (s.withSource i { y with
          state := .qualified, cleanRun := x.cleanRun + 1, missRun := 0, stale := some x.params.staleLimit }) ∧
        t = w.endQualifiedWaits i) ∧
      (x.state = .failed → t = s.withSource i y)) ∧
  (∀ (s : State) (i : Fin 16) (skipped : Nat),
      let x := s.sources[i]
      let y : Source := { x with errored := x.errored + 1, skipped := x.skipped + BitVec.ofNat 32 skipped }
      let t := s.reportErrored i skipped
      (x.state = .acquiring → AcquiringTested s t i { y with seen := x.seen + 1, cleanRun := 0 }) ∧
      (x.state = .qualified → SameButMarks t (s.withSource i { y with state := .suspect, missRun := 1, cleanRun := 0 })) ∧
      (x.state = .suspect → x.missRun + 1 < x.params.suspectLimit →
        t = s.withSource i { y with missRun := x.missRun + 1, cleanRun := 0 }) ∧
      (x.state = .suspect → x.params.suspectLimit ≤ x.missRun + 1 → ∃ w : State,
        SameButMarks w (s.withSource i
          { y with state := .failed, missRun := x.missRun + 1, cleanRun := 0, stale := none }) ∧
        t = w.raiseEvent i .failed) ∧
      (x.state = .failed → t = s.withSource i y)) ∧
  ∀ (s : State) (i : Fin 16),
    (∀ (r : Fin 4) (o : StopOption) (n : Nat), s.runners[r].state = .waiting (.qualified i o n) →
      (s.endQualifiedWaits i).runners[r] = s.runners[r].resumed) ∧
    (∀ r : Fin 4, (∀ (o : StopOption) (n : Nat), s.runners[r].state ≠ .waiting (.qualified i o n)) →
      (s.endQualifiedWaits i).runners[r] = s.runners[r]) ∧
    SameButMarks { s.endQualifiedWaits i with runners := s.runners } s

/-! ### Sources -/

/-- A stale expiry is a miss: QUALIFIED becomes SUSPECT, and SUSPECT becomes FAILED at the suspect limit, which raises the
event FAILED (R27, R32); a timer that is stopped does not expire (log 4). -/
def Obligations.StaleExpiriesAreMisses : Prop :=
  ∀ (s : State) (i : Fin 16),
    let x := s.sources[i]
    (x.stale = none → exec (.staleTimerExpiry i) s = .next s) ∧
    (x.stale ≠ none → x.state = .qualified → ∃ t : State, exec (.staleTimerExpiry i) s = .next t ∧
      SameButMarks t (s.withSource i
        { x with state := .suspect, missRun := 1, cleanRun := 0, stale := some x.params.staleLimit })) ∧
    (x.stale ≠ none → x.state = .suspect → x.missRun + 1 < x.params.suspectLimit →
      exec (.staleTimerExpiry i) s = .next (s.withSource i
        { x with missRun := x.missRun + 1, cleanRun := 0, stale := some x.params.staleLimit })) ∧
    (x.stale ≠ none → x.state = .suspect → x.params.suspectLimit ≤ x.missRun + 1 →
      ∃ w : State, exec (.staleTimerExpiry i) s = .next (w.raiseEvent i .failed) ∧
        SameButMarks w (s.withSource i
          { x with state := .failed, missRun := x.missRun + 1, cleanRun := 0, stale := none }))

/-- (1) SET SOURCE replaces the six parameters; a change of the enable takes the source to DISABLED, or to ACQUIRING or
DOWN by its link; the reply carries the wall fault code of the part before that change (the model's, log 14). At a disable
the picture in progress is abandoned, its FILLING slot FREE again, the assembler is IDLE, and the source's READY slot is
RETIRED if held and FREE otherwise (R15, R20, R42). (2) REQUALIFY moves a source to ACQUIRING; DISABLED and DOWN sources
stay as they are, and a number outside 0 to 15 is refused (its detail 0 is the model's, log 22). -/
def Obligations.SourceRequestsSetTheSource : Prop :=
  (∀ (s : State) (p : Fin 16) (r : Request), s.Serves 1 p r → s.saving = false →
      let f := splitFields sourceWidths r.params
      sourceBad f = none →
      let i := Fin.ofNat 16 (fld f 0)
      let x := s.sources[i]
      (x.params.enable = (paramsOf f).enable →
        ∃ t : State, exec .setSource s = .next t ∧
          AnsweredWith s.wallFault s t (s.withSource i { x with params := paramsOf f }) p r .done []) ∧
      (x.params.enable = false → (paramsOf f).enable = true →
        ∃ t : State, exec .setSource s = .next t ∧ AnsweredWith s.wallFault s t (s.withSource i
          (if s.ports[i].link = .inSync then { x with params := paramsOf f }.acquiringFrom
            else { x with params := paramsOf f, state := .down })) p r .done []) ∧
      (x.params.enable = true → (paramsOf f).enable = false →
        let v := s.abandoned s.ports[i].assembly
        ∃ t : State, exec .setSource s = .next t ∧
          AnsweredWith s.wallFault (s.withPort i { s.ports[i] with assembly := .idle, reference := none }) t
            { s.withSource i { x with params := paramsOf f, state := .disabled, stale := none } with slots := t.slots } p r
            .done [] ∧
          ∀ k : Fin 64, t.slots[k] = if v.readySlot i = some k then v.slots[k].retired else v.slots[k])) ∧
  (∀ (s : State) (p : Fin 16) (r : Request), s.Serves 2 p r →
      let n := (byteAt r.params 0).toNat
      let i := Fin.ofNat 16 n
      (n ≤ 15 → s.sources[i].state ≠ .disabled → s.sources[i].state ≠ .down → ∃ t : State, exec .requalify s = .next t ∧
        AnsweredAs s t (s.withSource i s.sources[i].acquiringFrom) p r .done []) ∧
      (n ≤ 15 → s.sources[i].state = .disabled ∨ s.sources[i].state = .down → ∃ t : State, exec .requalify s = .next t ∧
        AnsweredAs s t s p r .done []) ∧
      (15 < n → ∃ t : State, exec .requalify s = .next t ∧ RefusedAs s t p r .fieldOutOfRange (some 0)))

/-! ### The picture pool -/

/-- R43: a RETIRED slot stays RETIRED while it is held: a publish, a retirement and a change of a source's state do not
change it, and it becomes FREE at the RELEASE or UNPIN that brings its hold count to 0. -/
def Obligations.RetiredSlotsWaitForTheirHolds : Prop :=
  ∀ (s : State) (k : Fin 64), s.slots[k].state = .retired →
    (∀ (i : Fin 16) (j : Fin 64), j ≠ k → (s.publish i j).slots[k] = s.slots[k]) ∧
    (∀ i : Fin 16, (s.retire i).slots[k] = s.slots[k]) ∧
    (∀ (i : Fin 16) (st : SourceState), (s.setSourceState i st).slots[k] = s.slots[k]) ∧
    (s.slots[k].holds = 1 → (s.release k).slots[k] = Slot.empty ∧ ∀ n : Fin 4, (s.unpin n k).slots[k] = Slot.empty) ∧
    (1 < s.slots[k].holds →
      (s.release k).slots[k] = { s.slots[k] with holds := s.slots[k].holds - 1 } ∧
      ∀ n : Fin 4, (s.unpin n k).slots[k] = { s.slots[k] with holds := s.slots[k].holds - 1 })

/-- (1) CAPTURE pins the READY slot of an eligible feed in place of the slot the still pinned; nothing to capture and
fields out of range are refused. (2) RELEASE STILL takes the pin away; an empty still is refused. -/
def Obligations.StillsPinAndRelease : Prop :=
  (∀ (s : State) (p : Fin 16) (r : Request), s.Serves 4 p r →
      let n := (byteAt r.params 0).toNat
      let i := Fin.ofNat 16 (byteAt r.params 1).toNat
      let k : Fin 4 := Fin.ofNat 4 n
      (n ≤ 3 → (byteAt r.params 1).toNat ≤ 15 → ∀ slot : Fin 64, s.eligible i = true → s.readySlot i = some slot →
        ∃ t : State, exec .capture s = .next t ∧
          AnsweredAs s t { s with stills := put s.stills k (some slot), slots := t.slots } p r .done
            (byte1 slot.val ++ byte1 i.val ++ [(s.slots[slot].picture.map (·.number)).getD 0]) ∧
          (s.stills[k] = none → t.slots = put s.slots slot { s.slots[slot] with holds := s.slots[slot].holds + 1 }) ∧
          (∀ old : Fin 64, s.stills[k] = some old → old ≠ slot →
            t.slots[slot] = { s.slots[slot] with holds := s.slots[slot].holds + 1 } ∧
            t.slots[old] = (if s.slots[old].state = .retired ∧ s.slots[old].holds ≤ 1 then Slot.empty
              else { s.slots[old] with holds := s.slots[old].holds - 1 }) ∧
            ∀ j : Fin 64, j ≠ old → j ≠ slot → t.slots[j] = s.slots[j]) ∧
          (s.stills[k] = some slot → 1 ≤ s.slots[slot].holds → t.slots = s.slots)) ∧
      (n ≤ 3 → (byteAt r.params 1).toNat ≤ 15 → s.eligible i = false → ∃ t : State, exec .capture s = .next t ∧
        RefusedAs s t p r .nothingToCapture none) ∧
      (3 < n → ∃ t : State, exec .capture s = .next t ∧ RefusedAs s t p r .fieldOutOfRange (some 0)) ∧
      (n ≤ 3 → 15 < (byteAt r.params 1).toNat → ∃ t : State, exec .capture s = .next t ∧
        RefusedAs s t p r .fieldOutOfRange (some 1))) ∧
  (∀ (s : State) (p : Fin 16) (r : Request), s.Serves 5 p r →
      let n := (byteAt r.params 0).toNat
      let k : Fin 4 := Fin.ofNat 4 n
      (3 < n → ∃ t : State, exec .releaseStill s = .next t ∧ RefusedAs s t p r .fieldOutOfRange (some 0)) ∧
      (n ≤ 3 → s.stills[k] = none → ∃ t : State, exec .releaseStill s = .next t ∧
        RefusedAs s t p r .stillNotPinned none) ∧
      (n ≤ 3 → ∀ slot : Fin 64, s.stills[k] = some slot → ∃ t : State, exec .releaseStill s = .next t ∧
        AnsweredAs s t { s.withSlot slot (if s.slots[slot].state = .retired ∧ s.slots[slot].holds ≤ 1 then Slot.empty
          else { s.slots[slot] with holds := s.slots[slot].holds - 1 }) with stills := put s.stills k none } p r .done []))

/-! ### The layout library -/

/-- LOAD LAYOUT stores a record that passes every check, is BUSY while a save or a load holds the entry, and refuses with
the condition of the first check that fails. -/
def Obligations.LoadLayoutStoresTheRecord : Prop :=
  ∀ (s : State) (p : Fin 16) (r : Request), s.Serves 7 p r →
    let n := (byteAt r.params 0).toNat
    let e := Fin.ofNat 128 n
    let record := r.params.drop 1
    (127 < n → ∃ t : State, exec .loadLayout s = .next t ∧ RefusedAs s t p r .fieldOutOfRange (some 0)) ∧
    (n ≤ 127 → s.entryBusy e = true → ∃ t : State, exec .loadLayout s = .next t ∧ AnsweredAs s t s p r .busy []) ∧
    (n ≤ 127 → s.entryBusy e = false → ∀ (c : Code) (d : Nat), recordBad record = some (c, d) →
      ∃ t : State, exec .loadLayout s = .next t ∧ RefusedAs s t p r c (some d)) ∧
    (n ≤ 127 → s.entryBusy e = false → recordBad record = none → ∃ t : State, exec .loadLayout s = .next t ∧
      AnsweredAs s t { s with library := put s.library e (some (layoutOf record)) } p r .done
        (byte1 n ++ byte2 (layoutOf record).check ++ flag s.library[e].isSome))

/-- A record that passes the checks: one to four windows, numbers ascending, layers distinct, rectangles inside the full
size, areas within the budget, a pulse only with a border, a backup source with BACKUP and only with it. -/
def Obligations.AcceptedRecordsAreSound : Prop :=
  ∀ bs : List Byte, recordBad bs = none →
    let ws := (layoutOf bs).windows
    1 ≤ ws.length ∧ ws.length ≤ 4 ∧ ws.Pairwise (fun a b => a.number < b.number ∧ a.layer ≠ b.layer) ∧
    (∀ w ∈ ws, w.top + w.height ≤ 68 ∧ w.left + w.width ≤ 240 ∧ (w.pulse ≠ none → w.border ≠ none) ∧
      (w.fallback = .backup ↔ w.backup ≠ none)) ∧
    (ws.map fun w => w.height * w.width).sum ≤ 24480

/-- ERASE LAYOUT empties an entry, whatever it held; it is refused to OBSERVE and BUSY as LOAD LAYOUT is. -/
def Obligations.EraseLayoutEmptiesTheEntry : Prop :=
  ∀ (s : State) (p : Fin 16) (r : Request),
    let n := (byteAt r.params 0).toNat
    let e := Fin.ofNat 128 n
    (s.Serves 8 p r → 127 < n → ∃ t : State, exec .eraseLayout s = .next t ∧
      RefusedAs s t p r .fieldOutOfRange (some 0)) ∧
    (s.nextRequest = some (p, r) → r.code = 8 → r.params.length = 1 → s.ports[p].grant = .observe →
      s.ports[p].attention = false → ∃ t : State, exec .eraseLayout s = .next t ∧ RefusedAs s t p r .observeOnly none) ∧
    (s.Serves 8 p r → n ≤ 127 → s.entryBusy e = true → ∃ t : State, exec .eraseLayout s = .next t ∧
      AnsweredAs s t s p r .busy []) ∧
    (s.Serves 8 p r → n ≤ 127 → s.entryBusy e = false → ∃ t : State, exec .eraseLayout s = .next t ∧
      AnsweredAs s t { s with library := put s.library e none } p r .done (byte1 n ++ flag s.library[e].isSome))

/-! ### Screens -/

/-- A generator's tick is delivered to every enabled screen of its cadence and to every runner that counts its ticks
(log 6, log 7). -/
def Obligations.CadenceTicksAreDelivered : Prop :=
  ∀ (s : State) (k : Cadence), ∃ t : State, exec (.cadenceTick k) s = .next t ∧
    (∀ c : Fin 24, t.screens[c] = if s.screens[c].enabled = true ∧ s.screens[c].cadence = k then
      { s.screens[c] with ticksDue := s.screens[c].ticksDue + 1 } else s.screens[c]) ∧
    (∀ (r : Fin 4) (n : Nat), s.runners[r].state = .waiting (.pictures k n false) →
      t.runners[r] = { s.runners[r] with
        state := .waiting (if n ≤ 1 then .pictures k n true else .pictures k (n - 1) false) }) ∧
    (∀ r : Fin 4, (∀ n : Nat, s.runners[r].state ≠ .waiting (.pictures k n false)) → t.runners[r] = s.runners[r]) ∧
    { t with screens := s.screens, runners := s.runners } = s

/-- (1) A screen takes no tick that was not delivered to it, and none while DISABLED, the part being left as it was (the
model's, logs 4 and 6; that the emitted picture is kept is log 17); a DARK screen whose standby is not ARMED emits a
picture of its geometry in the colour of palette entry 0. (2) A SHOWING screen whose standby is not ARMED takes its active
context through the stages of a tick: each window is resolved or kept, the holds of its legs are moved, its dissolve
stepped and its pulse stepped; the picture is composed from what they leave. (3) The moving of holds: LATCH adds 1 to a
slot's holds (R44) and RELEASE takes 1 away, a RETIRED slot whose last it was becoming FREE (R45); a leg that keeps its
slot makes no call, one that moves to another slot latches it and then releases its old one, and one that moves to a
colour releases its old one, each leg of a window for itself (R81); a dissolve that ends releases its from-latch (R82);
and the latches and from-latches of all windows of a context are released one after another (R76, R90). (4) The picture of
a SHOWING screen: its geometry, the background colour where no window lies, and elsewhere the window of the highest layer
there, with its border, its main leg and the second leg of its dissolve (R85; a leg's picture is the slot's that it
latches); a colour as a pixel. The frame that the pixels are read from is log 17's. In (4) the order of lines and pixels in
a band's payload, lines from the top and pixels from the left, is the model's (DEDUCED, log 26), and so is the slate colour
for a latched slot without a picture (log 21). -/
def Obligations.ScreensEmitAtTheirTicks : Prop :=
  (∀ (s : State) (c : Fin 24),
      let x := s.screens[c]
      (x.enabled = false ∨ x.ticksDue = 0 → exec (.screenTick c) s = .next s) ∧
      (x.enabled = true → 0 < x.ticksDue → x.active = none → (∀ y : Context, x.standby ≠ .armed y) →
        exec (.screenTick c) s = .next (s.withScreen c
          { x with ticksDue := x.ticksDue - 1, output := some ⟨x.width, x.height, s.palette[(0 : Fin 16)].pixel, []⟩ }))) ∧
  (∀ (s : State) (c : Fin 24) (x : Context),
      s.screens[c].enabled = true → 0 < s.screens[c].ticksDue → s.screens[c].active = some x →
      (∀ y : Context, s.screens[c].standby ≠ .armed y) →
      ∃ t : State, exec (.screenTick c) s = .next t ∧
        TickComposed (s.withScreen c { s.screens[c] with ticksDue := s.screens[c].ticksDue - 1 }) t c x) ∧
  (∀ (s : State) (k : Fin 64) (old : Option (Fin 64)) (w v : LiveWindow) (rest : List LiveWindow),
    let fromLatch (y : LiveWindow) : Option (Fin 64) := y.dissolve.bind fun d => d.latch
    s.latch k = s.withSlot k { s.slots[k] with holds := s.slots[k].holds + 1 } ∧
    s.release k = s.withSlot k (if s.slots[k].state = .retired ∧ s.slots[k].holds ≤ 1 then Slot.empty
      else { s.slots[k] with holds := s.slots[k].holds - 1 }) ∧
    s.releaseOpt none = s ∧ s.releaseOpt (some k) = s.release k ∧
    s.moveLatch old old = s ∧
    (old ≠ some k → s.moveLatch old (some k) = (s.latch k).releaseOpt old) ∧
    (old ≠ none → s.moveLatch old none = s.releaseOpt old) ∧
    s.moveWindow (w, v) = (s.moveLatch w.latch v.latch).moveLatch (fromLatch w) (fromLatch v) ∧
    ((∃ d : Dissolve, w.dissolve = some d ∧ d.step + 1 = d.length) → s.releaseEnded w = s.releaseOpt (fromLatch w)) ∧
    ((∀ d : Dissolve, w.dissolve = some d → d.step + 1 ≠ d.length) → s.releaseEnded w = s) ∧
    s.releaseWindows [] = s ∧
    s.releaseWindows (w :: rest) = ((s.releaseOpt w.latch).releaseOpt (fromLatch w)).releaseWindows rest) ∧
  (∀ (s : State) (c : Fin 24) (x : Context) (i j : Nat), s.screens[c].active = some x →
    let f := s.frameOf c
    f.width = s.screens[c].width ∧ f.height = s.screens[c].height ∧
    ((∀ w ∈ x.windows, ¬ w.copy.Covers i j) → f.pixel i j = s.palette[Fin.ofNat 16 x.background].pixel) ∧
    ∀ w ∈ x.windows, w.copy.layer ≤ 3 → w.copy.Covers i j →
      (∀ v ∈ x.windows, v.copy.Covers i j → v = w ∨ v.copy.layer < w.copy.layer) →
      s.ShowsPixel w (i - 8 * w.copy.left) (j - 16 * w.copy.top) (f.pixel i j)) ∧
  ∀ a : Colour, a.pixel.extractLsb' 11 5 = a.red.extractLsb' 3 5 ∧ a.pixel.extractLsb' 5 6 = a.green.extractLsb' 2 6 ∧
    a.pixel.extractLsb' 0 5 = a.blue.extractLsb' 3 5

/-- (1) A window that is not frozen: its main leg resolves its current source, and the second leg of its dissolve the
from-source, each to a slot or a colour with its status, by the rules of resolution, fallback and scale, each leg for itself
(R77, R78, R80, R84); nothing else of the window changes. (2) A frozen window keeps the latches of both legs, and their
statuses but for a leg with no latch, which has SLATE FALLBACK (R79, R84). -/
def Obligations.LegsResolveOrFallBack : Prop :=
  ∀ (s : State) (w : LiveWindow),
    (w.freeze = false → ∃ (slot : Option (Fin 64)) (status : RenderStatus),
      LegShows s w.copy w.current w.latch slot status ∧
      (w.dissolve = none → s.stageWindow w = { w with latch := slot, status := some status, fromStatus := none }) ∧
      ∀ d : Dissolve, w.dissolve = some d → ∃ (fromSlot : Option (Fin 64)) (fromStatus : RenderStatus),
        LegShows s w.copy d.source d.latch fromSlot fromStatus ∧
        s.stageWindow w = { w with
          latch := slot
          status := some status
          dissolve := some { d with latch := fromSlot }
          fromStatus := some fromStatus }) ∧
    (w.freeze = true →
      let kept (latch : Option (Fin 64)) (status : Option RenderStatus) : Option RenderStatus :=
        if latch = none then some .slateFallback else status
      (w.dissolve = none → s.stageWindow w = { w with status := kept w.latch w.status, fromStatus := none }) ∧
      ∀ d : Dissolve, w.dissolve = some d →
        s.stageWindow w = { w with status := kept w.latch w.status, fromStatus := kept d.latch w.fromStatus })

/-- (1) The dissolve stage adds 1 to the step of every dissolve, and ends the one whose step reaches its length. (2)
The pulse stage: a staged OFF removes the pulse, a staged pulse starts at phase 0 on a window without one, and on a
window with one it takes effect when the phase wraps to 0. -/
def Obligations.DissolvesAndPulsesStep : Prop :=
  (∀ (w : LiveWindow),
      (w.dissolve = none → stepDissolve w = w) ∧
      ∀ d : Dissolve, w.dissolve = some d →
        (d.step + 1 = d.length → stepDissolve w = { w with dissolve := none, fromStatus := none }) ∧
        (d.step + 1 ≠ d.length → stepDissolve w = { w with dissolve := some { d with step := d.step + 1 } })) ∧
  (∀ (w : LiveWindow),
      (w.staged = some .off → stepPulse w = { w with pulse := none, staged := none }) ∧
      (∀ a b : Nat, w.staged = some (.set a b) → w.pulse = none →
        stepPulse w = { w with pulse := some ⟨a, b, 0⟩, staged := none }) ∧
      (∀ (a b : Nat) (y : Pulse), w.staged = some (.set a b) → w.pulse = some y → (y.phase + 1) % y.period = 0 →
        stepPulse w = { w with pulse := some ⟨a, b, 0⟩, staged := none }) ∧
      (∀ (a b : Nat) (y : Pulse), w.staged = some (.set a b) → w.pulse = some y → (y.phase + 1) % y.period ≠ 0 →
        stepPulse w = { w with pulse := some { y with phase := (y.phase + 1) % y.period } }) ∧
      (∀ y : Pulse, w.staged = none → w.pulse = some y →
        stepPulse w = { w with pulse := some { y with phase := (y.phase + 1) % y.period } }) ∧
      (w.staged = none → w.pulse = none → stepPulse w = w))

/-- The swap of a SHOWING or DARK screen at a tick with its standby ARMED: the contexts change places, every latch and
from-latch of the one that was active is released, and it stands reduced as PREVIOUS, or the standby is EMPTY if the screen
was DARK; the rest of the tick is made on the new active context (R76). (1) The screen is no PENDING member. (2) It is a
PENDING member of a job: its member is SWAPPED, and a job that was ARMED is SWAPPING while a member is PENDING; at the last
SWAPPED report the job is DONE, COMPLETE if every member is SWAPPED and PARTIAL otherwise, its result is handed on and the
engine is offered to the waiting runners, all before the rest of the tick (R118, R119, R125; TakeEntriesShareTheEngine says
what the offer does). (3) The reduction (R75). -/
def Obligations.ArmedStandbysSwap : Prop :=
  (∀ (s : State) (c : Fin 24) (y : Context), s.screens[c].enabled = true → 0 < s.screens[c].ticksDue →
    s.screens[c].standby = .armed y →
    let u : State := { s.withScreen c { s.screens[c].swapped y with ticksDue := s.screens[c].ticksDue - 1 } with
      slots := (s.releaseWindows ((s.screens[c].active.map (·.windows)).getD [])).slots }
    (s.pendingMember c = false → ∃ v t : State, exec (.screenTick c) s = .next t ∧ SameButMarks v u ∧ TickComposed v t c y) ∧
    ∀ j : Job, s.job = some j → s.pendingMember c = true →
      let members := j.members.map fun m => if m.screen = c ∧ m.outcome = .pending then { m with outcome := .swapped } else m
      let result : JobResult := if ∀ m ∈ members, m.outcome = .swapped then .complete else .partialResult
      ((∃ m ∈ members, m.outcome = .pending) → ∃ v t : State, exec (.screenTick c) s = .next t ∧
        SameButMarks v { u with
          job := some { j with members := members, phase := if j.phase = .armed then .swapping else j.phase } } ∧
        TickComposed v t c y) ∧
      ((∀ m ∈ members, m.outcome ≠ .pending) → ∃ v t : State, exec (.screenTick c) s = .next t ∧
        SameButMarks v { u with
          job := some { j with members := members, phase := .done, result := some result }
          runners := Vector.ofFn fun q => s.runners[q].handed j result q } ∧
        TickComposed v.offerEngine t c y)) ∧
  ∀ w : LiveWindow, reduceWindow w = { w with
    latch := none
    dissolve := none
    freeze := w.copy.freeze
    pulse := (match w.staged with
      | some .off => none
      | some (.set period onCount) => some ⟨period, onCount, period - 1⟩
      | none => w.pulse.map fun y => { y with phase := y.period - 1 })
    staged := none
    status := none
    fromStatus := none }

/-- The reply carries the wall fault code of the part with the settings replaced and no more (the model's, log 14). (1)
The two refusals on the screen as it stands: a change of cadence or geometry of a PENDING member, and a change of geometry
while SHOWING. (2) Settings that change nothing but the start layout. (3) A screen that is no PENDING member, with any
changes together that pass the tests: the settings are replaced, the contexts of a DISABLED screen tested against a new
geometry, a disable or an enable made, and a change of cadence drops the ticks of the old generator; a disable releases
every latch of the active context, and nothing else moves a hold (R70, R90 to R92). (4) The disable of a PENDING member:
it is SKIPPED-DISABLED with its load ended, a LOADED or ARMED standby becomes EMPTY; the next load begins, or the job is
armed, or it goes on as it is, and with no member left PENDING it is DONE, PARTIAL, its result handed on and the engine
offered to the waiting runners (R90, R119, R120, R125; TakeEntriesShareTheEngine says what the offer does). -/
def Obligations.SetScreenWritesTheSettings : Prop :=
  ∀ (s : State) (p : Fin 16) (r : Request), s.Serves 10 p r → s.saving = false →
    let f := r.params.map (·.toNat)
    let c := Fin.ofNat 24 (fld f 0)
    let x := s.screens[c]
    let g := settingsOf f
    let resized : Prop := x.width ≠ g.width ∨ x.height ≠ g.height
    let fault := (s.withScreen c
      { x with enabled := g.enabled, cadence := g.cadence, width := g.width, height := g.height, start := g.start }).wallFault
    firstBad 0 (screenTests f) = none →
    (s.pendingMember c = true → x.cadence ≠ g.cadence ∨ resized → ∃ t : State, exec .setScreen s = .next t ∧
      RefusedAs s t p r .memberOfTake none) ∧
    (s.pendingMember c = false → resized → x.state = .showing → ∃ t : State, exec .setScreen s = .next t ∧
      RefusedAs s t p r .screenNotDark none) ∧
    (¬ resized → x.enabled = g.enabled → x.cadence = g.cadence → ∃ t : State, exec .setScreen s = .next t ∧
      AnsweredWith fault s t (s.withScreen c { x with start := g.start }) p r .done []) ∧
    (¬ resized → x.enabled = g.enabled → x.cadence ≠ g.cadence → s.pendingMember c = false →
      ∃ t : State, exec .setScreen s = .next t ∧
        AnsweredWith fault s t (s.withScreen c { x with cadence := g.cadence, start := g.start, ticksDue := 0 }) p r .done []) ∧
    (¬ resized → x.enabled = false → g.enabled = true → x.cadence = g.cadence → ∃ t : State, exec .setScreen s = .next t ∧
      AnsweredWith fault s t (s.withScreen c { x with enabled := true, start := g.start }) p r .done []) ∧
    (¬ resized → x.enabled = true → g.enabled = false → x.cadence = g.cadence → s.pendingMember c = false →
      ∃ t : State, exec .setScreen s = .next t ∧
        AnsweredWith fault s t { s.withScreen c { x with
          enabled := false
          start := g.start
          active := x.active.map (Context.mapWindows darkenWindow)
          ticksDue := 0
          output := none } with slots := t.slots } p r .done [] ∧
        t.slots = (s.releaseWindows ((x.active.map (·.windows)).getD [])).slots) ∧
    (resized → x.state = .dark → x.enabled = g.enabled → x.cadence = g.cadence → s.pendingMember c = false →
      ∃ t : State, exec .setScreen s = .next t ∧
        AnsweredWith fault s t (s.withScreen c { x with width := g.width, height := g.height, start := g.start }) p r .done []) ∧
    (resized → x.enabled = false → g.enabled = false → x.cadence = g.cadence → s.pendingMember c = false →
      ∃ t : State, exec .setScreen s = .next t ∧ AnsweredWith fault s t (s.withScreen c
        (Screen.refit { x with width := g.width, height := g.height, start := g.start })) p r .done []) ∧
    (s.pendingMember c = false → ¬ (resized ∧ x.state = .showing) →
      let replaced : Screen :=
        { x with enabled := g.enabled, cadence := g.cadence, width := g.width, height := g.height, start := g.start }
      let tested := if x.enabled = false ∧ (x.width ≠ g.width ∨ x.height ≠ g.height) then replaced.refit else replaced
      let switched : Screen := if x.enabled = true ∧ g.enabled = false then
        { tested with active := tested.active.map (Context.mapWindows darkenWindow), ticksDue := 0, output := none } else tested
      ∃ t : State, exec .setScreen s = .next t ∧
        AnsweredWith fault s t { s.withScreen c
          { switched with ticksDue := if x.cadence = g.cadence then switched.ticksDue else 0 } with slots := t.slots } p r
          .done [] ∧
        t.slots = (if x.enabled = true ∧ g.enabled = false then
          (s.releaseWindows ((x.active.map (·.windows)).getD [])).slots else s.slots)) ∧
    ∀ j : Job, s.job = some j → s.pendingMember c = true → ¬ resized → x.cadence = g.cadence → x.enabled = true →
      g.enabled = false →
      let members := j.members.map fun m => if m.screen = c ∧ m.outcome = .pending then { m with
        outcome := .skippedDisabled
        load := if m.load = some .inProgress then some .completed else m.load } else m
      let screens := put s.screens c { x with
        enabled := false
        start := g.start
        active := x.active.map (Context.mapWindows darkenWindow)
        standby := x.standby.emptied
        ticksDue := 0
        output := none }
      let armed := Vector.ofFn fun d => screens[d].armedIn (j.members.map (·.screen)) d
      let leaves (k : Job) (screens : Vector Screen 24) (runners : Vector Runner 4) : Prop :=
        ∃ v : State, exec .setScreen s = .next v.offerEngine ∧ AnsweredWith fault s v { s with
          slots := (s.releaseWindows ((x.active.map (·.windows)).getD [])).slots
          screens := screens
          job := some k
          runners := runners } p r .done []
      let ended : Job := { j with members := members, phase := .done, result := some .partialResult }
      let handed := Vector.ofFn fun q => s.runners[q].handed j .partialResult q
      (j.phase ≠ .loading ∨ (∃ m ∈ members, m.loadIs .inProgress = true) →
        ((∃ m ∈ members, m.outcome = .pending) → leaves { j with members := members } screens s.runners) ∧
        ((∀ m ∈ members, m.outcome ≠ .pending) → leaves ended screens handed)) ∧
      (j.phase = .loading → (∀ m ∈ members, m.loadIs .inProgress = false) →
        (∀ (before : List Member) (m : Member) (rest : List Member), members = before ++ m :: rest →
          (∀ y ∈ before, y.loadIs .notBegun = false) → m.loadIs .notBegun = true →
          leaves { j with members := before ++ { m with load := some .inProgress } :: rest } screens s.runners) ∧
        ((∀ m ∈ members, m.loadIs .notBegun = false) →
          ((∃ m ∈ members, m.outcome = .pending) → leaves { j with members := members, phase := .armed } armed s.runners) ∧
          ((∀ m ∈ members, m.outcome ≠ .pending) → leaves ended armed handed)))

/-- (1) SET CADENCE: a range failure, BUSY in a save, CADENCE IN USE, or the new rate. (2) SET PALETTE replaces all 16
entries at once. -/
def Obligations.SetCadenceAndSetPalette : Prop :=
  (∀ (s : State) (p : Fin 16) (r : Request), s.Serves 11 p r →
      let n := (byteAt r.params 0).toNat
      let rate := (byteAt r.params 1).toNat
      let legal : Prop := rate = 24 ∨ rate = 25 ∨ rate = 30 ∨ rate = 50 ∨ rate = 60
      let used : Prop := ∃ c : Fin 24, s.screens[c].enabled = true ∧ s.screens[c].cadence = cadenceOf n
      (1 < n → ∃ t : State, exec .setCadence s = .next t ∧ RefusedAs s t p r .fieldOutOfRange (some 0)) ∧
      (n ≤ 1 → ¬ legal → ∃ t : State, exec .setCadence s = .next t ∧ RefusedAs s t p r .fieldOutOfRange (some 1)) ∧
      (n ≤ 1 → legal → s.saving = true → ∃ t : State, exec .setCadence s = .next t ∧ AnsweredAs s t s p r .busy []) ∧
      (n ≤ 1 → legal → s.saving = false → used → ∃ t : State, exec .setCadence s = .next t ∧
        RefusedAs s t p r .cadenceInUse none) ∧
      (n ≤ 1 → legal → s.saving = false → ¬ used → ∃ t : State, exec .setCadence s = .next t ∧
        AnsweredAs s t (if n = 0 then { s with rateA := rate } else { s with rateB := rate }) p r .done [])) ∧
  (∀ (s : State) (p : Fin 16) (r : Request), s.Serves 12 p r → s.saving = false →
      ∃ t : State, exec .setPalette s = .next t ∧ AnsweredAs s t { s with palette := t.palette } p r .done [] ∧
        ∀ i : Fin 16, t.palette[i] =
          ⟨byteAt r.params (3 * i.val), byteAt r.params (3 * i.val + 1), byteAt r.params (3 * i.val + 2)⟩)

/-- (1) FREEZE sets the freeze of a window of the active context; a screen that is not SHOWING and a window that it
does not hold are refused. (2) SET PULSE stages a pulse or OFF on a window with a border; a window without one is
refused. -/
def Obligations.FreezeAndSetPulseActOnAWindow : Prop :=
  (∀ (s : State) (p : Fin 16) (r : Request), s.Serves 13 p r →
      let f := r.params.map (·.toNat)
      let c := Fin.ofNat 24 (fld f 0)
      firstBad 0 (freezeTests f) = none →
      (s.screens[c].state ≠ .showing → ∃ t : State, exec .freeze s = .next t ∧ RefusedAs s t p r .screenNotShowing none) ∧
      (∀ x : Context, s.screens[c].enabled = true → s.screens[c].active = some x →
        x.windows.find? (fun y => y.copy.number = fld f 1) = none →
        ∃ t : State, exec .freeze s = .next t ∧ RefusedAs s t p r .noSuchWindow none) ∧
      (∀ (x : Context) (w : LiveWindow), s.Shows c (fld f 1) x w → ∃ t : State, exec .freeze s = .next t ∧
        AnsweredAs s t (s.withScreen c (s.screens[c].withWindow (fld f 1) fun y => { y with freeze := fld f 2 = 1 })) p r
          .done [])) ∧
  (∀ (s : State) (p : Fin 16) (r : Request), s.Serves 14 p r →
      let f := r.params.map (·.toNat)
      let c := Fin.ofNat 24 (fld f 0)
      firstBad 0 (setPulseTests f) = none → ∀ (x : Context) (w : LiveWindow), s.Shows c (fld f 1) x w →
      (w.copy.border = none → ∃ t : State, exec .setPulse s = .next t ∧ RefusedAs s t p r .fieldOutOfRange (some 2)) ∧
      (w.copy.border ≠ none → ∃ t : State, exec .setPulse s = .next t ∧
        AnsweredAs s t (s.withScreen c (s.screens[c].withWindow (fld f 1) fun y =>
          { y with staged := some (if fld f 2 = 1 then .set (fld f 3) (fld f 4) else .off) })) p r .done []))

/-! ### Window takes, the ramp and rotation -/

/-- WINDOW TAKE of a window: no change, the completion of a running dissolve, a cut, a dissolve within the area budget, or
the cut that takes its place. The presence byte before the dissolve's length in the result is the model's (log 15). -/
def Obligations.WindowTakesCutOrDissolve : Prop :=
  ∀ (s : State) (p : Fin 16) (r : Request), s.Serves 16 p r →
    let f := r.params.map (·.toNat)
    let c := Fin.ofNat 24 (fld f 0)
    let n := fld f 1
    let source := fld f 2
    firstBad 0 (windowTakeTests f) = none → ∀ (x : Context) (w : LiveWindow), s.Shows c n x w →
    let released := s.releaseOpt (w.dissolve.bind (·.latch))
    let taken (g : LiveWindow → LiveWindow) (num : Nat) (length : Option Nat) (cut : Bool) : Prop :=
      ∃ t : State, exec .windowTake s = .next t ∧
        AnsweredAs s t (released.withScreen c (s.screens[c].withWindow n g)) p r .done
          (byte1 c.val ++ byte1 n ++ byte1 source ++ byte1 num ++ present 1 (length.map byte1) ++ flag cut ++
            flag w.dissolve.isSome ++ byte2 (areaInUse ((s.screens[c].withWindow n g).active.map (·.windows)).get!))
    (source = w.current → w.dissolve = none → taken id 2 none false) ∧
    (source = w.current → w.dissolve ≠ none → taken completeWindow 2 none false) ∧
    (source ≠ w.current → transitionOf f w = .cut → taken (cutWindow source) 0 none false) ∧
    (∀ l : Nat, source ≠ w.current → transitionOf f w = .dissolve l → areaWith n x.windows ≤ 24480 →
      taken (dissolveWindow source l) 1 (some l) false) ∧
    (∀ l : Nat, source ≠ w.current → transitionOf f w = .dissolve l → 24480 < areaWith n x.windows →
      taken (cutWindow source) 0 none true)

/-- (1) ROTATE moves the list's position to the first entry of its search and takes the window to that entry's feed as a
WINDOW TAKE without an override does: a cut, a dissolve within the area budget, or the cut that takes its place. An
exhausted search changes nothing and is DONE; its result beyond what R108 names, and the presence byte before a dissolve's
length, are the model's (log 15). A screen that is not SHOWING and a window that it does not hold are refused. (2) The
entries that ROTATE tries: after the position, wrapping, the entry at the position last; the one taken is the first whose
feed is eligible and not the window's current source, and a search takes none when the list has none. (3) LOAD ROTATION
replaces a list's sequence and sets its position to 0. -/
def Obligations.RotationListsStepAWindow : Prop :=
  (∀ (s : State) (p : Fin 16) (r : Request), s.Serves 17 p r →
      let f := r.params.map (·.toNat)
      let c := Fin.ofNat 24 (fld f 0)
      let n := fld f 1
      let k : Fin 8 := Fin.ofNat 8 (fld f 2)
      firstBad 0 (rotateTests f) = none →
      (s.screens[c].state ≠ .showing → ∃ t : State, exec .rotate s = .next t ∧ RefusedAs s t p r .screenNotShowing none) ∧
      (∀ x : Context, s.screens[c].enabled = true → s.screens[c].active = some x →
        x.windows.find? (fun y => y.copy.number = n) = none →
        ∃ t : State, exec .rotate s = .next t ∧ RefusedAs s t p r .noSuchWindow none) ∧
      ∀ (x : Context) (w : LiveWindow), s.Shows c n x w →
      (rotateSearch s s.rotations[k] w.current = none → ∃ t : State, exec .rotate s = .next t ∧
        AnsweredAs s t s p r .done (byte1 c.val ++ byte1 n ++ byte1 w.current ++ byte1 2 ++ [0, 0] ++ flag false ++
          flag false ++ byte2 (areaInUse x.windows) ++ byte1 k.val ++ byte1 s.rotations[k].position ++ flag true)) ∧
      ∀ (i : Nat) (feed : Fin 16), rotateSearch s s.rotations[k] w.current = some (i, feed) →
        let moved := { s.releaseOpt (w.dissolve.bind (·.latch)) with
          rotations := put s.rotations k { s.rotations[k] with position := i } }
        let taken (g : LiveWindow → LiveWindow) (num : Nat) (length : Option Nat) (cut : Bool) : Prop :=
          ∃ t : State, exec .rotate s = .next t ∧
            AnsweredAs s t (moved.withScreen c (s.screens[c].withWindow n g)) p r .done
              (byte1 c.val ++ byte1 n ++ byte1 feed.val ++ byte1 num ++ present 1 (length.map byte1) ++ flag cut ++
                flag w.dissolve.isSome ++ byte2 (areaInUse ((s.screens[c].withWindow n g).active.map (·.windows)).get!) ++
                byte1 k.val ++ byte1 i ++ flag false)
        (w.copy.transition = .cut → taken (cutWindow feed.val) 0 none false) ∧
        (∀ l : Nat, w.copy.transition = .dissolve l → areaWith n x.windows ≤ 24480 →
          taken (dissolveWindow feed.val l) 1 (some l) false) ∧
        (∀ l : Nat, w.copy.transition = .dissolve l → 24480 < areaWith n x.windows →
          taken (cutWindow feed.val) 0 none true)) ∧
  ((∀ (l : Rotation) (j : Nat), j < l.entries.length → l.tries[j]? = some ((l.position + 1 + j) % l.entries.length)) ∧
    (∀ l : Rotation, l.tries.length = l.entries.length) ∧
    (∀ (s : State) (l : Rotation) (current i : Nat) (feed : Fin 16), rotateSearch s l current = some (i, feed) →
      l.entries[i]? = some feed ∧ s.eligible feed = true ∧ feed.val ≠ current ∧
      ∃ j : Nat, l.tries[j]? = some i ∧ ∀ (m a : Nat) (earlier : Fin 16), m < j → l.tries[m]? = some a →
        l.entries[a]? = some earlier → ¬ (s.eligible earlier = true ∧ earlier.val ≠ current)) ∧
    ∀ (s : State) (l : Rotation) (current : Nat), rotateSearch s l current = none ↔
      ∀ feed ∈ l.entries, ¬ (s.eligible feed = true ∧ feed.val ≠ current)) ∧
  (∀ (s : State) (p : Fin 16) (r : Request), s.Serves 19 p r →
      let f := r.params.map (·.toNat)
      let k : Fin 8 := Fin.ofNat 8 (fld f 0)
      (7 < fld f 0 → ∃ t : State, exec .loadRotation s = .next t ∧ RefusedAs s t p r .fieldOutOfRange (some 0)) ∧
      (∀ i : Nat, fld f 0 ≤ 7 → rotationBad (fld f 1) (f.drop 2) = some i → ∃ t : State, exec .loadRotation s = .next t ∧
        RefusedAs s t p r .fieldOutOfRange (some i)) ∧
      (fld f 0 ≤ 7 → rotationBad (fld f 1) (f.drop 2) = none → s.saving = true →
        ∃ t : State, exec .loadRotation s = .next t ∧ AnsweredAs s t s p r .busy []) ∧
      (fld f 0 ≤ 7 → rotationBad (fld f 1) (f.drop 2) = none → s.saving = false →
        ∃ t : State, exec .loadRotation s = .next t ∧
          AnsweredAs s t { s with rotations := put s.rotations k ⟨(f.drop 2).map (Fin.ofNat 16), 0⟩ } p r .done []))

/-- SET RAMP refuses an entry above 32 at its index, is refused to OBSERVE, is BUSY in a save, and replaces all 16 entries
at once; it changes no dissolve. -/
def Obligations.SetRampReplacesTheEntries : Prop :=
  ∀ (s : State) (p : Fin 16) (r : Request),
    (∀ i : Nat, s.Serves 18 p r → i < 16 → 32 < (byteAt r.params i).toNat →
      (∀ j : Nat, j < i → (byteAt r.params j).toNat ≤ 32) → ∃ t : State, exec .setRamp s = .next t ∧
        RefusedAs s t p r .fieldOutOfRange (some i)) ∧
    (s.nextRequest = some (p, r) → r.code = 18 → r.params.length = 16 → s.ports[p].grant = .observe →
      s.ports[p].attention = false → ∃ t : State, exec .setRamp s = .next t ∧ RefusedAs s t p r .observeOnly none) ∧
    (s.Serves 18 p r → (∀ i : Nat, i < 16 → (byteAt r.params i).toNat ≤ 32) → s.saving = true →
      ∃ t : State, exec .setRamp s = .next t ∧ AnsweredAs s t s p r .busy []) ∧
    (s.Serves 18 p r → (∀ i : Nat, i < 16 → (byteAt r.params i).toNat ≤ 32) → s.saving = false →
      ∃ t : State, exec .setRamp s = .next t ∧ AnsweredAs s t { s with ramp := t.ramp } p r .done [] ∧
        ∀ i : Fin 16, t.ramp[i] = (byteAt r.params i.val).toNat)

/-! ### Scenes and the take engine -/

/-- (1) LOAD SCENE: a range failure of the number, BUSY, the first check of the record that fails, or the scene
stored. (2) ERASE SCENE empties an entry, whatever it held. -/
def Obligations.ScenesAreLoadedAndErased : Prop :=
  (∀ (s : State) (p : Fin 16) (r : Request), s.Serves 22 p r →
      let f := r.params.map (·.toNat)
      let n := Fin.ofNat 32 (fld f 0)
      (31 < fld f 0 → ∃ t : State, exec .loadScene s = .next t ∧ RefusedAs s t p r .fieldOutOfRange (some 0)) ∧
      (fld f 0 ≤ 31 → s.sceneBusy n = true → ∃ t : State, exec .loadScene s = .next t ∧ AnsweredAs s t s p r .busy []) ∧
      (∀ (c : Code) (d : Nat), fld f 0 ≤ 31 → s.sceneBusy n = false → sceneBad (fld f 1) (f.drop 2) = some (c, d) →
        ∃ t : State, exec .loadScene s = .next t ∧ RefusedAs s t p r c (some d)) ∧
      (fld f 0 ≤ 31 → s.sceneBusy n = false → sceneBad (fld f 1) (f.drop 2) = none →
        ∃ t : State, exec .loadScene s = .next t ∧
          AnsweredAs s t { s with scenes := put s.scenes n (some (membersOf (f.drop 2))) } p r .done
            (byte1 n.val ++ byte1 (fld f 1) ++ flag s.scenes[n].isSome))) ∧
  (∀ (s : State) (p : Fin 16) (r : Request), s.Serves 23 p r →
      let k := (byteAt r.params 0).toNat
      let n := Fin.ofNat 32 k
      (31 < k → ∃ t : State, exec .eraseScene s = .next t ∧ RefusedAs s t p r .fieldOutOfRange (some 0)) ∧
      (k ≤ 31 → s.sceneBusy n = true → ∃ t : State, exec .eraseScene s = .next t ∧ AnsweredAs s t s p r .busy []) ∧
      (k ≤ 31 → s.sceneBusy n = false → ∃ t : State, exec .eraseScene s = .next t ∧
        AnsweredAs s t { s with scenes := put s.scenes n none } p r .done (flag s.scenes[n].isSome)))

/-- (1) TAKE SCENE and TAKE LAYOUT: BUSY while the engine is; an empty scene and an empty layout are refused; otherwise,
with every member's screen enabled, a job with the next serial is LOADING its first member. (2) With screens DISABLED, their
members are SKIPPED-DISABLED and the first member of the others is loaded; with every screen DISABLED the job is DONE within
its acceptance, PARTIAL, and the engine is offered to the waiting runners (R114, R117, R119, R125; TakeEntriesShareTheEngine
says what the offer does). -/
def Obligations.TakesAreAccepted : Prop :=
  (∀ (s : State) (p : Fin 16) (r : Request),
    let n := (byteAt r.params 0).toNat
    let e := (byteAt r.params 1).toNat
    let accepted (i : Instr) (kind : JobKind) (m : Fin 24 × Fin 128) (rest : Scene) : Prop :=
      ∃ t : State, exec i s = .next t ∧ AnsweredAs s t { s with
        serial := s.serial + 1
        job := some ⟨s.serial + 1, kind, .port p, ⟨m.1, some m.2, some .inProgress, .pending⟩ ::
          rest.map fun y => ⟨y.1, some y.2, some .notBegun, .pending⟩, .loading, none⟩ } p r .done
        (byte2 (s.serial + 1).toNat ++ byte1 kind.num ++ byte1 (rest.length + 1) ++ byte1 0 ++ byte1 0)
    (s.Serves 25 p r → n ≤ 31 → s.engineBusy = true → ∃ t : State, exec .takeScene s = .next t ∧
      AnsweredAs s t s p r .busy []) ∧
    (s.Serves 25 p r → n ≤ 31 → s.engineBusy = false → s.scenes[Fin.ofNat 32 n] = none →
      ∃ t : State, exec .takeScene s = .next t ∧ RefusedAs s t p r .emptyScene (some 0)) ∧
    (∀ (m : Fin 24 × Fin 128) (rest : Scene), s.Serves 25 p r → n ≤ 31 → s.engineBusy = false →
      s.scenes[Fin.ofNat 32 n] = some (m :: rest) →
      (∀ y ∈ m :: rest, s.library[y.2] ≠ none ∧ s.screens[y.1].enabled = true) →
      accepted .takeScene (.scene (Fin.ofNat 32 n)) m rest) ∧
    (∀ (ms : Scene) (i : Nat), s.Serves 25 p r → n ≤ 31 → s.engineBusy = false → s.scenes[Fin.ofNat 32 n] = some ms →
      (∃ y, ms[i]? = some y ∧ s.library[y.2] = none) → (∀ j < i, ∀ y, ms[j]? = some y → s.library[y.2] ≠ none) →
      ∃ t : State, exec .takeScene s = .next t ∧ RefusedAs s t p r .emptyLayout (some i)) ∧
    (s.Serves 26 p r → n ≤ 23 → e ≤ 127 → s.engineBusy = true → ∃ t : State, exec .takeLayout s = .next t ∧
      AnsweredAs s t s p r .busy []) ∧
    (s.Serves 26 p r → n ≤ 23 → e ≤ 127 → s.engineBusy = false → s.library[Fin.ofNat 128 e] = none →
      ∃ t : State, exec .takeLayout s = .next t ∧ RefusedAs s t p r .emptyLayout (some 0)) ∧
    (s.Serves 26 p r → n ≤ 23 → e ≤ 127 → s.engineBusy = false → s.library[Fin.ofNat 128 e] ≠ none →
      s.screens[Fin.ofNat 24 n].enabled = true → accepted .takeLayout .layout (Fin.ofNat 24 n, Fin.ofNat 128 e) [])) ∧
  ∀ (s : State) (p : Fin 16) (r : Request) (i : Instr) (kind : JobKind) (ms : Scene),
    let n := (byteAt r.params 0).toNat
    let e := (byteAt r.params 1).toNat
    (s.Serves 25 p r ∧ n ≤ 31 ∧ s.scenes[Fin.ofNat 32 n] = some ms ∧ i = .takeScene ∧ kind = .scene (Fin.ofNat 32 n)) ∨
      (s.Serves 26 p r ∧ n ≤ 23 ∧ e ≤ 127 ∧ ms = [(Fin.ofNat 24 n, Fin.ofNat 128 e)] ∧ i = .takeLayout ∧ kind = .layout) →
    s.engineBusy = false → (∀ y ∈ ms, s.library[y.2] ≠ none) →
    let fresh (y : Fin 24 × Fin 128) : Member :=
      ⟨y.1, some y.2, some .notBegun, if s.screens[y.1].enabled = true then .pending else .skippedDisabled⟩
    let job (members : List Member) (phase : Phase) (result : Option JobResult) : Job :=
      ⟨s.serial + 1, kind, .port p, members, phase, result⟩
    let reply (phase : Phase) : List Byte := byte2 (s.serial + 1).toNat ++ byte1 kind.num ++ byte1 ms.length ++
      byte1 (ms.countP fun y => s.screens[y.1].enabled = false) ++ byte1 phase.num
    (∀ (skipped : Scene) (m : Fin 24 × Fin 128) (rest : Scene), ms = skipped ++ m :: rest →
      (∀ y ∈ skipped, s.screens[y.1].enabled = false) → s.screens[m.1].enabled = true →
      ∃ t : State, exec i s = .next t ∧ AnsweredAs s t { s with
        serial := s.serial + 1
        job := some (job (skipped.map fresh ++ ⟨m.1, some m.2, some .inProgress, .pending⟩ :: rest.map fresh) .loading none) }
        p r .done (reply .loading)) ∧
    (ms ≠ [] → (∀ y ∈ ms, s.screens[y.1].enabled = false) →
      ∃ t u : State, exec i s = .next t ∧ AnsweredAs s t u.offerEngine p r .done (reply .done) ∧
        { u with ports := s.ports, served := s.served } = { s with
          serial := s.serial + 1
          job := some (job (ms.map fresh) .done (some .partialResult))
          screens := Vector.ofFn fun c => s.screens[c].armedIn (ms.map (·.1)) c })

/-- (1) REVERT arms the PREVIOUS standbys of its screens, all enabled, and its job is ARMED at once. (2) Each member has its
outcome at the acceptance: SKIPPED-DISABLED, PENDING with its PREVIOUS standby ARMED, or REJECTED-NO-PREVIOUS; the job is
ARMED if any is PENDING, and otherwise DONE within its acceptance, PARTIAL, the engine being offered to the waiting runners
(R115, R119, R125). -/
def Obligations.RevertArmsThePreviousContexts : Prop :=
  ∀ (s : State) (p : Fin 16) (r : Request), s.Serves 27 p r →
    let f := r.params.map (·.toNat)
    let screens := (f.drop 1).map (Fin.ofNat 24)
    (∀ (c : Code) (d : Nat), revertBad f = some (c, d) → ∃ t : State, exec .revert s = .next t ∧
      RefusedAs s t p r c (some d)) ∧
    (revertBad f = none → s.engineBusy = true → ∃ t : State, exec .revert s = .next t ∧ AnsweredAs s t s p r .busy []) ∧
    (revertBad f = none → s.engineBusy = false →
      (∀ c ∈ screens, s.screens[c].enabled = true ∧ ∃ x : Context, s.screens[c].standby = .previous x) →
      ∃ t : State, exec .revert s = .next t ∧
        AnsweredAs s t { s with
          serial := s.serial + 1
          job := some ⟨s.serial + 1, .revert, .port p, screens.map fun c => ⟨c, none, none, .pending⟩, .armed, none⟩
          screens := t.screens } p r .done
          (byte2 (s.serial + 1).toNat ++ byte1 2 ++ byte1 screens.length ++ byte1 screens.length ++ byte1 1) ∧
        (∀ (c : Fin 24) (x : Context), c ∈ screens → s.screens[c].standby = .previous x →
          t.screens[c] = { s.screens[c] with standby := .armed x }) ∧
        ∀ c : Fin 24, c ∉ screens → t.screens[c] = s.screens[c]) ∧
    (revertBad f = none → s.engineBusy = false →
      let outcome (c : Fin 24) : MemberOutcome :=
        if s.screens[c].enabled = false then .skippedDisabled
        else match s.screens[c].standby with
          | .previous _ => .pending
          | .empty | .loaded _ | .armed _ => .rejectedNoPrevious
      let job (phase : Phase) (result : Option JobResult) : Job :=
        ⟨s.serial + 1, .revert, .port p, screens.map fun c => ⟨c, none, none, outcome c⟩, phase, result⟩
      let armed (c : Fin 24) : Screen :=
        match s.screens[c].standby with
        | .previous x => if c ∈ screens ∧ outcome c = .pending then { s.screens[c] with standby := .armed x } else s.screens[c]
        | .empty | .loaded _ | .armed _ => s.screens[c]
      let reply (pending : Nat) (phase : Phase) : List Byte := byte2 (s.serial + 1).toNat ++ byte1 2 ++
        byte1 screens.length ++ byte1 pending ++ byte1 phase.num
      ((∃ c ∈ screens, outcome c = .pending) → ∃ t : State, exec .revert s = .next t ∧
        AnsweredAs s t { s with serial := s.serial + 1, job := some (job .armed none), screens := Vector.ofFn armed } p r
          .done (reply (screens.countP fun c => outcome c = .pending) .armed)) ∧
      ((∀ c ∈ screens, outcome c ≠ .pending) → ∃ t u : State, exec .revert s = .next t ∧
        AnsweredAs s t u.offerEngine p r .done (reply 0 .done) ∧
        { u with ports := s.ports, served := s.served } =
          { s with serial := s.serial + 1, job := some (job .done (some .partialResult)) }))

/-- ABORT TAKE ends the job in progress: its PENDING members are ABORTED, their LOADED and ARMED standbys EMPTY, or PREVIOUS
again for a REVERT, while the standby of a load not completed is kept; its result is ABORTED and is handed to a runner that
waits for it; no swap is undone; and the engine is offered to the waiting runners (R119, R122, R125). Without a job it is
refused. -/
def Obligations.AbortTakeEndsTheJob : Prop :=
  ∀ (s : State) (p : Fin 16) (r : Request), s.Serves 28 p r →
    (s.engineBusy = false → ∃ t : State, exec .abortTake s = .next t ∧ RefusedAs s t p r .noTake none) ∧
    ∀ j : Job, s.job = some j → j.phase ≠ .done →
      ∃ t u : State, exec .abortTake s = .next t ∧
        AnsweredAs s t u.offerEngine p r .done
          (byte2 j.serial.toNat ++ byte1 (j.members.countP (·.outcome = .pending))) ∧
        { u with ports := s.ports, served := s.served } = { s with
          job := some { j with members := j.members.map Member.abort, phase := .done, result := some .aborted }
          screens := Vector.ofFn fun c => { s.screens[c] with
            standby := if s.pendingMember c = true then s.screens[c].standby.aborted j.kind else s.screens[c].standby }
          runners := Vector.ofFn fun q => s.runners[q].handed j .aborted q } ∧
        (s.NoneWaits → u.offerEngine = u)

/-- The completion of a load, the layout being read as its entry then stands (R116, R117). (1) A layout that fits, with
another member still to be loaded: the standby holds the copy LOADED, this load is COMPLETED and the next one IN PROGRESS.
(2) A layout that fits, the last to be loaded: the job and every member's LOADED standby, this one's too, are ARMED in the
same event. (3) A layout that does not fit leaves the standby and rejects the member; the next load begins, or the job is
ARMED while a member is PENDING, or, with none, it is DONE, PARTIAL, its result handed on and the engine offered to the
waiting runners (R119, R125). -/
def Obligations.LoadsCompleteIntoTheStandby : Prop :=
  ∀ (s : State) (c : Fin 24) (e : Fin 128) (l : Layout) (j : Job), s.loadInProgress = some (c, e, l) → s.job = some j →
    j.phase = .loading →
    let ended (outcome : MemberOutcome) (m : Member) : Member :=
      if m.outcome = .pending ∧ m.load = some .inProgress then { m with load := some .completed, outcome := outcome } else m
    let holders := j.members.map (·.screen)
    (∀ (before : List Member) (m : Member) (rest : List Member), j.members = before ++ m :: rest →
      (∀ y ∈ before, y.loadIs .notBegun = false) → m.loadIs .notBegun = true →
      let next (outcome : MemberOutcome) : Job := { j with
        members := before.map (ended outcome) ++ { m with load := some .inProgress } :: rest.map (ended outcome) }
      (fits l.windows s.screens[c].width s.screens[c].height = true → ∃ t : State, exec .memberLoadCompletion s = .next t ∧
        SameButMarks t { s.withScreen c { s.screens[c] with standby := .loaded (contextOf e l) } with
          job := some (next .pending) }) ∧
      (fits l.windows s.screens[c].width s.screens[c].height = false → ∃ t : State, exec .memberLoadCompletion s = .next t ∧
        SameButMarks t { s with job := some (next .rejectedGeometry) })) ∧
    ((∀ m ∈ j.members, m.loadIs .notBegun = false) →
      (fits l.windows s.screens[c].width s.screens[c].height = true → ∃ t : State, exec .memberLoadCompletion s = .next t ∧
        SameButMarks t { s with
          job := some { j with members := j.members.map (ended .pending), phase := .armed }
          screens := Vector.ofFn fun d => if d = c then { s.screens[c] with standby := .armed (contextOf e l) }
            else s.screens[d].armedIn holders d }) ∧
      (fits l.windows s.screens[c].width s.screens[c].height = false →
        let rejected := j.members.map (ended .rejectedGeometry)
        let armed := Vector.ofFn fun d => s.screens[d].armedIn holders d
        ((∃ m ∈ rejected, m.outcome = .pending) → ∃ t : State, exec .memberLoadCompletion s = .next t ∧
          SameButMarks t { s with job := some { j with members := rejected, phase := .armed }, screens := armed }) ∧
        ((∀ m ∈ rejected, m.outcome ≠ .pending) → ∃ u : State, exec .memberLoadCompletion s = .next u.offerEngine ∧
          SameButMarks u { s with
            job := some { j with members := rejected, phase := .done, result := some .partialResult }
            screens := armed
            runners := Vector.ofFn fun q => s.runners[q].handed j .partialResult q })))

/-! ### Cue lists and runners -/

/-- LOAD CUES writes a run of entries at once when every entry passes, and reads of the store find them. -/
def Obligations.LoadCuesWritesTheRun : Prop :=
  ∀ (s : State) (p : Fin 16) (r : Request), s.Serves 30 p r →
    let f := splitFields [2, 1] r.params
    let start := fld f 0
    let count := fld f 1
    let entries := cueFields count (r.params.drop 3)
    (∀ i : Nat, runBad start count = some i → ∃ t : State, exec .loadCues s = .next t ∧
      RefusedAs s t p r .fieldOutOfRange (some i)) ∧
    (runBad start count = none → s.saving = true → ∃ t : State, exec .loadCues s = .next t ∧
      AnsweredAs s t s p r .busy []) ∧
    (∀ i : Nat, runBad start count = none → s.saving = false → firstBad 2 (entries.flatMap entryTests) = some i →
      ∃ t : State, exec .loadCues s = .next t ∧ RefusedAs s t p r .fieldOutOfRange (some i)) ∧
    (runBad start count = none → s.saving = false → firstBad 2 (entries.flatMap entryTests) = none →
      ∃ t : State, exec .loadCues s = .next t ∧
        AnsweredAs s t { s with cues := t.cues } p r .done (byte2 start ++ byte1 count) ∧
        ∀ a : Fin 1024, t.cues[a] = if start ≤ a.val ∧ a.val < start + count then
          entryOfFields (entries.getD (a.val - start) []) else s.cues[a])

/-- (1) START CUE starts an IDLE or FAULTED runner; one that is RUNNING or WAITING is refused (R143; the refusal of an
address out of its range is the model's, log 22). (2) RESUME CUE: RETRY leaves a FAULTED runner RUNNING at its entry, SKIP at
the entry after it, and at 1024 after an ADDRESS fault; any other state is refused (R145). That SKIP of a fault of another
kind at 1024 leaves the position there too is the model's choice (log 21). -/
def Obligations.RunnersAreStartedAndResumed : Prop :=
  (∀ (s : State) (p : Fin 16) (r : Request), s.Serves 31 p r →
      let f := splitFields [1, 2] r.params
      let k : Fin 4 := Fin.ofNat 4 (fld f 0)
      (3 < fld f 0 → ∃ t : State, exec .startCue s = .next t ∧ RefusedAs s t p r .fieldOutOfRange (some 0)) ∧
      (fld f 0 ≤ 3 → 1023 < fld f 1 → ∃ t : State, exec .startCue s = .next t ∧
        RefusedAs s t p r .fieldOutOfRange (some 1)) ∧
      (fld f 0 ≤ 3 → fld f 1 ≤ 1023 → s.runners[k].state = .idle ∨ s.runners[k].state = .faulted →
        ∃ t : State, exec .startCue s = .next t ∧
          AnsweredAs s t (s.withRunner k (Runner.startedAt (fld f 1) .request)) p r .done []) ∧
      (fld f 0 ≤ 3 → fld f 1 ≤ 1023 → s.runners[k].state ≠ .idle → s.runners[k].state ≠ .faulted →
        ∃ t : State, exec .startCue s = .next t ∧ RefusedAs s t p r .runnerActive none)) ∧
  (∀ (s : State) (p : Fin 16) (r : Request), s.Serves 33 p r →
      let n := (byteAt r.params 0).toNat
      let option := (byteAt r.params 1).toNat
      let k : Fin 4 := Fin.ofNat 4 n
      let x := s.runners[k]
      (n ≤ 3 → option = 0 → x.state = .faulted → ∃ t : State, exec .resumeCue s = .next t ∧
        AnsweredAs s t (s.withRunner k { x with state := .running, spin := 0 }) p r .done []) ∧
      (n ≤ 3 → option = 1 → x.state = .faulted → x.position < 1024 → ∃ t : State, exec .resumeCue s = .next t ∧
        AnsweredAs s t (s.withRunner k { x with state := .running, spin := 0, position := x.position + 1 }) p r .done []) ∧
      (n ≤ 3 → option = 1 → x.state = .faulted → x.position = 1024 → ∃ t : State, exec .resumeCue s = .next t ∧
        AnsweredAs s t (s.withRunner k { x with state := .running, spin := 0 }) p r .done []) ∧
      (n ≤ 3 → option ≤ 1 → x.state ≠ .faulted → ∃ t : State, exec .resumeCue s = .next t ∧
        RefusedAs s t p r .runnerNotFaulted none))

/-- STOP CUE makes a runner IDLE from any state and keeps its position, stack, start cause and fault record; a runner
that waited for the engine is in the waiting set no more. -/
def Obligations.StopCueMakesTheRunnerIdle : Prop :=
  ∀ (s : State) (p : Fin 16) (r : Request), s.Serves 32 p r →
    let n := (byteAt r.params 0).toNat
    let k : Fin 4 := Fin.ofNat 4 n
    (3 < n → ∃ t : State, exec .stopCue s = .next t ∧ RefusedAs s t p r .fieldOutOfRange (some 0)) ∧
    (n ≤ 3 → ∃ t : State, exec .stopCue s = .next t ∧ t.waitingTake k = none ∧
      AnsweredAs s t (s.withRunner k { s.runners[k] with state := .idle }) p r .done [])

/-- R139's three tests, in their order, before the execution of an entry of any kind; and the fault of an EMPTY entry or of
the position past the store. -/
def Obligations.ExecutionIsTestedFirst : Prop :=
  ∀ (s : State) (r : Fin 4) (c : Instr) (kind : CueKind), s.runners[r].state = .running → (s.entryAt r).kind = kind →
    (c, kind) ∈ [(Instr.emptyEntry r, CueKind.empty), (.cueTakeScene r, .takeScene), (.cueTakeLayout r, .takeLayout),
      (.cueRevert r, .revert), (.cueWindowTake r, .windowTake), (.cueFreeze r, .freeze), (.cueSetPulse r, .setPulse),
      (.cueCapture r, .capture), (.cueReleaseStill r, .releaseStill), (.cueRotate r, .rotate),
      (.cueRequalify r, .requalify), (.waitPictures r, .waitPictures), (.waitTime r, .waitTime),
      (.waitQualified r, .waitQualified), (.jump r, .jump), (.call r, .call), (.returnEntry r, .ret),
      (.haltEntry r, .halt)] →
    (64 ≤ s.runners[r].spin → ∃ t : State, exec c s = .next t ∧
      SameButMarks t (s.withRunner r (s.runners[r].faultedWith .spin 0 s.time.seconds))) ∧
    (s.runners[r].spin < 64 → 1024 ≤ s.runners[r].position → ∃ t : State, exec c s = .next t ∧
      SameButMarks t (s.withRunner r (s.runners[r].faultedWith .address 0 s.time.seconds))) ∧
    (s.runners[r].spin < 64 → s.runners[r].position < 1024 → kind = .empty → ∃ t : State, exec c s = .next t ∧
      SameButMarks t (s.withRunner r (s.runners[r].faultedWith .emptyEntry 0 s.time.seconds)))

/-- R136, R137 and R139's spin count: JUMP moves the runner; CALL pushes the address after it, or faults with STACK OVERFLOW at 4 addresses; RETURN takes
the address pushed last, or faults with STACK UNDERFLOW; HALT makes the runner IDLE with an empty stack, its position,
start cause and fault record kept. -/
def Obligations.JumpCallReturnAndHalt : Prop :=
  ∀ (s : State) (r : Fin 4) (e : CueEntry),
    let x := s.runners[r]
    (s.Executes .jump r e → exec (.jump r) s = .next (s.withRunner r { x with position := e.op1, spin := x.spin + 1 })) ∧
    (s.Executes .call r e → x.stack.length < 4 → exec (.call r) s = .next (s.withRunner r
      { x with position := e.op1, stack := x.stack ++ [x.position + 1], spin := x.spin + 1 })) ∧
    (s.Executes .call r e → 4 ≤ x.stack.length → ∃ t : State, exec (.call r) s = .next t ∧
      SameButMarks t (s.withRunner r (x.faultedWith .stackOverflow e.op1 s.time.seconds))) ∧
    (∀ (stack : List Nat) (a : Nat), s.Executes .ret r e → x.stack = stack ++ [a] →
      exec (.returnEntry r) s = .next (s.withRunner r { x with position := a, stack := stack, spin := x.spin + 1 })) ∧
    (s.Executes .ret r e → x.stack = [] → ∃ t : State, exec (.returnEntry r) s = .next t ∧
      SameButMarks t (s.withRunner r (x.faultedWith .stackUnderflow 0 s.time.seconds))) ∧
    (s.Executes .halt r e → ∃ t : State, exec (.haltEntry r) s = .next t ∧
      SameButMarks t (s.withRunner r { x with state := .idle, stack := [] }))

/-- (1) The wait entries: WAIT PICTURES counts its cadence's ticks, WAIT TIME waits for its target or faults with TIME
UNSET, WAIT QUALIFIED goes on at once for a QUALIFIED source and waits otherwise. (2) The ends of waits: the last tick
of a count, the expiry of a timer under FAULT and under CONTINUE, and a result handed on. -/
def Obligations.WaitsBeginAndEnd : Prop :=
  (∀ (s : State) (r : Fin 4) (e : CueEntry),
      let x := s.runners[r]
      (s.Executes .waitPictures r e → ∃ t : State, exec (.waitPictures r) s = .next t ∧
        SameButMarks t (s.withRunner r (x.waitingFor (.pictures (cadenceOf e.op1) e.op2 false)))) ∧
      (s.Executes .waitTime r e → s.time.valid = true → ∃ t : State, exec (.waitTime r) s = .next t ∧
        SameButMarks t (s.withRunner r (x.waitingFor (.time e.op1)))) ∧
      (s.Executes .waitTime r e → s.time.valid = false → ∃ t : State, exec (.waitTime r) s = .next t ∧
        SameButMarks t (s.withRunner r (x.faultedWith .timeUnset 0 s.time.seconds))) ∧
      (s.Executes .waitQualified r e → s.sources[Fin.ofNat 16 e.op1].state = .qualified →
        exec (.waitQualified r) s = .next (s.withRunner r x.next)) ∧
      (s.Executes .waitQualified r e → s.sources[Fin.ofNat 16 e.op1].state ≠ .qualified →
        ∃ t : State, exec (.waitQualified r) s = .next t ∧ SameButMarks t (s.withRunner r
          (x.waitingFor (.qualified (Fin.ofNat 16 e.op1) (StopOption.ofNum e.op3) (1000 * e.op2)))))) ∧
  (∀ (s : State) (r : Fin 4),
      let x := s.runners[r]
      (∀ (k : Cadence) (n : Nat), x.state = .waiting (.pictures k n true) →
        ∃ t : State, exec (.waitPicturesCountEnd r) s = .next t ∧ SameButMarks t (s.withRunner r x.resumed)) ∧
      (∀ (i : Fin 16) (n : Nat), x.state = .waiting (.qualified i .fault n) →
        ∃ t : State, exec (.waitQualifiedTimerExpiry r) s = .next t ∧
          SameButMarks t (s.withRunner r (x.faultedWith .waitTimeout i.val s.time.seconds))) ∧
      (∀ (i : Fin 16) (n : Nat), x.state = .waiting (.qualified i .continue n) →
        ∃ t : State, exec (.waitQualifiedTimerExpiry r) s = .next t ∧ SameButMarks t (s.withRunner r x.resumed)) ∧
      (∀ n : Word16, x.state = .waiting (.takeDone n (some .complete)) ∨ x.state = .waiting (.takeDone n (some .partialResult)) →
        ∃ t : State, exec (.takeResultTaken r) s = .next t ∧ SameButMarks t (s.withRunner r x.resumed)) ∧
      (∀ n : Word16, x.state = .waiting (.takeDone n (some .aborted)) →
        ∃ t : State, exec (.takeResultTaken r) s = .next t ∧
          SameButMarks t (s.withRunner r (x.faultedWith .takeAborted n.toNat s.time.seconds))))

/-- (1) An entry that acts as a request makes the request's effect and goes on, and faults its runner with the
condition of a refusal: WINDOW TAKE, FREEZE, SET PULSE, CAPTURE, RELEASE STILL and REQUALIFY. (2) A ROTATE entry whose
search is exhausted faults under FAULT and goes on under CONTINUE; one that takes an entry makes the request's effect
and goes on; one that is refused faults with the condition. -/
def Obligations.EntriesActAsRequestsDo : Prop :=
  (∀ (s : State) (r : Fin 4) (e : CueEntry) (kind : CueKind) (c : Instr) (act : List Nat → State → State × Answer),
      (kind, c, act) ∈ [(CueKind.windowTake, Instr.cueWindowTake r, windowTakeFields), (.freeze, .cueFreeze r, freezeFields),
        (.setPulse, .cueSetPulse r, setPulseFields), (.capture, .cueCapture r, captureFields),
        (.releaseStill, .cueReleaseStill r, releaseStillFields), (.requalify, .cueRequalify r, requalifyFields)] →
      s.Executes kind r e →
      (∀ (u : State) (result : List Byte), act e.operands s = (u, .done result) →
        ∃ t : State, exec c s = .next t ∧ SameButMarks t (u.withRunner r s.runners[r].next)) ∧
      (∀ (u : State) (code : Code) (detail : Option Nat), act e.operands s = (u, .refused code detail) →
        ∃ (t : State) (d n : Nat), exec c s = .next t ∧ (∀ x, detail = some x → d = x ∧ n = s.freeCount) ∧
          SameButMarks t ({ s with freeCount := n }.withRunner r (s.runners[r].faultedWith code d s.time.seconds)))) ∧
  (∀ (s : State) (r : Fin 4) (e : CueEntry), s.Executes .rotate r e → ∀ (u : State) (result : List Byte) (exhausted : Bool),
      rotateFields e.operands s = (u, .done result, exhausted) →
      (exhausted = true → e.op4 = 0 → ∃ t : State, exec (.cueRotate r) s = .next t ∧
        SameButMarks t (s.withRunner r (s.runners[r].faultedWith .rotationExhausted e.op3 s.time.seconds))) ∧
      (exhausted = false ∨ e.op4 ≠ 0 → ∃ t : State, exec (.cueRotate r) s = .next t ∧
        SameButMarks t (u.withRunner r s.runners[r].next))) ∧
  (∀ (s : State) (r : Fin 4) (e : CueEntry), s.Executes .rotate r e →
    ∀ (u : State) (code : Code) (detail : Option Nat) (exhausted : Bool),
      rotateFields e.operands s = (u, .refused code detail, exhausted) →
      ∃ (t : State) (d n : Nat), exec (.cueRotate r) s = .next t ∧ (∀ x, detail = some x → d = x ∧ n = s.freeCount) ∧
        SameButMarks t ({ s with freeCount := n }.withRunner r (s.runners[r].faultedWith code d s.time.seconds)))

/-- (1) A take entry waits for the engine while it is BUSY; else its take is accepted, and the runner goes on or waits for
the job's end by its wait-complete option, or goes on when the job was DONE within its acceptance (R131), or it is refused
and faults the runner; an engine left IDLE is offered on. (2) The offer of an engine that is IDLE: the waiting runner of the
lowest number leaves WAITING(TAKE GRANT); its take is accepted and it goes on or waits for the end, or is refused and it
faults; after a refusal and after a job DONE within its acceptance the engine is offered to the next (R125). A BUSY engine is
offered to nobody. -/
def Obligations.TakeEntriesShareTheEngine : Prop :=
  (∀ (s : State) (r : Fin 4) (e : CueEntry) (kind : CueKind) (c : Instr) (take : Take),
    (kind, c, take) ∈ [(CueKind.takeScene, Instr.cueTakeScene r, Take.scene (Fin.ofNat 32 e.op1) (e.op2 = 1)),
      (.takeLayout, .cueTakeLayout r, .layout (Fin.ofNat 24 e.op1) (Fin.ofNat 128 e.op2) (e.op3 = 1)),
      (.revert, .cueRevert r, .revert (Fin.ofNat 24 e.op1) (e.op2 = 1))] →
    s.Executes kind r e →
    (s.engineBusy = true → ∃ t : State, exec c s = .next t ∧
      SameButMarks t (s.withRunner r (s.runners[r].waitingFor (.takeGrant take)))) ∧
    (∀ u : State, s.engineBusy = false → s.accept (.runner r) take = .ok u → u.engineBusy = true →
      ∃ t : State, exec c s = .next t ∧ SameButMarks t (u.withRunner r (if take.waitComplete = true then
        s.runners[r].waitingFor (.takeDone u.serial none) else s.runners[r].next))) ∧
    (∀ u : State, s.engineBusy = false → s.accept (.runner r) take = .ok u → u.engineBusy = false →
      ∃ v : State, exec c s = .next v.offerEngine ∧ SameButMarks v (u.withRunner r s.runners[r].next)) ∧
    (∀ (code : Code) (d : Nat), s.engineBusy = false → s.accept (.runner r) take = .error (code, d) →
      ∃ v : State, exec c s = .next v.offerEngine ∧
        SameButMarks v (s.withRunner r (s.runners[r].faultedWith code d s.time.seconds)))) ∧
  (∀ s : State, s.engineBusy = true ∨ s.NoneWaits → s.offerEngine = s) ∧
  ∀ (s : State) (r : Fin 4) (take : Take), s.engineBusy = false → s.waitingTake r = some take →
    (∀ q : Fin 4, q < r → s.waitingTake q = none) →
    (∀ u : State, s.accept (.runner r) take = .ok u → u.engineBusy = true →
      SameButMarks s.offerEngine (u.withRunner r (if take.waitComplete = true then
        s.runners[r].waitingFor (.takeDone u.serial none) else s.runners[r].resumed))) ∧
    (∀ u : State, s.accept (.runner r) take = .ok u → u.engineBusy = false →
      ∃ v : State, s.offerEngine = v.offerEngine ∧ SameButMarks v (u.withRunner r s.runners[r].resumed)) ∧
    (∀ (code : Code) (d : Nat), s.accept (.runner r) take = .error (code, d) →
      ∃ v : State, s.offerEngine = v.offerEngine ∧
        SameButMarks v (s.withRunner r (s.runners[r].faultedWith code d s.time.seconds)))

/-! ### Time base, alarms and triggers -/

/-- (1) SET TIME writes the time base and marks it valid; it is no second tick. (2) SET ALARM and SET TRIGGER replace
a record's fields and clear its outcome. -/
def Obligations.TheScheduleIsSet : Prop :=
  (∀ (s : State) (p : Fin 16) (r : Request), s.Serves 36 p r →
      let f := splitFields [4, 1] r.params
      (86399 < fld f 0 → ∃ t : State, exec .setTime s = .next t ∧ RefusedAs s t p r .fieldOutOfRange (some 0)) ∧
      (fld f 0 ≤ 86399 → 6 < fld f 1 → ∃ t : State, exec .setTime s = .next t ∧
        RefusedAs s t p r .fieldOutOfRange (some 1)) ∧
      (fld f 0 ≤ 86399 → fld f 1 ≤ 6 → ∃ t : State, exec .setTime s = .next t ∧
        AnsweredAs s t { s with time := ⟨fld f 0, fld f 1, true⟩ } p r .done
          (byte4 (fld f 0) ++ byte1 (fld f 1) ++ flag s.time.valid))) ∧
  (∀ (s : State) (p : Fin 16) (r : Request), s.saving = false →
      (s.Serves 37 p r → let f := splitFields alarmWidths r.params; alarmBad f = none →
        let n := Fin.ofNat 16 (fld f 0)
        let a : Alarm := ⟨fld f 1 = 1, fld f 2, BitVec.ofNat 7 (fld f 3), Fin.ofNat 4 (fld f 4), fld f 5, .none, none⟩
        ∃ t : State, exec .setAlarm s = .next t ∧ AnsweredAs s t { s with alarms := put s.alarms n a } p r .done
          (byte1 n.val ++ byte1 s.alarms[n].outcome.num)) ∧
      (s.Serves 38 p r → let f := splitFields triggerWidths r.params; firstBad 0 (triggerTests f) = none →
        let n := Fin.ofNat 16 (fld f 0)
        let g : Trigger := ⟨fld f 1 = 1, Fin.ofNat 16 (fld f 2), .ofNum (fld f 3), Fin.ofNat 4 (fld f 4), fld f 5,
          fld f 6 = 1, .none, none⟩
        ∃ t : State, exec .setTrigger s = .next t ∧ AnsweredAs s t { s with triggers := put s.triggers n g } p r .done
          (byte1 n.val ++ byte1 s.triggers[n].outcome.num)))

/-- A second tick advances the time base, ends the waits for its second, and moves the drops; without a valid time base no
alarm acts. -/
def Obligations.SecondTicksAdvanceTheTime : Prop :=
  ∀ s : State,
    let now : TimeBase := if s.time.seconds < 86399 then { s.time with seconds := s.time.seconds + 1 }
      else ⟨0, if s.time.weekday < 6 then s.time.weekday + 1 else 0, s.time.valid⟩
    ∃ t : State, exec .secondTick s = .next t ∧ t.time = now ∧
      t.starvation = { s.starvation with thisSecond := 0, lastSecond := s.starvation.thisSecond } ∧
      (∀ (r : Fin 4) (target : Nat), s.runners[r].state = .waiting (.time target) →
        t.runners[r] = if target = now.seconds then s.runners[r].resumed else s.runners[r]) ∧
      (s.time.valid = false → t.alarms = s.alarms ∧
        ∀ r : Fin 4, (∀ target : Nat, s.runners[r].state ≠ .waiting (.time target)) → t.runners[r] = s.runners[r]) ∧
      SameButMarks { t with time := s.time, starvation := s.starvation, alarms := s.alarms, runners := s.runners } s

/-- R49: drops this second become drops last second at every second tick, valid or not; SET TIME leaves the record; and
starvation is active while either count is above 0. -/
def Obligations.DropsMoveAtTheSecondTick : Prop :=
  (∀ s : State, ∃ t : State, exec .secondTick s = .next t ∧
    t.starvation = { s.starvation with thisSecond := 0, lastSecond := s.starvation.thisSecond }) ∧
  (∀ s t : State, exec .setTime s = .next t → t.starvation = s.starvation) ∧
  ∀ s : State, s.starving = true ↔ 0 < s.starvation.thisSecond ∨ 0 < s.starvation.lastSecond

/-- (1) At a second tick of a valid time base an alarm whose time and weekday it produces starts its runner, unless the
runner is active; an alarm above one of the same second for the same runner records RUNNER ACTIVE, and the runner keeps the
lower one's start. (2) What such a tick leaves: every alarm that does not act, and every runner that no acting alarm names
or that is active, but for a runner that waits for a time (SecondTicksAdvanceTheTime, which says of the rest of the part
too). (3) A source event meets the triggers that watch for it: each starts its runner if it is IDLE or FAULTED, and a once
trigger that starts it is disabled; a trigger above one of the same event for the same runner records RUNNER ACTIVE, and
the runner keeps the lower one's start. (4) What an event leaves: every trigger that does not watch for it, every runner
that no such trigger names or that is active, and the rest of the part. -/
def Obligations.AlarmsAndTriggersStartRunners : Prop :=
  (∀ (s : State) (n : Fin 16), s.time.valid = true →
      let now := s.time.advance
      let a := s.alarms[n]
      let free : Prop := s.runners[a.runner].state = .idle ∨ s.runners[a.runner].state = .faulted
      let lower (m : Fin 16) : Prop := m < n ∧ s.alarms[m].matches now = true ∧ s.alarms[m].runner = a.runner
      a.matches now = true → ∃ t : State, exec .secondTick s = .next t ∧
        (free → (∀ m : Fin 16, ¬ lower m) → t.runners[a.runner] = Runner.startedAt a.address (.alarm n) ∧
          t.alarms[n] = { a with outcome := .started, lastActed := some now.seconds }) ∧
        (¬ free ∨ (∃ m : Fin 16, lower m) →
          t.alarms[n] = { a with outcome := .runnerActive, lastActed := some now.seconds })) ∧
  (∀ s : State, s.time.valid = true →
      let now := s.time.advance
      ∃ t : State, exec .secondTick s = .next t ∧
        (∀ n : Fin 16, s.alarms[n].matches now = false → t.alarms[n] = s.alarms[n]) ∧
        ∀ r : Fin 4, (∀ target : Nat, s.runners[r].state ≠ .waiting (.time target)) →
          (∀ n : Fin 16, s.alarms[n].matches now = true → s.alarms[n].runner ≠ r) ∨
            (s.runners[r].state ≠ .idle ∧ s.runners[r].state ≠ .faulted) →
          t.runners[r] = s.runners[r]) ∧
  (∀ (s : State) (n i : Fin 16) (event : SourceEvent),
      let g := s.triggers[n]
      let free : Prop := s.runners[g.runner].state = .idle ∨ s.runners[g.runner].state = .faulted
      let lower (m : Fin 16) : Prop := m < n ∧ s.triggers[m].Watches i event ∧ s.triggers[m].runner = g.runner
      let t := s.raiseEvent i event
      g.Watches i event →
        (free → (∀ m : Fin 16, ¬ lower m) → t.runners[g.runner] = Runner.startedAt g.address (.trigger n) ∧
          t.triggers[n] = { g with outcome := .started, lastActed := some s.time.seconds, enabled := !g.once }) ∧
        (¬ free ∨ (∃ m : Fin 16, lower m) →
          t.triggers[n] = { g with outcome := .runnerActive, lastActed := some s.time.seconds })) ∧
  (∀ (s : State) (i : Fin 16) (event : SourceEvent),
      let t := s.raiseEvent i event
      (∀ n : Fin 16, ¬ s.triggers[n].Watches i event → t.triggers[n] = s.triggers[n]) ∧
      (∀ r : Fin 4, (∀ n : Fin 16, s.triggers[n].Watches i event → s.triggers[n].runner ≠ r) ∨
          (s.runners[r].state ≠ .idle ∧ s.runners[r].state ≠ .faulted) →
        t.runners[r] = s.runners[r]) ∧
      SameButMarks { t with triggers := s.triggers, runners := s.runners } s)

/-! ### The request unit -/

/-- (1) The next request: the oldest of the first port with a queued request, searched from the port after the one
served last. (2) The tests of R160 before the owning block, in their order, for every request code and for a code that
names none. -/
def Obligations.RequestsAreServedInTurnAndTested : Prop :=
  (∀ (s : State) (p : Fin 16) (r : Request),
      s.nextRequest = some (p, r) ↔
        ∃ i : Nat, i < 16 ∧ p = Fin.ofNat 16 (s.served.val + 1 + i) ∧ s.ports[p].queue.head? = some r ∧
          ∀ j : Nat, j < i → s.ports[Fin.ofNat 16 (s.served.val + 1 + j)].queue = []) ∧
  (∀ (s : State) (p : Fin 16) (r : Request), s.nextRequest = some (p, r) →
      let c := commandOf r.code.toNat
      let x := s.ports[p]
      let lengthOk : Prop := requiredLength r.code.toNat r.params = some r.params.length
      (x.grant = .none → exec c s = .next { s with served := p, ports := put s.ports p { x with queue := x.queue.tail } }) ∧
      (x.grant ≠ .none → x.attention = true → r.code ≠ 43 → ∃ t : State, exec c s = .next t ∧
        AnsweredAs s t s p r .refused []) ∧
      (x.grant ≠ .none → x.attention = false → knownCode r.code.toNat = false → ∃ t : State, exec c s = .next t ∧
        RefusedAs s t p r .unknownRequest (some 0)) ∧
      (x.grant ≠ .none → x.attention = false → knownCode r.code.toNat = true → ¬ lengthOk →
        ∃ t : State, exec c s = .next t ∧ RefusedAs s t p r .badLength (some 0)) ∧
      (∀ o : Nat, x.grant ≠ .none → x.attention = false → knownCode r.code.toNat = true → lengthOk →
        reservedOffset r.code.toNat r.params = some o →
        ∃ t : State, exec c s = .next t ∧ RefusedAs s t p r .reservedNotZero (some o)) ∧
      (x.grant = .observe → x.attention = false → knownCode r.code.toNat = true → lengthOk →
        reservedOffset r.code.toNat r.params = none → modifies r.code.toNat r.params = true →
        ∃ t : State, exec c s = .next t ∧ RefusedAs s t p r .observeOnly none))

/-- (1) The requests that change a stored table are BUSY while a save is in flight, once their ranges have passed. (2)
The first field out of its range decides the detail (for the screen and window of FREEZE and SET PULSE by log 22). -/
def Obligations.BusyAndRangeAnswers : Prop :=
  (∀ (s : State) (p : Fin 16) (r : Request), s.saving = true →
      let f := r.params.map (·.toNat)
      let busy (code : Nat) (ranges : Prop) : Prop := s.Serves code p r → ranges →
        ∃ t : State, exec (commandOf code) s = .next t ∧ AnsweredAs s t s p r .busy []
      busy 1 (sourceBad (splitFields sourceWidths r.params) = none) ∧ busy 7 (fld f 0 ≤ 127) ∧ busy 8 (fld f 0 ≤ 127) ∧
      busy 10 (firstBad 0 (screenTests f) = none) ∧ busy 12 True ∧ busy 22 (fld f 0 ≤ 31) ∧ busy 23 (fld f 0 ≤ 31) ∧
      busy 37 (alarmBad (splitFields alarmWidths r.params) = none) ∧
      busy 38 (firstBad 0 (triggerTests (splitFields triggerWidths r.params)) = none) ∧
      busy 40 (fld f 0 ≤ 15 ∧ fld f 1 ≤ 2) ∧ busy 45 True) ∧
  (∀ (s : State) (p : Fin 16) (r : Request) (i : Nat),
      let f := r.params.map (·.toNat)
      let refused (code : Nat) (bad : Option Nat) : Prop := s.Serves code p r → bad = some i →
        ∃ t : State, exec (commandOf code) s = .next t ∧ RefusedAs s t p r .fieldOutOfRange (some i)
      refused 1 (sourceBad (splitFields sourceWidths r.params)) ∧ refused 10 (firstBad 0 (screenTests f)) ∧
      refused 13 (firstBad 0 (freezeTests f)) ∧ refused 14 (firstBad 0 (setPulseTests f)) ∧
      refused 16 (firstBad 0 (windowTakeTests f)) ∧ refused 17 (firstBad 0 (rotateTests f)) ∧
      refused 37 (alarmBad (splitFields alarmWidths r.params)) ∧
      refused 38 (firstBad 0 (triggerTests (splitFields triggerWidths r.params))) ∧
      refused 40 (firstBad 0 [within 0 15 (fld f 0), within 0 2 (fld f 1)]))

/-- The reads are answered DONE, with the wall fault code of the part (R168), and leave it as it was; a READ RUNNER draws
the time left of a timer (log 9). A READ SOURCE with its clear option on is answered with the values as they stood, and
then the four report counters, pictures to qualify and the six port counters are 0 (R33; the option's place is log 22, the
bytes of the results log 15). -/
def Obligations.ReadsChangeNothing : Prop :=
  ∀ (s : State) (p : Fin 16) (r : Request),
    let n := (byteAt r.params 0).toNat
    let f := splitFields [2, 1] r.params
    let reads (code : Nat) (ranges : Prop) (result : List Byte) : Prop := s.Serves code p r → ranges →
      ∃ t : State, exec (commandOf code) s = .next t ∧ AnsweredAs s t s p r .done result
    reads 3 (n ≤ 15 ∧ byteAt r.params 1 = 0) (sourceReport (Fin.ofNat 16 n) s) ∧
    (s.Serves 3 p r → n ≤ 15 → byteAt r.params 1 = 1 →
      let i := Fin.ofNat 16 n
      ∃ t : State, exec .readSource s = .next t ∧
        AnsweredAs (s.withPort i { s.ports[i] with counters := ⟨0, 0, 0, 0, 0, 0⟩ }) t
          (s.withSource i { s.sources[i] with completed := 0, errored := 0, starved := 0, skipped := 0, toQualify := 0 }) p r
          .done (sourceReport i s)) ∧
    reads 6 True (poolReport s) ∧
    reads 9 (n ≤ 127) (byte1 n ++ presentRecord (s.library[Fin.ofNat 128 n].map (·.bytes))) ∧
    reads 15 (n ≤ 23) (screenReport (Fin.ofNat 24 n) s) ∧
    reads 20 True (s.ramp.toList.flatMap byte1) ∧
    reads 21 (n ≤ 7) (flag (!s.rotations[Fin.ofNat 8 n].entries.isEmpty) ++
      byte1 s.rotations[Fin.ofNat 8 n].entries.length ++
      (s.rotations[Fin.ofNat 8 n].entries.flatMap fun e => byte1 e.val) ++ byte1 s.rotations[Fin.ofNat 8 n].position) ∧
    reads 24 (n ≤ 31) (byte1 n ++ presentRecord (s.scenes[Fin.ofNat 32 n].map sceneBytes)) ∧
    reads 29 True (takeReport s) ∧
    reads 34 (runBad (fld f 0) (fld f 1) = none)
      (byte2 (fld f 0) ++ byte1 (fld f 1) ++ (s.cueRun (fld f 0) (fld f 1)).flatMap CueEntry.bytes) ∧
    reads 39 True (scheduleReport s) ∧
    reads 41 True (s.ports.toList.flatMap fun x => byte1 x.grant.num) ∧
    (s.Serves 35 p r → n ≤ 3 → ∃ (t : State) (left : Nat), exec .readRunner s = .next t ∧
      AnsweredAs s t { s with freeCount := t.freeCount } p r .done (s.runners[(Fin.ofNat 4 n : Fin 4)].bytes left) ∧
      ∀ (i : Fin 16) (o : StopOption) (length : Nat),
        s.runners[(Fin.ofNat 4 n : Fin 4)].state = .waiting (.qualified i o length) → left ≤ length)

/-- SET GRANT gives a port its grant and changes nothing else of it, its attention mark, condition record and queue among
them; the request leaves the queue of the port that it arrived on, and the reply, with the sixteen grants as they then stand,
goes out on that port's return lane. The last FULL grant is refused to be lowered. -/
def Obligations.SetGrantKeepsAFullPort : Prop :=
  ∀ (s : State) (p : Fin 16) (r : Request), s.Serves 40 p r → s.saving = false →
    let q := Fin.ofNat 16 (byteAt r.params 0).toNat
    let g := Grant.ofNum (byteAt r.params 1).toNat
    (byteAt r.params 0).toNat ≤ 15 → (byteAt r.params 1).toNat ≤ 2 →
    (g ≠ .full → s.ports[q].grant = .full → (∀ o : Fin 16, o ≠ q → s.ports[o].grant ≠ .full) →
      ∃ t : State, exec .setGrant s = .next t ∧ RefusedAs s t p r .lastFullGrant (some 0)) ∧
    (g = .full ∨ s.ports[q].grant ≠ .full ∨ (∃ o : Fin 16, o ≠ q ∧ s.ports[o].grant = .full) →
      let granted := put s.ports q { s.ports[q] with grant := g }
      ∃ t : State, exec .setGrant s = .next t ∧
        t = { s with
          served := p
          ports := put granted p (granted[p].answered (replyCell r.tag r.code .done s.wallFault
            (granted.toList.flatMap fun x => byte1 x.grant.num))) })

/-- (1) FETCH CONDITION answers with the port's record, then empties it and clears the attention mark. (2) STATUS answers
with the part's summary and the port's change marks, then clears that port's marks and no other's. The layout of the two
results (the mark and five zeros for an empty record, a byte for each change mark) is the model's (log 15). (3) The writes
of a source's state, of a screen, of a runner and of the job: a change of the state, of the standby state, of the phase or
of an outcome sets that one mark on every port, whatever its grant; where nothing changes, no mark is set (R169). (4)
Every command but STATUS keeps the marks that are set, and sets those of what it changes (R32, R71, R113, R138, R169). -/
def Obligations.FetchConditionAndStatusClear : Prop :=
  (∀ (s : State) (p : Fin 16) (r : Request), s.Serves 43 p r →
      ∃ t : State, exec .fetchCondition s = .next t ∧
        t = { s with
          served := p
          ports := put s.ports p { s.ports[p].answered (replyCell r.tag r.code .done s.wallFault (match s.ports[p].condition with
            | none => byte1 1 ++ [0, 0, 0, 0, 0]
            | some c => byte1 0 ++ byte1 c.code.number.1 ++ byte1 c.code.number.2 ++ byte2 c.detail ++ [c.tag])) with
            condition := none, attention := false } }) ∧
  (∀ (s : State) (p : Fin 16) (r : Request), s.Serves 42 p r →
      ∃ t : State, exec .status s = .next t ∧
        t = { s with
          served := p
          ports := put s.ports p { s.ports[p].answered (replyCell r.tag r.code .done s.wallFault (statusReport p s)) with
            marks := .clear } }) ∧
  (∀ (s : State) (q : Fin 16),
      let p := s.ports[q]
      let marked (marks : ChangeMarks) : Port := { p with marks := marks }
      (∀ (i : Fin 16) (state : SourceState), (s.setSourceState i state).ports[q] = if s.sources[i].state = state then p
        else marked { p.marks with sources := put p.marks.sources i true }) ∧
      (∀ (c : Fin 24) (x : Screen), (s.setScreen c x).ports[q] =
        if s.screens[c].state = x.state ∧ s.screens[c].standby.num = x.standby.num then p
        else marked { p.marks with screens := put p.marks.screens c true }) ∧
      (∀ (k : Fin 4) (x : Runner), (s.setRunner k x).ports[q] = if s.runners[k].state.num = x.state.num then p
        else marked { p.marks with runners := put p.marks.runners k true }) ∧
      ∀ j : Job,
        let view := some (j.phase, j.members.map fun m => m.outcome)
        (s.jobView ≠ view → (s.setJob j).ports[q] = marked { p.marks with take := true }) ∧
        (∀ old : Job, s.job = some old → old.serial = j.serial → s.jobView = view → (s.setJob j).ports[q] = p)) ∧
  ∀ (c : Instr) (s t : State), c ≠ .status → exec c s = .next t → Marked s t

/-- RESTART: what each block's rule gives, and what is kept; its reply carries the wall fault code as the part stands
before the restart (R167). The standby of a PENDING member is left as an abort leaves it (R95, R123), and every other
standby is kept; the ticks due and the last picture are kept by log 23. -/
def Obligations.RestartKeepsTheTables : Prop :=
  ∀ (s : State) (p : Fin 16) (r : Request), s.Serves 44 p r →
    ∃ t : State, exec .restart s = .next t ∧
      (∀ q : Fin 16, t.ports[q] = { s.ports[q] with
        assembly := .idle
        reference := none
        counters := ⟨0, 0, 0, 0, 0, 0⟩
        queue := []
        condition := some ⟨.restarted, p.val, 0⟩
        attention := true
        marks := .all
        lane := t.ports[q].lane }) ∧
      (∀ q : Fin 16, q ≠ p → t.ports[q].lane = s.ports[q].lane) ∧
      t.ports[p].lane = s.ports[p].lane ++ [replyCell r.tag r.code .done s.wallFault []] ∧
      (∀ i : Fin 16, t.sources[i] = ⟨if s.sources[i].state = .disabled then .disabled
        else if s.ports[i].link = .inSync then .acquiring else .down, s.sources[i].params, 0, 0, 0, none, none, 0, 0, 0, 0, 0⟩) ∧
      (∀ k : Fin 64, t.slots[k] = Slot.empty) ∧ (∀ k : Fin 4, t.stills[k] = none) ∧
      (∀ k : Fin 4, t.runners[k] = ⟨.idle, 0, [], 0, none, none⟩) ∧ t.served = 15 ∧ t.engineBusy = false ∧
      (s.engineBusy = false → t.job = s.job) ∧
      (∀ j : Job, s.engineBusy = true → s.job = some j → t.job = some { j with
        members := j.members.map Member.abort, phase := .done, result := some .aborted }) ∧
      (∀ c : Fin 24, t.screens[c].enabled = s.screens[c].enabled ∧ t.screens[c].cadence = s.screens[c].cadence ∧
        t.screens[c].width = s.screens[c].width ∧ t.screens[c].height = s.screens[c].height ∧
        t.screens[c].start = s.screens[c].start ∧
        t.screens[c].active = s.screens[c].active.map (Context.mapWindows darkenWindow) ∧
        t.screens[c].ticksDue = s.screens[c].ticksDue ∧ t.screens[c].output = s.screens[c].output ∧
        (s.pendingMember c = false → t.screens[c].standby = s.screens[c].standby) ∧
        ∀ j : Job, s.job = some j → s.pendingMember c = true →
          t.screens[c].standby = s.screens[c].standby.aborted j.kind) ∧
      (s.saving = false → t.store = s.store) ∧
      (s.saving = true → t.store.state = .idle ∧ t.store.outcome = .abandoned ∧ t.store.flash.crcFails = true) ∧
      { t with ports := s.ports, sources := s.sources, slots := s.slots, stills := s.stills, screens := s.screens,
               job := s.job, runners := s.runners, served := s.served, store := s.store,
               freeCount := s.freeCount } = s

/-- The wall fault code is the highest whose condition holds. -/
def Obligations.WallFaultIsTheHighest : Prop :=
  ∀ s : State,
    let c8 : Prop := s.starving = true
    let c7 : Prop := ∃ r : Fin 4, s.runners[r].state = .faulted
    let shown (w : LiveWindow) : Prop := ∃ (c : Fin 24) (x : Context),
      s.screens[c].enabled = true ∧ s.screens[c].active = some x ∧ w ∈ x.windows
    let c6 : Prop := ∃ (w : LiveWindow) (i : Fin 16), shown w ∧ w.current = i.val ∧ s.sources[i].state = .failed
    let c5 : Prop := ∃ (w : LiveWindow) (i : Fin 16), shown w ∧ w.current = i.val ∧ s.sources[i].state = .suspect
    let c4 : Prop := ∃ w : LiveWindow, shown w ∧ (w.status = some .held ∨ w.status = some .slateFallback ∨
      w.status = some .backup ∨ w.status = some .scaleOutOfRange)
    let c3 : Prop := ∃ j : Job, s.job = some j ∧ j.phase = .done ∧
      (j.result = some .partialResult ∨ j.result = some .aborted)
    let c2 : Prop := s.time.valid = false ∧ ∃ n : Fin 16, s.alarms[n].enabled = true
    let c1 : Prop := s.store.outcome = .noAnswer ∨ s.store.outcome = .readBackMismatch ∨ s.store.outcome = .abandoned
    (c8 → s.wallFault = 8) ∧ (¬ c8 → c7 → s.wallFault = 7) ∧ (¬ c8 → ¬ c7 → c6 → s.wallFault = 6) ∧
    (¬ c8 → ¬ c7 → ¬ c6 → c5 → s.wallFault = 5) ∧ (¬ c8 → ¬ c7 → ¬ c6 → ¬ c5 → c4 → s.wallFault = 4) ∧
    (¬ c8 → ¬ c7 → ¬ c6 → ¬ c5 → ¬ c4 → c3 → s.wallFault = 3) ∧
    (¬ c8 → ¬ c7 → ¬ c6 → ¬ c5 → ¬ c4 → ¬ c3 → c2 → s.wallFault = 2) ∧
    (¬ c8 → ¬ c7 → ¬ c6 → ¬ c5 → ¬ c4 → ¬ c3 → ¬ c2 → c1 → s.wallFault = 1) ∧
    (¬ c8 → ¬ c7 → ¬ c6 → ¬ c5 → ¬ c4 → ¬ c3 → ¬ c2 → ¬ c1 → s.wallFault = 0)

/-! ### The store -/

/-- (1) SAVE TABLES takes the snapshot and becomes SAVING when the store is IDLE, and is BUSY otherwise. The 4 bytes of the
content length in its result (log 15) and the 0 in the image's reserved bytes, which the CRC-32 covers in the content (log
27), are the model's choices. (2) A flash that
does not answer ends a save with NO ANSWER, and makes the image of a start-up not valid (log 13). A save given up at its
read-back keeps what was programmed, and one given up at any stage keeps the mark of a save abandoned before it (log 12);
FLASH_NO_ANSWER with the store IDLE leaves the part as it was (log 4). -/
def Obligations.SavesBeginAndAreGivenUp : Prop :=
  (∀ (s : State) (p : Fin 16) (r : Request), s.Serves 45 p r →
      let content := imageContent s
      (s.store.state = .idle → ∃ t : State, exec .saveTables s = .next t ∧
        AnsweredAs s t { s with store := { s.store with state := .saving .erasing (imageHeader content ++ content) } } p r
          .done (byte4 content.length ++ byte4 (crc32 content).toNat)) ∧
      (s.store.state ≠ .idle → ∃ t : State, exec .saveTables s = .next t ∧ AnsweredAs s t s p r .busy [])) ∧
  (∀ (s : State) (stage : SaveStage) (image : List Byte), s.store.state = .saving stage image →
      ∃ t : State, exec .flashNoAnswer s = .next t ∧ t.store.state = .idle ∧ t.store.outcome = .noAnswer ∧
        (stage = .readingBack → t.store.flash = s.store.flash) ∧ t.store.flash.crcFails = s.store.flash.crcFails ∧
        { t with store := s.store, freeCount := s.freeCount } = s) ∧
  (∀ (s : State) (answered : Bool), s.store.state = .startUpLoad answered →
      ∃ t : State, exec .flashNoAnswer s = .next t ∧
        t = { s with store := { s.store with state := .startUpLoad false } } ∧
        ∃ u : State, exec .startUpEnd t = .next u ∧
          ∀ q : Fin 16, u.ports[q].condition = some ⟨.powerOnEmpty, 0, 0⟩) ∧
  ∀ s : State, s.store.state = .idle → exec .flashNoAnswer s = .next s

/-- (1) The stages of a save: the erase empties the area, the program writes the image, the read-back ends the save with OK
when the area reads as the image and with READ-BACK MISMATCH when it does not, and clears the mark of a save abandoned
before it (that a mismatch clears it too is log 12); a read-back that names an address outside the image area faults (log
11). (2) A start-up whose flash answers and holds the image of a snapshot (that which SAVE TABLES takes,
SavesBeginAndAreGivenUp), and no mark, finds it valid and takes the tables of the snapshot from it; what becomes of a
screen's ticks due and last picture is logs 6 and 17, and the 0 in the reserved bytes of the image written is log 27. -/
def Obligations.SavesGoThroughTheirStages : Prop :=
  (∀ (s : State) (image : List Byte),
    (s.store.state = .saving .erasing image → exec .eraseComplete s = .next { s with store := { s.store with
      state := .saving .programming image
      flash := { s.store.flash with cells := [], unknown := none } } }) ∧
    (s.FlashLaw → s.store.state = .saving .programming image → ∃ t : State, exec .programComplete s = .next t ∧
      t.store.state = .saving .readingBack image ∧
      (∀ i : Nat, i < image.length → memRead t.store.flash.cells i = image.getD i 0) ∧
      (∀ a : Nat, image.length ≤ a → memRead t.store.flash.cells a = memRead s.store.flash.cells a) ∧
      { t with store := { t.store with state := s.store.state, flash := { t.store.flash with
        cells := s.store.flash.cells } } } = s) ∧
    (∀ differing : List Host.Cell, s.store.state = .saving .readingBack image → (∀ c ∈ differing, c.1 < 262144) →
      ∃ t : State, exec (.readBackComplete differing) s = .next t ∧ t.store.state = .idle ∧
        (t.store.outcome = .ok ↔ ∀ i : Nat, i < image.length → t.store.flash.read i = image.getD i 0) ∧
        (t.store.outcome ≠ .ok → t.store.outcome = .readBackMismatch) ∧
        (differing = [] → t.store.flash.cells = s.store.flash.cells) ∧ t.store.flash.crcFails = false ∧
        { t with store := s.store } = s) ∧
    (∀ differing : List Host.Cell, (∃ c ∈ differing, 262144 ≤ c.1) →
      ∃ a : Nat, 262144 ≤ a ∧ exec (.readBackComplete differing) s = .fault (.outsideImageArea a))) ∧
  ∀ s v : State, s.TablesLaw → s.GrantLaw →
    let content := imageContent s
    let image := imageHeader content ++ content
    v.store.state = .startUpLoad true → v.store.flash.crcFails = false →
    (∀ i : Nat, i < image.length → v.store.flash.read i = image.getD i 0) →
    ∃ t : State, exec .startUpEnd v = .next t ∧ StartUpSettled .powerOnImage (v.withTablesOf s) t

/-! ### The laws of every step -/

/-- No step makes a request queue longer than 4. -/
def Obligations.QueuesHoldAtMostFour : Prop :=
  ∀ s t : State, s.QueueLaw → step s = .next t → t.QueueLaw

/-- No step makes a return stack longer than 4 or lets a runner pass 64 entries without a wait. -/
def Obligations.RunnersKeepTheirLaws : Prop :=
  ∀ s t : State, s.RunnerLaw → step s = .next t → t.RunnerLaw

/-- (1) Every step keeps the image area in its canonical form. (2) Every step leaves in every stored table only what its
owner's checks pass. -/
def Obligations.TheFlashAndTheTablesKeepTheirLaws : Prop :=
  (∀ s t : State, s.FlashLaw → step s = .next t → t.FlashLaw) ∧
  ∀ s t : State, s.TablesLaw → step s = .next t → t.TablesLaw

/-- After every step every RETIRED slot has a hold count of at least one. -/
def Obligations.RetiredSlotsAreHeld : Prop :=
  ∀ s t : State, s.RetiredLaw → step s = .next t → t.RetiredLaw

/-- After every step at least one port holds FULL. -/
def Obligations.SomePortIsFull : Prop :=
  ∀ s t : State, s.GrantLaw → step s = .next t → t.GrantLaw

/-- Every step keeps every screen's active context within the area budget. -/
def Obligations.TheAreaBudgetIsKept : Prop :=
  ∀ s t : State, s.AreaLaw → step s = .next t → t.AreaLaw
end

