-- ==== Sys2Proof/Decode.lean ====
section
/-! DEFINITION. Words as commands: no row of spec/opcode_table.json gives bits, so no word spells one (log 25). -/

namespace Sys2Proof

/-- The command that a word spells by the table's bits. -/
def decodeTableWord (_nbits _w : Nat) : Option Instr := none

end Sys2Proof
end

