-- ==== Sys2Proof/Laws/Tables.lean ====
section
/-! SUPPORT. What reading a table gives after one entry, or every entry, has been changed. -/

namespace Sys2Proof.Machine

variable {α β γ : Type} {n : Nat}

/-- Tables that agree at every index are equal. -/
theorem table_ext {t u : Vector α n} (h : ∀ i : Fin n, t[i] = u[i]) : t = u :=
  Vector.ext fun i hi => h ⟨i, hi⟩

/-- Reading after writing, at a number. -/
@[simp] theorem put_getElem (t : Vector α n) (i : Fin n) (x : α) (k : Nat) (h : k < n) :
    (put t i x)[k] = if i.val = k then x else t[k] := Vector.getElem_set ..

/-- Reading after writing. -/
@[simp] theorem put_get (t : Vector α n) (i j : Fin n) (x : α) : (put t i x)[j] = if i = j then x else t[j] := by
  simp [Fin.ext_iff]

/-- Reading what was written. -/
theorem put_same (t : Vector α n) (i : Fin n) (x : α) : (put t i x)[i] = x := by simp

/-- Reading another entry than the one written. -/
theorem put_other (t : Vector α n) {i j : Fin n} (x : α) (h : i ≠ j) : (put t i x)[j] = t[j] := by
  rw [put_get, if_neg h]

/-- Writing what stands there. -/
@[simp] theorem put_self (t : Vector α n) (i : Fin n) : put t i t[i] = t := by
  refine table_ext fun j => ?_
  rw [put_get]
  split
  · next h => rw [h]
  · rfl

/-- The second of two writes to one entry stands. -/
@[simp] theorem put_put (t : Vector α n) (i : Fin n) (x y : α) : put (put t i x) i y = put t i y := by
  refine table_ext fun j => ?_
  simp only [put_get]
  split <;> rfl

/-- Writes to different entries commute. -/
theorem put_comm (t : Vector α n) {i j : Fin n} (h : i ≠ j) (x y : α) :
    put (put t i x) j y = put (put t j y) i x := by
  refine table_ext fun k => ?_
  simp only [put_get]
  by_cases hi : i = k <;> by_cases hj : j = k <;> simp_all

/-- Reading a changed table, at a number. -/
@[simp] theorem mapTable_getElem (f : α → β) (t : Vector α n) (k : Nat) (h : k < n) : (mapTable f t)[k] = f t[k] := by
  simp [mapTable]

/-- Reading a changed table. -/
@[simp] theorem mapTable_get (f : α → β) (t : Vector α n) (i : Fin n) : (mapTable f t)[i] = f t[i] := by
  simp [mapTable]

/-- Two changes of every entry are one. -/
theorem mapTable_mapTable (g : β → γ) (f : α → β) (t : Vector α n) : mapTable g (mapTable f t) = mapTable (g ∘ f) t :=
  table_ext fun i => by simp only [mapTable_get, Function.comp_apply]

/-- A change of every entry after a write. -/
theorem mapTable_put (f : α → β) (t : Vector α n) (i : Fin n) (x : α) :
    mapTable f (put t i x) = put (mapTable f t) i (f x) := by
  refine table_ext fun j => ?_
  simp only [mapTable_get, put_get]
  split <;> rfl

/-- Reading a table given by its entries. -/
theorem ofFn_get (f : Fin n → α) (i : Fin n) : (Vector.ofFn f)[i] = f i := by simp

/-- Reading a table of one value. -/
theorem replicate_get (x : α) (i : Fin n) : (Vector.replicate n x)[i] = x := by simp

end Sys2Proof.Machine
end

