-- ==== Sys2Proof/Laws/State.lean ====
section
/-! SUPPORT. Every field of the state after each named update. -/

namespace Sys2Proof.Machine.State

set_option linter.unusedSimpArgs false

variable (s : State)

/-! ### After a change of one port -/

@[simp] theorem modPort_ports (p : Fin 16) (f : Port → Port) : (s.modPort p f).ports = put s.ports p (f s.ports[p]) := rfl
@[simp] theorem modPort_sources (p : Fin 16) (f : Port → Port) : (s.modPort p f).sources = s.sources := rfl
@[simp] theorem modPort_slots (p : Fin 16) (f : Port → Port) : (s.modPort p f).slots = s.slots := rfl
@[simp] theorem modPort_stills (p : Fin 16) (f : Port → Port) : (s.modPort p f).stills = s.stills := rfl
@[simp] theorem modPort_starvation (p : Fin 16) (f : Port → Port) : (s.modPort p f).starvation = s.starvation := rfl
@[simp] theorem modPort_library (p : Fin 16) (f : Port → Port) : (s.modPort p f).library = s.library := rfl
@[simp] theorem modPort_screens (p : Fin 16) (f : Port → Port) : (s.modPort p f).screens = s.screens := rfl
@[simp] theorem modPort_rateA (p : Fin 16) (f : Port → Port) : (s.modPort p f).rateA = s.rateA := rfl
@[simp] theorem modPort_rateB (p : Fin 16) (f : Port → Port) : (s.modPort p f).rateB = s.rateB := rfl
@[simp] theorem modPort_palette (p : Fin 16) (f : Port → Port) : (s.modPort p f).palette = s.palette := rfl
@[simp] theorem modPort_ramp (p : Fin 16) (f : Port → Port) : (s.modPort p f).ramp = s.ramp := rfl
@[simp] theorem modPort_rotations (p : Fin 16) (f : Port → Port) : (s.modPort p f).rotations = s.rotations := rfl
@[simp] theorem modPort_scenes (p : Fin 16) (f : Port → Port) : (s.modPort p f).scenes = s.scenes := rfl
@[simp] theorem modPort_serial (p : Fin 16) (f : Port → Port) : (s.modPort p f).serial = s.serial := rfl
@[simp] theorem modPort_job (p : Fin 16) (f : Port → Port) : (s.modPort p f).job = s.job := rfl
@[simp] theorem modPort_cues (p : Fin 16) (f : Port → Port) : (s.modPort p f).cues = s.cues := rfl
@[simp] theorem modPort_runners (p : Fin 16) (f : Port → Port) : (s.modPort p f).runners = s.runners := rfl
@[simp] theorem modPort_time (p : Fin 16) (f : Port → Port) : (s.modPort p f).time = s.time := rfl
@[simp] theorem modPort_alarms (p : Fin 16) (f : Port → Port) : (s.modPort p f).alarms = s.alarms := rfl
@[simp] theorem modPort_triggers (p : Fin 16) (f : Port → Port) : (s.modPort p f).triggers = s.triggers := rfl
@[simp] theorem modPort_served (p : Fin 16) (f : Port → Port) : (s.modPort p f).served = s.served := rfl
@[simp] theorem modPort_store (p : Fin 16) (f : Port → Port) : (s.modPort p f).store = s.store := rfl
@[simp] theorem modPort_freeCount (p : Fin 16) (f : Port → Port) : (s.modPort p f).freeCount = s.freeCount := rfl
@[simp] theorem modPort_pending (p : Fin 16) (f : Port → Port) : (s.modPort p f).pending = s.pending := rfl

/-! ### After a change of every port -/

@[simp] theorem modPorts_ports (f : Port → Port) : (s.modPorts f).ports = mapTable f s.ports := rfl
@[simp] theorem modPorts_sources (f : Port → Port) : (s.modPorts f).sources = s.sources := rfl
@[simp] theorem modPorts_slots (f : Port → Port) : (s.modPorts f).slots = s.slots := rfl
@[simp] theorem modPorts_stills (f : Port → Port) : (s.modPorts f).stills = s.stills := rfl
@[simp] theorem modPorts_starvation (f : Port → Port) : (s.modPorts f).starvation = s.starvation := rfl
@[simp] theorem modPorts_library (f : Port → Port) : (s.modPorts f).library = s.library := rfl
@[simp] theorem modPorts_screens (f : Port → Port) : (s.modPorts f).screens = s.screens := rfl
@[simp] theorem modPorts_rateA (f : Port → Port) : (s.modPorts f).rateA = s.rateA := rfl
@[simp] theorem modPorts_rateB (f : Port → Port) : (s.modPorts f).rateB = s.rateB := rfl
@[simp] theorem modPorts_palette (f : Port → Port) : (s.modPorts f).palette = s.palette := rfl
@[simp] theorem modPorts_ramp (f : Port → Port) : (s.modPorts f).ramp = s.ramp := rfl
@[simp] theorem modPorts_rotations (f : Port → Port) : (s.modPorts f).rotations = s.rotations := rfl
@[simp] theorem modPorts_scenes (f : Port → Port) : (s.modPorts f).scenes = s.scenes := rfl
@[simp] theorem modPorts_serial (f : Port → Port) : (s.modPorts f).serial = s.serial := rfl
@[simp] theorem modPorts_job (f : Port → Port) : (s.modPorts f).job = s.job := rfl
@[simp] theorem modPorts_cues (f : Port → Port) : (s.modPorts f).cues = s.cues := rfl
@[simp] theorem modPorts_runners (f : Port → Port) : (s.modPorts f).runners = s.runners := rfl
@[simp] theorem modPorts_time (f : Port → Port) : (s.modPorts f).time = s.time := rfl
@[simp] theorem modPorts_alarms (f : Port → Port) : (s.modPorts f).alarms = s.alarms := rfl
@[simp] theorem modPorts_triggers (f : Port → Port) : (s.modPorts f).triggers = s.triggers := rfl
@[simp] theorem modPorts_served (f : Port → Port) : (s.modPorts f).served = s.served := rfl
@[simp] theorem modPorts_store (f : Port → Port) : (s.modPorts f).store = s.store := rfl
@[simp] theorem modPorts_freeCount (f : Port → Port) : (s.modPorts f).freeCount = s.freeCount := rfl
@[simp] theorem modPorts_pending (f : Port → Port) : (s.modPorts f).pending = s.pending := rfl

/-! ### After a change of one source -/

@[simp] theorem modSource_ports (i : Fin 16) (f : Source → Source) : (s.modSource i f).ports = s.ports := rfl
@[simp] theorem modSource_sources (i : Fin 16) (f : Source → Source) : (s.modSource i f).sources = put s.sources i (f s.sources[i]) := rfl
@[simp] theorem modSource_slots (i : Fin 16) (f : Source → Source) : (s.modSource i f).slots = s.slots := rfl
@[simp] theorem modSource_stills (i : Fin 16) (f : Source → Source) : (s.modSource i f).stills = s.stills := rfl
@[simp] theorem modSource_starvation (i : Fin 16) (f : Source → Source) : (s.modSource i f).starvation = s.starvation := rfl
@[simp] theorem modSource_library (i : Fin 16) (f : Source → Source) : (s.modSource i f).library = s.library := rfl
@[simp] theorem modSource_screens (i : Fin 16) (f : Source → Source) : (s.modSource i f).screens = s.screens := rfl
@[simp] theorem modSource_rateA (i : Fin 16) (f : Source → Source) : (s.modSource i f).rateA = s.rateA := rfl
@[simp] theorem modSource_rateB (i : Fin 16) (f : Source → Source) : (s.modSource i f).rateB = s.rateB := rfl
@[simp] theorem modSource_palette (i : Fin 16) (f : Source → Source) : (s.modSource i f).palette = s.palette := rfl
@[simp] theorem modSource_ramp (i : Fin 16) (f : Source → Source) : (s.modSource i f).ramp = s.ramp := rfl
@[simp] theorem modSource_rotations (i : Fin 16) (f : Source → Source) : (s.modSource i f).rotations = s.rotations := rfl
@[simp] theorem modSource_scenes (i : Fin 16) (f : Source → Source) : (s.modSource i f).scenes = s.scenes := rfl
@[simp] theorem modSource_serial (i : Fin 16) (f : Source → Source) : (s.modSource i f).serial = s.serial := rfl
@[simp] theorem modSource_job (i : Fin 16) (f : Source → Source) : (s.modSource i f).job = s.job := rfl
@[simp] theorem modSource_cues (i : Fin 16) (f : Source → Source) : (s.modSource i f).cues = s.cues := rfl
@[simp] theorem modSource_runners (i : Fin 16) (f : Source → Source) : (s.modSource i f).runners = s.runners := rfl
@[simp] theorem modSource_time (i : Fin 16) (f : Source → Source) : (s.modSource i f).time = s.time := rfl
@[simp] theorem modSource_alarms (i : Fin 16) (f : Source → Source) : (s.modSource i f).alarms = s.alarms := rfl
@[simp] theorem modSource_triggers (i : Fin 16) (f : Source → Source) : (s.modSource i f).triggers = s.triggers := rfl
@[simp] theorem modSource_served (i : Fin 16) (f : Source → Source) : (s.modSource i f).served = s.served := rfl
@[simp] theorem modSource_store (i : Fin 16) (f : Source → Source) : (s.modSource i f).store = s.store := rfl
@[simp] theorem modSource_freeCount (i : Fin 16) (f : Source → Source) : (s.modSource i f).freeCount = s.freeCount := rfl
@[simp] theorem modSource_pending (i : Fin 16) (f : Source → Source) : (s.modSource i f).pending = s.pending := rfl

/-! ### After a change of one slot -/

@[simp] theorem modSlot_ports (k : Fin 64) (f : Slot → Slot) : (s.modSlot k f).ports = s.ports := rfl
@[simp] theorem modSlot_sources (k : Fin 64) (f : Slot → Slot) : (s.modSlot k f).sources = s.sources := rfl
@[simp] theorem modSlot_slots (k : Fin 64) (f : Slot → Slot) : (s.modSlot k f).slots = put s.slots k (f s.slots[k]) := rfl
@[simp] theorem modSlot_stills (k : Fin 64) (f : Slot → Slot) : (s.modSlot k f).stills = s.stills := rfl
@[simp] theorem modSlot_starvation (k : Fin 64) (f : Slot → Slot) : (s.modSlot k f).starvation = s.starvation := rfl
@[simp] theorem modSlot_library (k : Fin 64) (f : Slot → Slot) : (s.modSlot k f).library = s.library := rfl
@[simp] theorem modSlot_screens (k : Fin 64) (f : Slot → Slot) : (s.modSlot k f).screens = s.screens := rfl
@[simp] theorem modSlot_rateA (k : Fin 64) (f : Slot → Slot) : (s.modSlot k f).rateA = s.rateA := rfl
@[simp] theorem modSlot_rateB (k : Fin 64) (f : Slot → Slot) : (s.modSlot k f).rateB = s.rateB := rfl
@[simp] theorem modSlot_palette (k : Fin 64) (f : Slot → Slot) : (s.modSlot k f).palette = s.palette := rfl
@[simp] theorem modSlot_ramp (k : Fin 64) (f : Slot → Slot) : (s.modSlot k f).ramp = s.ramp := rfl
@[simp] theorem modSlot_rotations (k : Fin 64) (f : Slot → Slot) : (s.modSlot k f).rotations = s.rotations := rfl
@[simp] theorem modSlot_scenes (k : Fin 64) (f : Slot → Slot) : (s.modSlot k f).scenes = s.scenes := rfl
@[simp] theorem modSlot_serial (k : Fin 64) (f : Slot → Slot) : (s.modSlot k f).serial = s.serial := rfl
@[simp] theorem modSlot_job (k : Fin 64) (f : Slot → Slot) : (s.modSlot k f).job = s.job := rfl
@[simp] theorem modSlot_cues (k : Fin 64) (f : Slot → Slot) : (s.modSlot k f).cues = s.cues := rfl
@[simp] theorem modSlot_runners (k : Fin 64) (f : Slot → Slot) : (s.modSlot k f).runners = s.runners := rfl
@[simp] theorem modSlot_time (k : Fin 64) (f : Slot → Slot) : (s.modSlot k f).time = s.time := rfl
@[simp] theorem modSlot_alarms (k : Fin 64) (f : Slot → Slot) : (s.modSlot k f).alarms = s.alarms := rfl
@[simp] theorem modSlot_triggers (k : Fin 64) (f : Slot → Slot) : (s.modSlot k f).triggers = s.triggers := rfl
@[simp] theorem modSlot_served (k : Fin 64) (f : Slot → Slot) : (s.modSlot k f).served = s.served := rfl
@[simp] theorem modSlot_store (k : Fin 64) (f : Slot → Slot) : (s.modSlot k f).store = s.store := rfl
@[simp] theorem modSlot_freeCount (k : Fin 64) (f : Slot → Slot) : (s.modSlot k f).freeCount = s.freeCount := rfl
@[simp] theorem modSlot_pending (k : Fin 64) (f : Slot → Slot) : (s.modSlot k f).pending = s.pending := rfl

/-! ### After a change of one alarm -/

@[simp] theorem modAlarm_ports (n : Fin 16) (f : Alarm → Alarm) : (s.modAlarm n f).ports = s.ports := rfl
@[simp] theorem modAlarm_sources (n : Fin 16) (f : Alarm → Alarm) : (s.modAlarm n f).sources = s.sources := rfl
@[simp] theorem modAlarm_slots (n : Fin 16) (f : Alarm → Alarm) : (s.modAlarm n f).slots = s.slots := rfl
@[simp] theorem modAlarm_stills (n : Fin 16) (f : Alarm → Alarm) : (s.modAlarm n f).stills = s.stills := rfl
@[simp] theorem modAlarm_starvation (n : Fin 16) (f : Alarm → Alarm) : (s.modAlarm n f).starvation = s.starvation := rfl
@[simp] theorem modAlarm_library (n : Fin 16) (f : Alarm → Alarm) : (s.modAlarm n f).library = s.library := rfl
@[simp] theorem modAlarm_screens (n : Fin 16) (f : Alarm → Alarm) : (s.modAlarm n f).screens = s.screens := rfl
@[simp] theorem modAlarm_rateA (n : Fin 16) (f : Alarm → Alarm) : (s.modAlarm n f).rateA = s.rateA := rfl
@[simp] theorem modAlarm_rateB (n : Fin 16) (f : Alarm → Alarm) : (s.modAlarm n f).rateB = s.rateB := rfl
@[simp] theorem modAlarm_palette (n : Fin 16) (f : Alarm → Alarm) : (s.modAlarm n f).palette = s.palette := rfl
@[simp] theorem modAlarm_ramp (n : Fin 16) (f : Alarm → Alarm) : (s.modAlarm n f).ramp = s.ramp := rfl
@[simp] theorem modAlarm_rotations (n : Fin 16) (f : Alarm → Alarm) : (s.modAlarm n f).rotations = s.rotations := rfl
@[simp] theorem modAlarm_scenes (n : Fin 16) (f : Alarm → Alarm) : (s.modAlarm n f).scenes = s.scenes := rfl
@[simp] theorem modAlarm_serial (n : Fin 16) (f : Alarm → Alarm) : (s.modAlarm n f).serial = s.serial := rfl
@[simp] theorem modAlarm_job (n : Fin 16) (f : Alarm → Alarm) : (s.modAlarm n f).job = s.job := rfl
@[simp] theorem modAlarm_cues (n : Fin 16) (f : Alarm → Alarm) : (s.modAlarm n f).cues = s.cues := rfl
@[simp] theorem modAlarm_runners (n : Fin 16) (f : Alarm → Alarm) : (s.modAlarm n f).runners = s.runners := rfl
@[simp] theorem modAlarm_time (n : Fin 16) (f : Alarm → Alarm) : (s.modAlarm n f).time = s.time := rfl
@[simp] theorem modAlarm_alarms (n : Fin 16) (f : Alarm → Alarm) : (s.modAlarm n f).alarms = put s.alarms n (f s.alarms[n]) := rfl
@[simp] theorem modAlarm_triggers (n : Fin 16) (f : Alarm → Alarm) : (s.modAlarm n f).triggers = s.triggers := rfl
@[simp] theorem modAlarm_served (n : Fin 16) (f : Alarm → Alarm) : (s.modAlarm n f).served = s.served := rfl
@[simp] theorem modAlarm_store (n : Fin 16) (f : Alarm → Alarm) : (s.modAlarm n f).store = s.store := rfl
@[simp] theorem modAlarm_freeCount (n : Fin 16) (f : Alarm → Alarm) : (s.modAlarm n f).freeCount = s.freeCount := rfl
@[simp] theorem modAlarm_pending (n : Fin 16) (f : Alarm → Alarm) : (s.modAlarm n f).pending = s.pending := rfl

/-! ### After a change of one trigger -/

@[simp] theorem modTrigger_ports (n : Fin 16) (f : Trigger → Trigger) : (s.modTrigger n f).ports = s.ports := rfl
@[simp] theorem modTrigger_sources (n : Fin 16) (f : Trigger → Trigger) : (s.modTrigger n f).sources = s.sources := rfl
@[simp] theorem modTrigger_slots (n : Fin 16) (f : Trigger → Trigger) : (s.modTrigger n f).slots = s.slots := rfl
@[simp] theorem modTrigger_stills (n : Fin 16) (f : Trigger → Trigger) : (s.modTrigger n f).stills = s.stills := rfl
@[simp] theorem modTrigger_starvation (n : Fin 16) (f : Trigger → Trigger) : (s.modTrigger n f).starvation = s.starvation := rfl
@[simp] theorem modTrigger_library (n : Fin 16) (f : Trigger → Trigger) : (s.modTrigger n f).library = s.library := rfl
@[simp] theorem modTrigger_screens (n : Fin 16) (f : Trigger → Trigger) : (s.modTrigger n f).screens = s.screens := rfl
@[simp] theorem modTrigger_rateA (n : Fin 16) (f : Trigger → Trigger) : (s.modTrigger n f).rateA = s.rateA := rfl
@[simp] theorem modTrigger_rateB (n : Fin 16) (f : Trigger → Trigger) : (s.modTrigger n f).rateB = s.rateB := rfl
@[simp] theorem modTrigger_palette (n : Fin 16) (f : Trigger → Trigger) : (s.modTrigger n f).palette = s.palette := rfl
@[simp] theorem modTrigger_ramp (n : Fin 16) (f : Trigger → Trigger) : (s.modTrigger n f).ramp = s.ramp := rfl
@[simp] theorem modTrigger_rotations (n : Fin 16) (f : Trigger → Trigger) : (s.modTrigger n f).rotations = s.rotations := rfl
@[simp] theorem modTrigger_scenes (n : Fin 16) (f : Trigger → Trigger) : (s.modTrigger n f).scenes = s.scenes := rfl
@[simp] theorem modTrigger_serial (n : Fin 16) (f : Trigger → Trigger) : (s.modTrigger n f).serial = s.serial := rfl
@[simp] theorem modTrigger_job (n : Fin 16) (f : Trigger → Trigger) : (s.modTrigger n f).job = s.job := rfl
@[simp] theorem modTrigger_cues (n : Fin 16) (f : Trigger → Trigger) : (s.modTrigger n f).cues = s.cues := rfl
@[simp] theorem modTrigger_runners (n : Fin 16) (f : Trigger → Trigger) : (s.modTrigger n f).runners = s.runners := rfl
@[simp] theorem modTrigger_time (n : Fin 16) (f : Trigger → Trigger) : (s.modTrigger n f).time = s.time := rfl
@[simp] theorem modTrigger_alarms (n : Fin 16) (f : Trigger → Trigger) : (s.modTrigger n f).alarms = s.alarms := rfl
@[simp] theorem modTrigger_triggers (n : Fin 16) (f : Trigger → Trigger) : (s.modTrigger n f).triggers = put s.triggers n (f s.triggers[n]) := rfl
@[simp] theorem modTrigger_served (n : Fin 16) (f : Trigger → Trigger) : (s.modTrigger n f).served = s.served := rfl
@[simp] theorem modTrigger_store (n : Fin 16) (f : Trigger → Trigger) : (s.modTrigger n f).store = s.store := rfl
@[simp] theorem modTrigger_freeCount (n : Fin 16) (f : Trigger → Trigger) : (s.modTrigger n f).freeCount = s.freeCount := rfl
@[simp] theorem modTrigger_pending (n : Fin 16) (f : Trigger → Trigger) : (s.modTrigger n f).pending = s.pending := rfl

/-! ### After a change of the flash -/

@[simp] theorem modFlash_ports (f : Flash → Flash) : (s.modFlash f).ports = s.ports := rfl
@[simp] theorem modFlash_sources (f : Flash → Flash) : (s.modFlash f).sources = s.sources := rfl
@[simp] theorem modFlash_slots (f : Flash → Flash) : (s.modFlash f).slots = s.slots := rfl
@[simp] theorem modFlash_stills (f : Flash → Flash) : (s.modFlash f).stills = s.stills := rfl
@[simp] theorem modFlash_starvation (f : Flash → Flash) : (s.modFlash f).starvation = s.starvation := rfl
@[simp] theorem modFlash_library (f : Flash → Flash) : (s.modFlash f).library = s.library := rfl
@[simp] theorem modFlash_screens (f : Flash → Flash) : (s.modFlash f).screens = s.screens := rfl
@[simp] theorem modFlash_rateA (f : Flash → Flash) : (s.modFlash f).rateA = s.rateA := rfl
@[simp] theorem modFlash_rateB (f : Flash → Flash) : (s.modFlash f).rateB = s.rateB := rfl
@[simp] theorem modFlash_palette (f : Flash → Flash) : (s.modFlash f).palette = s.palette := rfl
@[simp] theorem modFlash_ramp (f : Flash → Flash) : (s.modFlash f).ramp = s.ramp := rfl
@[simp] theorem modFlash_rotations (f : Flash → Flash) : (s.modFlash f).rotations = s.rotations := rfl
@[simp] theorem modFlash_scenes (f : Flash → Flash) : (s.modFlash f).scenes = s.scenes := rfl
@[simp] theorem modFlash_serial (f : Flash → Flash) : (s.modFlash f).serial = s.serial := rfl
@[simp] theorem modFlash_job (f : Flash → Flash) : (s.modFlash f).job = s.job := rfl
@[simp] theorem modFlash_cues (f : Flash → Flash) : (s.modFlash f).cues = s.cues := rfl
@[simp] theorem modFlash_runners (f : Flash → Flash) : (s.modFlash f).runners = s.runners := rfl
@[simp] theorem modFlash_time (f : Flash → Flash) : (s.modFlash f).time = s.time := rfl
@[simp] theorem modFlash_alarms (f : Flash → Flash) : (s.modFlash f).alarms = s.alarms := rfl
@[simp] theorem modFlash_triggers (f : Flash → Flash) : (s.modFlash f).triggers = s.triggers := rfl
@[simp] theorem modFlash_served (f : Flash → Flash) : (s.modFlash f).served = s.served := rfl
@[simp] theorem modFlash_store (f : Flash → Flash) : (s.modFlash f).store = { s.store with flash := f s.store.flash } := rfl
@[simp] theorem modFlash_freeCount (f : Flash → Flash) : (s.modFlash f).freeCount = s.freeCount := rfl
@[simp] theorem modFlash_pending (f : Flash → Flash) : (s.modFlash f).pending = s.pending := rfl

/-! ### After the change marks and a port's counters: only the ports change -/

@[simp] theorem modCounters_sources (p : Fin 16) (f : PortCounters → PortCounters) : (s.modCounters p f).sources = s.sources := by
  unfold modCounters modPort; rfl
@[simp] theorem modCounters_slots (p : Fin 16) (f : PortCounters → PortCounters) : (s.modCounters p f).slots = s.slots := by
  unfold modCounters modPort; rfl
@[simp] theorem modCounters_stills (p : Fin 16) (f : PortCounters → PortCounters) : (s.modCounters p f).stills = s.stills := by
  unfold modCounters modPort; rfl
@[simp] theorem modCounters_starvation (p : Fin 16) (f : PortCounters → PortCounters) : (s.modCounters p f).starvation = s.starvation := by
  unfold modCounters modPort; rfl
@[simp] theorem modCounters_library (p : Fin 16) (f : PortCounters → PortCounters) : (s.modCounters p f).library = s.library := by
  unfold modCounters modPort; rfl
@[simp] theorem modCounters_screens (p : Fin 16) (f : PortCounters → PortCounters) : (s.modCounters p f).screens = s.screens := by
  unfold modCounters modPort; rfl
@[simp] theorem modCounters_rateA (p : Fin 16) (f : PortCounters → PortCounters) : (s.modCounters p f).rateA = s.rateA := by
  unfold modCounters modPort; rfl
@[simp] theorem modCounters_rateB (p : Fin 16) (f : PortCounters → PortCounters) : (s.modCounters p f).rateB = s.rateB := by
  unfold modCounters modPort; rfl
@[simp] theorem modCounters_palette (p : Fin 16) (f : PortCounters → PortCounters) : (s.modCounters p f).palette = s.palette := by
  unfold modCounters modPort; rfl
@[simp] theorem modCounters_ramp (p : Fin 16) (f : PortCounters → PortCounters) : (s.modCounters p f).ramp = s.ramp := by
  unfold modCounters modPort; rfl
@[simp] theorem modCounters_rotations (p : Fin 16) (f : PortCounters → PortCounters) : (s.modCounters p f).rotations = s.rotations := by
  unfold modCounters modPort; rfl
@[simp] theorem modCounters_scenes (p : Fin 16) (f : PortCounters → PortCounters) : (s.modCounters p f).scenes = s.scenes := by
  unfold modCounters modPort; rfl
@[simp] theorem modCounters_serial (p : Fin 16) (f : PortCounters → PortCounters) : (s.modCounters p f).serial = s.serial := by
  unfold modCounters modPort; rfl
@[simp] theorem modCounters_job (p : Fin 16) (f : PortCounters → PortCounters) : (s.modCounters p f).job = s.job := by
  unfold modCounters modPort; rfl
@[simp] theorem modCounters_cues (p : Fin 16) (f : PortCounters → PortCounters) : (s.modCounters p f).cues = s.cues := by
  unfold modCounters modPort; rfl
@[simp] theorem modCounters_runners (p : Fin 16) (f : PortCounters → PortCounters) : (s.modCounters p f).runners = s.runners := by
  unfold modCounters modPort; rfl
@[simp] theorem modCounters_time (p : Fin 16) (f : PortCounters → PortCounters) : (s.modCounters p f).time = s.time := by
  unfold modCounters modPort; rfl
@[simp] theorem modCounters_alarms (p : Fin 16) (f : PortCounters → PortCounters) : (s.modCounters p f).alarms = s.alarms := by
  unfold modCounters modPort; rfl
@[simp] theorem modCounters_triggers (p : Fin 16) (f : PortCounters → PortCounters) : (s.modCounters p f).triggers = s.triggers := by
  unfold modCounters modPort; rfl
@[simp] theorem modCounters_served (p : Fin 16) (f : PortCounters → PortCounters) : (s.modCounters p f).served = s.served := by
  unfold modCounters modPort; rfl
@[simp] theorem modCounters_store (p : Fin 16) (f : PortCounters → PortCounters) : (s.modCounters p f).store = s.store := by
  unfold modCounters modPort; rfl
@[simp] theorem modCounters_freeCount (p : Fin 16) (f : PortCounters → PortCounters) : (s.modCounters p f).freeCount = s.freeCount := by
  unfold modCounters modPort; rfl
@[simp] theorem modCounters_pending (p : Fin 16) (f : PortCounters → PortCounters) : (s.modCounters p f).pending = s.pending := by
  unfold modCounters modPort; rfl

@[simp] theorem markSource_sources (i : Fin 16) : (s.markSource i).sources = s.sources := by
  unfold markSource modPorts; rfl
@[simp] theorem markSource_slots (i : Fin 16) : (s.markSource i).slots = s.slots := by
  unfold markSource modPorts; rfl
@[simp] theorem markSource_stills (i : Fin 16) : (s.markSource i).stills = s.stills := by
  unfold markSource modPorts; rfl
@[simp] theorem markSource_starvation (i : Fin 16) : (s.markSource i).starvation = s.starvation := by
  unfold markSource modPorts; rfl
@[simp] theorem markSource_library (i : Fin 16) : (s.markSource i).library = s.library := by
  unfold markSource modPorts; rfl
@[simp] theorem markSource_screens (i : Fin 16) : (s.markSource i).screens = s.screens := by
  unfold markSource modPorts; rfl
@[simp] theorem markSource_rateA (i : Fin 16) : (s.markSource i).rateA = s.rateA := by
  unfold markSource modPorts; rfl
@[simp] theorem markSource_rateB (i : Fin 16) : (s.markSource i).rateB = s.rateB := by
  unfold markSource modPorts; rfl
@[simp] theorem markSource_palette (i : Fin 16) : (s.markSource i).palette = s.palette := by
  unfold markSource modPorts; rfl
@[simp] theorem markSource_ramp (i : Fin 16) : (s.markSource i).ramp = s.ramp := by
  unfold markSource modPorts; rfl
@[simp] theorem markSource_rotations (i : Fin 16) : (s.markSource i).rotations = s.rotations := by
  unfold markSource modPorts; rfl
@[simp] theorem markSource_scenes (i : Fin 16) : (s.markSource i).scenes = s.scenes := by
  unfold markSource modPorts; rfl
@[simp] theorem markSource_serial (i : Fin 16) : (s.markSource i).serial = s.serial := by
  unfold markSource modPorts; rfl
@[simp] theorem markSource_job (i : Fin 16) : (s.markSource i).job = s.job := by
  unfold markSource modPorts; rfl
@[simp] theorem markSource_cues (i : Fin 16) : (s.markSource i).cues = s.cues := by
  unfold markSource modPorts; rfl
@[simp] theorem markSource_runners (i : Fin 16) : (s.markSource i).runners = s.runners := by
  unfold markSource modPorts; rfl
@[simp] theorem markSource_time (i : Fin 16) : (s.markSource i).time = s.time := by
  unfold markSource modPorts; rfl
@[simp] theorem markSource_alarms (i : Fin 16) : (s.markSource i).alarms = s.alarms := by
  unfold markSource modPorts; rfl
@[simp] theorem markSource_triggers (i : Fin 16) : (s.markSource i).triggers = s.triggers := by
  unfold markSource modPorts; rfl
@[simp] theorem markSource_served (i : Fin 16) : (s.markSource i).served = s.served := by
  unfold markSource modPorts; rfl
@[simp] theorem markSource_store (i : Fin 16) : (s.markSource i).store = s.store := by
  unfold markSource modPorts; rfl
@[simp] theorem markSource_freeCount (i : Fin 16) : (s.markSource i).freeCount = s.freeCount := by
  unfold markSource modPorts; rfl
@[simp] theorem markSource_pending (i : Fin 16) : (s.markSource i).pending = s.pending := by
  unfold markSource modPorts; rfl

@[simp] theorem markScreen_sources (c : Fin 24) : (s.markScreen c).sources = s.sources := by
  unfold markScreen modPorts; rfl
@[simp] theorem markScreen_slots (c : Fin 24) : (s.markScreen c).slots = s.slots := by
  unfold markScreen modPorts; rfl
@[simp] theorem markScreen_stills (c : Fin 24) : (s.markScreen c).stills = s.stills := by
  unfold markScreen modPorts; rfl
@[simp] theorem markScreen_starvation (c : Fin 24) : (s.markScreen c).starvation = s.starvation := by
  unfold markScreen modPorts; rfl
@[simp] theorem markScreen_library (c : Fin 24) : (s.markScreen c).library = s.library := by
  unfold markScreen modPorts; rfl
@[simp] theorem markScreen_screens (c : Fin 24) : (s.markScreen c).screens = s.screens := by
  unfold markScreen modPorts; rfl
@[simp] theorem markScreen_rateA (c : Fin 24) : (s.markScreen c).rateA = s.rateA := by
  unfold markScreen modPorts; rfl
@[simp] theorem markScreen_rateB (c : Fin 24) : (s.markScreen c).rateB = s.rateB := by
  unfold markScreen modPorts; rfl
@[simp] theorem markScreen_palette (c : Fin 24) : (s.markScreen c).palette = s.palette := by
  unfold markScreen modPorts; rfl
@[simp] theorem markScreen_ramp (c : Fin 24) : (s.markScreen c).ramp = s.ramp := by
  unfold markScreen modPorts; rfl
@[simp] theorem markScreen_rotations (c : Fin 24) : (s.markScreen c).rotations = s.rotations := by
  unfold markScreen modPorts; rfl
@[simp] theorem markScreen_scenes (c : Fin 24) : (s.markScreen c).scenes = s.scenes := by
  unfold markScreen modPorts; rfl
@[simp] theorem markScreen_serial (c : Fin 24) : (s.markScreen c).serial = s.serial := by
  unfold markScreen modPorts; rfl
@[simp] theorem markScreen_job (c : Fin 24) : (s.markScreen c).job = s.job := by
  unfold markScreen modPorts; rfl
@[simp] theorem markScreen_cues (c : Fin 24) : (s.markScreen c).cues = s.cues := by
  unfold markScreen modPorts; rfl
@[simp] theorem markScreen_runners (c : Fin 24) : (s.markScreen c).runners = s.runners := by
  unfold markScreen modPorts; rfl
@[simp] theorem markScreen_time (c : Fin 24) : (s.markScreen c).time = s.time := by
  unfold markScreen modPorts; rfl
@[simp] theorem markScreen_alarms (c : Fin 24) : (s.markScreen c).alarms = s.alarms := by
  unfold markScreen modPorts; rfl
@[simp] theorem markScreen_triggers (c : Fin 24) : (s.markScreen c).triggers = s.triggers := by
  unfold markScreen modPorts; rfl
@[simp] theorem markScreen_served (c : Fin 24) : (s.markScreen c).served = s.served := by
  unfold markScreen modPorts; rfl
@[simp] theorem markScreen_store (c : Fin 24) : (s.markScreen c).store = s.store := by
  unfold markScreen modPorts; rfl
@[simp] theorem markScreen_freeCount (c : Fin 24) : (s.markScreen c).freeCount = s.freeCount := by
  unfold markScreen modPorts; rfl
@[simp] theorem markScreen_pending (c : Fin 24) : (s.markScreen c).pending = s.pending := by
  unfold markScreen modPorts; rfl

@[simp] theorem markRunner_sources (r : Fin 4) : (s.markRunner r).sources = s.sources := by
  unfold markRunner modPorts; rfl
@[simp] theorem markRunner_slots (r : Fin 4) : (s.markRunner r).slots = s.slots := by
  unfold markRunner modPorts; rfl
@[simp] theorem markRunner_stills (r : Fin 4) : (s.markRunner r).stills = s.stills := by
  unfold markRunner modPorts; rfl
@[simp] theorem markRunner_starvation (r : Fin 4) : (s.markRunner r).starvation = s.starvation := by
  unfold markRunner modPorts; rfl
@[simp] theorem markRunner_library (r : Fin 4) : (s.markRunner r).library = s.library := by
  unfold markRunner modPorts; rfl
@[simp] theorem markRunner_screens (r : Fin 4) : (s.markRunner r).screens = s.screens := by
  unfold markRunner modPorts; rfl
@[simp] theorem markRunner_rateA (r : Fin 4) : (s.markRunner r).rateA = s.rateA := by
  unfold markRunner modPorts; rfl
@[simp] theorem markRunner_rateB (r : Fin 4) : (s.markRunner r).rateB = s.rateB := by
  unfold markRunner modPorts; rfl
@[simp] theorem markRunner_palette (r : Fin 4) : (s.markRunner r).palette = s.palette := by
  unfold markRunner modPorts; rfl
@[simp] theorem markRunner_ramp (r : Fin 4) : (s.markRunner r).ramp = s.ramp := by
  unfold markRunner modPorts; rfl
@[simp] theorem markRunner_rotations (r : Fin 4) : (s.markRunner r).rotations = s.rotations := by
  unfold markRunner modPorts; rfl
@[simp] theorem markRunner_scenes (r : Fin 4) : (s.markRunner r).scenes = s.scenes := by
  unfold markRunner modPorts; rfl
@[simp] theorem markRunner_serial (r : Fin 4) : (s.markRunner r).serial = s.serial := by
  unfold markRunner modPorts; rfl
@[simp] theorem markRunner_job (r : Fin 4) : (s.markRunner r).job = s.job := by
  unfold markRunner modPorts; rfl
@[simp] theorem markRunner_cues (r : Fin 4) : (s.markRunner r).cues = s.cues := by
  unfold markRunner modPorts; rfl
@[simp] theorem markRunner_runners (r : Fin 4) : (s.markRunner r).runners = s.runners := by
  unfold markRunner modPorts; rfl
@[simp] theorem markRunner_time (r : Fin 4) : (s.markRunner r).time = s.time := by
  unfold markRunner modPorts; rfl
@[simp] theorem markRunner_alarms (r : Fin 4) : (s.markRunner r).alarms = s.alarms := by
  unfold markRunner modPorts; rfl
@[simp] theorem markRunner_triggers (r : Fin 4) : (s.markRunner r).triggers = s.triggers := by
  unfold markRunner modPorts; rfl
@[simp] theorem markRunner_served (r : Fin 4) : (s.markRunner r).served = s.served := by
  unfold markRunner modPorts; rfl
@[simp] theorem markRunner_store (r : Fin 4) : (s.markRunner r).store = s.store := by
  unfold markRunner modPorts; rfl
@[simp] theorem markRunner_freeCount (r : Fin 4) : (s.markRunner r).freeCount = s.freeCount := by
  unfold markRunner modPorts; rfl
@[simp] theorem markRunner_pending (r : Fin 4) : (s.markRunner r).pending = s.pending := by
  unfold markRunner modPorts; rfl

@[simp] theorem markTake_sources : (s.markTake).sources = s.sources := by
  unfold markTake modPorts; rfl
@[simp] theorem markTake_slots : (s.markTake).slots = s.slots := by
  unfold markTake modPorts; rfl
@[simp] theorem markTake_stills : (s.markTake).stills = s.stills := by
  unfold markTake modPorts; rfl
@[simp] theorem markTake_starvation : (s.markTake).starvation = s.starvation := by
  unfold markTake modPorts; rfl
@[simp] theorem markTake_library : (s.markTake).library = s.library := by
  unfold markTake modPorts; rfl
@[simp] theorem markTake_screens : (s.markTake).screens = s.screens := by
  unfold markTake modPorts; rfl
@[simp] theorem markTake_rateA : (s.markTake).rateA = s.rateA := by
  unfold markTake modPorts; rfl
@[simp] theorem markTake_rateB : (s.markTake).rateB = s.rateB := by
  unfold markTake modPorts; rfl
@[simp] theorem markTake_palette : (s.markTake).palette = s.palette := by
  unfold markTake modPorts; rfl
@[simp] theorem markTake_ramp : (s.markTake).ramp = s.ramp := by
  unfold markTake modPorts; rfl
@[simp] theorem markTake_rotations : (s.markTake).rotations = s.rotations := by
  unfold markTake modPorts; rfl
@[simp] theorem markTake_scenes : (s.markTake).scenes = s.scenes := by
  unfold markTake modPorts; rfl
@[simp] theorem markTake_serial : (s.markTake).serial = s.serial := by
  unfold markTake modPorts; rfl
@[simp] theorem markTake_job : (s.markTake).job = s.job := by
  unfold markTake modPorts; rfl
@[simp] theorem markTake_cues : (s.markTake).cues = s.cues := by
  unfold markTake modPorts; rfl
@[simp] theorem markTake_runners : (s.markTake).runners = s.runners := by
  unfold markTake modPorts; rfl
@[simp] theorem markTake_time : (s.markTake).time = s.time := by
  unfold markTake modPorts; rfl
@[simp] theorem markTake_alarms : (s.markTake).alarms = s.alarms := by
  unfold markTake modPorts; rfl
@[simp] theorem markTake_triggers : (s.markTake).triggers = s.triggers := by
  unfold markTake modPorts; rfl
@[simp] theorem markTake_served : (s.markTake).served = s.served := by
  unfold markTake modPorts; rfl
@[simp] theorem markTake_store : (s.markTake).store = s.store := by
  unfold markTake modPorts; rfl
@[simp] theorem markTake_freeCount : (s.markTake).freeCount = s.freeCount := by
  unfold markTake modPorts; rfl
@[simp] theorem markTake_pending : (s.markTake).pending = s.pending := by
  unfold markTake modPorts; rfl

/-! ### After a write that marks what has changed -/

@[simp] theorem setSourceState_sources (i : Fin 16) (st : SourceState) : (s.setSourceState i st).sources = put s.sources i { s.sources[i] with state := st } := by
  unfold setSourceState modSource markSource modPorts; split <;> rfl
@[simp] theorem setSourceState_slots (i : Fin 16) (st : SourceState) : (s.setSourceState i st).slots = s.slots := by
  unfold setSourceState modSource markSource modPorts; split <;> rfl
@[simp] theorem setSourceState_stills (i : Fin 16) (st : SourceState) : (s.setSourceState i st).stills = s.stills := by
  unfold setSourceState modSource markSource modPorts; split <;> rfl
@[simp] theorem setSourceState_starvation (i : Fin 16) (st : SourceState) : (s.setSourceState i st).starvation = s.starvation := by
  unfold setSourceState modSource markSource modPorts; split <;> rfl
@[simp] theorem setSourceState_library (i : Fin 16) (st : SourceState) : (s.setSourceState i st).library = s.library := by
  unfold setSourceState modSource markSource modPorts; split <;> rfl
@[simp] theorem setSourceState_screens (i : Fin 16) (st : SourceState) : (s.setSourceState i st).screens = s.screens := by
  unfold setSourceState modSource markSource modPorts; split <;> rfl
@[simp] theorem setSourceState_rateA (i : Fin 16) (st : SourceState) : (s.setSourceState i st).rateA = s.rateA := by
  unfold setSourceState modSource markSource modPorts; split <;> rfl
@[simp] theorem setSourceState_rateB (i : Fin 16) (st : SourceState) : (s.setSourceState i st).rateB = s.rateB := by
  unfold setSourceState modSource markSource modPorts; split <;> rfl
@[simp] theorem setSourceState_palette (i : Fin 16) (st : SourceState) : (s.setSourceState i st).palette = s.palette := by
  unfold setSourceState modSource markSource modPorts; split <;> rfl
@[simp] theorem setSourceState_ramp (i : Fin 16) (st : SourceState) : (s.setSourceState i st).ramp = s.ramp := by
  unfold setSourceState modSource markSource modPorts; split <;> rfl
@[simp] theorem setSourceState_rotations (i : Fin 16) (st : SourceState) : (s.setSourceState i st).rotations = s.rotations := by
  unfold setSourceState modSource markSource modPorts; split <;> rfl
@[simp] theorem setSourceState_scenes (i : Fin 16) (st : SourceState) : (s.setSourceState i st).scenes = s.scenes := by
  unfold setSourceState modSource markSource modPorts; split <;> rfl
@[simp] theorem setSourceState_serial (i : Fin 16) (st : SourceState) : (s.setSourceState i st).serial = s.serial := by
  unfold setSourceState modSource markSource modPorts; split <;> rfl
@[simp] theorem setSourceState_job (i : Fin 16) (st : SourceState) : (s.setSourceState i st).job = s.job := by
  unfold setSourceState modSource markSource modPorts; split <;> rfl
@[simp] theorem setSourceState_cues (i : Fin 16) (st : SourceState) : (s.setSourceState i st).cues = s.cues := by
  unfold setSourceState modSource markSource modPorts; split <;> rfl
@[simp] theorem setSourceState_runners (i : Fin 16) (st : SourceState) : (s.setSourceState i st).runners = s.runners := by
  unfold setSourceState modSource markSource modPorts; split <;> rfl
@[simp] theorem setSourceState_time (i : Fin 16) (st : SourceState) : (s.setSourceState i st).time = s.time := by
  unfold setSourceState modSource markSource modPorts; split <;> rfl
@[simp] theorem setSourceState_alarms (i : Fin 16) (st : SourceState) : (s.setSourceState i st).alarms = s.alarms := by
  unfold setSourceState modSource markSource modPorts; split <;> rfl
@[simp] theorem setSourceState_triggers (i : Fin 16) (st : SourceState) : (s.setSourceState i st).triggers = s.triggers := by
  unfold setSourceState modSource markSource modPorts; split <;> rfl
@[simp] theorem setSourceState_served (i : Fin 16) (st : SourceState) : (s.setSourceState i st).served = s.served := by
  unfold setSourceState modSource markSource modPorts; split <;> rfl
@[simp] theorem setSourceState_store (i : Fin 16) (st : SourceState) : (s.setSourceState i st).store = s.store := by
  unfold setSourceState modSource markSource modPorts; split <;> rfl
@[simp] theorem setSourceState_freeCount (i : Fin 16) (st : SourceState) : (s.setSourceState i st).freeCount = s.freeCount := by
  unfold setSourceState modSource markSource modPorts; split <;> rfl
@[simp] theorem setSourceState_pending (i : Fin 16) (st : SourceState) : (s.setSourceState i st).pending = s.pending := by
  unfold setSourceState modSource markSource modPorts; split <;> rfl

@[simp] theorem setScreen_sources (c : Fin 24) (x : Screen) : (s.setScreen c x).sources = s.sources := by
  unfold setScreen markScreen modPorts; split <;> rfl
@[simp] theorem setScreen_slots (c : Fin 24) (x : Screen) : (s.setScreen c x).slots = s.slots := by
  unfold setScreen markScreen modPorts; split <;> rfl
@[simp] theorem setScreen_stills (c : Fin 24) (x : Screen) : (s.setScreen c x).stills = s.stills := by
  unfold setScreen markScreen modPorts; split <;> rfl
@[simp] theorem setScreen_starvation (c : Fin 24) (x : Screen) : (s.setScreen c x).starvation = s.starvation := by
  unfold setScreen markScreen modPorts; split <;> rfl
@[simp] theorem setScreen_library (c : Fin 24) (x : Screen) : (s.setScreen c x).library = s.library := by
  unfold setScreen markScreen modPorts; split <;> rfl
@[simp] theorem setScreen_screens (c : Fin 24) (x : Screen) : (s.setScreen c x).screens = put s.screens c x := by
  unfold setScreen markScreen modPorts; split <;> rfl
@[simp] theorem setScreen_rateA (c : Fin 24) (x : Screen) : (s.setScreen c x).rateA = s.rateA := by
  unfold setScreen markScreen modPorts; split <;> rfl
@[simp] theorem setScreen_rateB (c : Fin 24) (x : Screen) : (s.setScreen c x).rateB = s.rateB := by
  unfold setScreen markScreen modPorts; split <;> rfl
@[simp] theorem setScreen_palette (c : Fin 24) (x : Screen) : (s.setScreen c x).palette = s.palette := by
  unfold setScreen markScreen modPorts; split <;> rfl
@[simp] theorem setScreen_ramp (c : Fin 24) (x : Screen) : (s.setScreen c x).ramp = s.ramp := by
  unfold setScreen markScreen modPorts; split <;> rfl
@[simp] theorem setScreen_rotations (c : Fin 24) (x : Screen) : (s.setScreen c x).rotations = s.rotations := by
  unfold setScreen markScreen modPorts; split <;> rfl
@[simp] theorem setScreen_scenes (c : Fin 24) (x : Screen) : (s.setScreen c x).scenes = s.scenes := by
  unfold setScreen markScreen modPorts; split <;> rfl
@[simp] theorem setScreen_serial (c : Fin 24) (x : Screen) : (s.setScreen c x).serial = s.serial := by
  unfold setScreen markScreen modPorts; split <;> rfl
@[simp] theorem setScreen_job (c : Fin 24) (x : Screen) : (s.setScreen c x).job = s.job := by
  unfold setScreen markScreen modPorts; split <;> rfl
@[simp] theorem setScreen_cues (c : Fin 24) (x : Screen) : (s.setScreen c x).cues = s.cues := by
  unfold setScreen markScreen modPorts; split <;> rfl
@[simp] theorem setScreen_runners (c : Fin 24) (x : Screen) : (s.setScreen c x).runners = s.runners := by
  unfold setScreen markScreen modPorts; split <;> rfl
@[simp] theorem setScreen_time (c : Fin 24) (x : Screen) : (s.setScreen c x).time = s.time := by
  unfold setScreen markScreen modPorts; split <;> rfl
@[simp] theorem setScreen_alarms (c : Fin 24) (x : Screen) : (s.setScreen c x).alarms = s.alarms := by
  unfold setScreen markScreen modPorts; split <;> rfl
@[simp] theorem setScreen_triggers (c : Fin 24) (x : Screen) : (s.setScreen c x).triggers = s.triggers := by
  unfold setScreen markScreen modPorts; split <;> rfl
@[simp] theorem setScreen_served (c : Fin 24) (x : Screen) : (s.setScreen c x).served = s.served := by
  unfold setScreen markScreen modPorts; split <;> rfl
@[simp] theorem setScreen_store (c : Fin 24) (x : Screen) : (s.setScreen c x).store = s.store := by
  unfold setScreen markScreen modPorts; split <;> rfl
@[simp] theorem setScreen_freeCount (c : Fin 24) (x : Screen) : (s.setScreen c x).freeCount = s.freeCount := by
  unfold setScreen markScreen modPorts; split <;> rfl
@[simp] theorem setScreen_pending (c : Fin 24) (x : Screen) : (s.setScreen c x).pending = s.pending := by
  unfold setScreen markScreen modPorts; split <;> rfl

@[simp] theorem setRunner_sources (r : Fin 4) (x : Runner) : (s.setRunner r x).sources = s.sources := by
  unfold setRunner markRunner modPorts; split <;> rfl
@[simp] theorem setRunner_slots (r : Fin 4) (x : Runner) : (s.setRunner r x).slots = s.slots := by
  unfold setRunner markRunner modPorts; split <;> rfl
@[simp] theorem setRunner_stills (r : Fin 4) (x : Runner) : (s.setRunner r x).stills = s.stills := by
  unfold setRunner markRunner modPorts; split <;> rfl
@[simp] theorem setRunner_starvation (r : Fin 4) (x : Runner) : (s.setRunner r x).starvation = s.starvation := by
  unfold setRunner markRunner modPorts; split <;> rfl
@[simp] theorem setRunner_library (r : Fin 4) (x : Runner) : (s.setRunner r x).library = s.library := by
  unfold setRunner markRunner modPorts; split <;> rfl
@[simp] theorem setRunner_screens (r : Fin 4) (x : Runner) : (s.setRunner r x).screens = s.screens := by
  unfold setRunner markRunner modPorts; split <;> rfl
@[simp] theorem setRunner_rateA (r : Fin 4) (x : Runner) : (s.setRunner r x).rateA = s.rateA := by
  unfold setRunner markRunner modPorts; split <;> rfl
@[simp] theorem setRunner_rateB (r : Fin 4) (x : Runner) : (s.setRunner r x).rateB = s.rateB := by
  unfold setRunner markRunner modPorts; split <;> rfl
@[simp] theorem setRunner_palette (r : Fin 4) (x : Runner) : (s.setRunner r x).palette = s.palette := by
  unfold setRunner markRunner modPorts; split <;> rfl
@[simp] theorem setRunner_ramp (r : Fin 4) (x : Runner) : (s.setRunner r x).ramp = s.ramp := by
  unfold setRunner markRunner modPorts; split <;> rfl
@[simp] theorem setRunner_rotations (r : Fin 4) (x : Runner) : (s.setRunner r x).rotations = s.rotations := by
  unfold setRunner markRunner modPorts; split <;> rfl
@[simp] theorem setRunner_scenes (r : Fin 4) (x : Runner) : (s.setRunner r x).scenes = s.scenes := by
  unfold setRunner markRunner modPorts; split <;> rfl
@[simp] theorem setRunner_serial (r : Fin 4) (x : Runner) : (s.setRunner r x).serial = s.serial := by
  unfold setRunner markRunner modPorts; split <;> rfl
@[simp] theorem setRunner_job (r : Fin 4) (x : Runner) : (s.setRunner r x).job = s.job := by
  unfold setRunner markRunner modPorts; split <;> rfl
@[simp] theorem setRunner_cues (r : Fin 4) (x : Runner) : (s.setRunner r x).cues = s.cues := by
  unfold setRunner markRunner modPorts; split <;> rfl
@[simp] theorem setRunner_runners (r : Fin 4) (x : Runner) : (s.setRunner r x).runners = put s.runners r x := by
  unfold setRunner markRunner modPorts; split <;> rfl
@[simp] theorem setRunner_time (r : Fin 4) (x : Runner) : (s.setRunner r x).time = s.time := by
  unfold setRunner markRunner modPorts; split <;> rfl
@[simp] theorem setRunner_alarms (r : Fin 4) (x : Runner) : (s.setRunner r x).alarms = s.alarms := by
  unfold setRunner markRunner modPorts; split <;> rfl
@[simp] theorem setRunner_triggers (r : Fin 4) (x : Runner) : (s.setRunner r x).triggers = s.triggers := by
  unfold setRunner markRunner modPorts; split <;> rfl
@[simp] theorem setRunner_served (r : Fin 4) (x : Runner) : (s.setRunner r x).served = s.served := by
  unfold setRunner markRunner modPorts; split <;> rfl
@[simp] theorem setRunner_store (r : Fin 4) (x : Runner) : (s.setRunner r x).store = s.store := by
  unfold setRunner markRunner modPorts; split <;> rfl
@[simp] theorem setRunner_freeCount (r : Fin 4) (x : Runner) : (s.setRunner r x).freeCount = s.freeCount := by
  unfold setRunner markRunner modPorts; split <;> rfl
@[simp] theorem setRunner_pending (r : Fin 4) (x : Runner) : (s.setRunner r x).pending = s.pending := by
  unfold setRunner markRunner modPorts; split <;> rfl

@[simp] theorem setJob_sources (j : Job) : (s.setJob j).sources = s.sources := by
  unfold setJob markTake modPorts; split <;> rfl
@[simp] theorem setJob_slots (j : Job) : (s.setJob j).slots = s.slots := by
  unfold setJob markTake modPorts; split <;> rfl
@[simp] theorem setJob_stills (j : Job) : (s.setJob j).stills = s.stills := by
  unfold setJob markTake modPorts; split <;> rfl
@[simp] theorem setJob_starvation (j : Job) : (s.setJob j).starvation = s.starvation := by
  unfold setJob markTake modPorts; split <;> rfl
@[simp] theorem setJob_library (j : Job) : (s.setJob j).library = s.library := by
  unfold setJob markTake modPorts; split <;> rfl
@[simp] theorem setJob_screens (j : Job) : (s.setJob j).screens = s.screens := by
  unfold setJob markTake modPorts; split <;> rfl
@[simp] theorem setJob_rateA (j : Job) : (s.setJob j).rateA = s.rateA := by
  unfold setJob markTake modPorts; split <;> rfl
@[simp] theorem setJob_rateB (j : Job) : (s.setJob j).rateB = s.rateB := by
  unfold setJob markTake modPorts; split <;> rfl
@[simp] theorem setJob_palette (j : Job) : (s.setJob j).palette = s.palette := by
  unfold setJob markTake modPorts; split <;> rfl
@[simp] theorem setJob_ramp (j : Job) : (s.setJob j).ramp = s.ramp := by
  unfold setJob markTake modPorts; split <;> rfl
@[simp] theorem setJob_rotations (j : Job) : (s.setJob j).rotations = s.rotations := by
  unfold setJob markTake modPorts; split <;> rfl
@[simp] theorem setJob_scenes (j : Job) : (s.setJob j).scenes = s.scenes := by
  unfold setJob markTake modPorts; split <;> rfl
@[simp] theorem setJob_serial (j : Job) : (s.setJob j).serial = s.serial := by
  unfold setJob markTake modPorts; split <;> rfl
@[simp] theorem setJob_job (j : Job) : (s.setJob j).job = some j := by
  unfold setJob markTake modPorts; split <;> rfl
@[simp] theorem setJob_cues (j : Job) : (s.setJob j).cues = s.cues := by
  unfold setJob markTake modPorts; split <;> rfl
@[simp] theorem setJob_runners (j : Job) : (s.setJob j).runners = s.runners := by
  unfold setJob markTake modPorts; split <;> rfl
@[simp] theorem setJob_time (j : Job) : (s.setJob j).time = s.time := by
  unfold setJob markTake modPorts; split <;> rfl
@[simp] theorem setJob_alarms (j : Job) : (s.setJob j).alarms = s.alarms := by
  unfold setJob markTake modPorts; split <;> rfl
@[simp] theorem setJob_triggers (j : Job) : (s.setJob j).triggers = s.triggers := by
  unfold setJob markTake modPorts; split <;> rfl
@[simp] theorem setJob_served (j : Job) : (s.setJob j).served = s.served := by
  unfold setJob markTake modPorts; split <;> rfl
@[simp] theorem setJob_store (j : Job) : (s.setJob j).store = s.store := by
  unfold setJob markTake modPorts; split <;> rfl
@[simp] theorem setJob_freeCount (j : Job) : (s.setJob j).freeCount = s.freeCount := by
  unfold setJob markTake modPorts; split <;> rfl
@[simp] theorem setJob_pending (j : Job) : (s.setJob j).pending = s.pending := by
  unfold setJob markTake modPorts; split <;> rfl

end Sys2Proof.Machine.State
end

