-- ==== Sys2Proof/Laws/Frames.lean ====
section
/-! SUPPORT. What each operation leaves as it was, one lemma for each: every field that it does not touch. `holdings` is
what the ports hold of queues and grants. -/

namespace Sys2Proof.Machine

set_option linter.unusedSimpArgs false

/-- The request queues and grants of the ports. -/
def State.holdings (s : State) : Vector (List Request × Grant) 16 := mapTable (fun x => (x.queue, x.grant)) s.ports

/-- What is read from the ports alone. -/
theorem holdings_congr {t u : State} (h : t.ports = u.ports) : t.holdings = u.holdings := by
  unfold State.holdings
  rw [h]

/-- A state written from another with its ports. -/
@[simp] theorem holdings_mk (s : State) (a1 a2 a3 a4 a5 a6 a7 a8 a9 a10 a11 a12 a13 a14 a15 a16 a17 a18 a19 a20 a21 a22 a23) :
    (State.mk s.ports a1 a2 a3 a4 a5 a6 a7 a8 a9 a10 a11 a12 a13 a14 a15 a16 a17 a18 a19 a20 a21 a22 a23).holdings =
      s.holdings := rfl

/-- A change of one port that leaves its queue and its grant. -/
theorem modPort_holdings (p : Fin 16) (f : Port → Port) (s : State) (h : ∀ x : Port, (f x).queue = x.queue ∧ (f x).grant = x.grant) :
    (s.modPort p f).holdings = s.holdings := by
  refine table_ext fun q => ?_
  simp only [State.holdings, State.modPort_ports, mapTable_get, put_get]
  split
  · next e => rw [(h _).1, (h _).2, e]
  · rfl

/-- A change of every port that leaves the queues and the grants. -/
theorem modPorts_holdings (f : Port → Port) (s : State) (h : ∀ x : Port, (f x).queue = x.queue ∧ (f x).grant = x.grant) :
    (s.modPorts f).holdings = s.holdings := by
  refine table_ext fun q => ?_
  simp only [State.holdings, State.modPorts_ports, mapTable_get, (h _).1, (h _).2]


/-- A fold of operations that each leave a part of the state leaves it. -/
theorem foldl_keeps {σ α β : Type} (π : σ → β) (g : σ → α → σ) (h : ∀ (s : σ) (a : α), π (g s a) = π s) (l : List α) (s : σ) :
    π (l.foldl g s) = π s := by
  induction l generalizing s with
  | nil => rfl
  | cons a t ih => rw [List.foldl_cons, ih, h]

section
variable (s : State)

/-! ### The named updates leave what the ports hold -/

@[simp] theorem modSource_holdings (i : Fin 16) (f : Source → Source) : (s.modSource i f).holdings = s.holdings := holdings_congr rfl
@[simp] theorem modSlot_holdings (k : Fin 64) (f : Slot → Slot) : (s.modSlot k f).holdings = s.holdings := holdings_congr rfl
@[simp] theorem modAlarm_holdings (n : Fin 16) (f : Alarm → Alarm) : (s.modAlarm n f).holdings = s.holdings := holdings_congr rfl
@[simp] theorem modTrigger_holdings (n : Fin 16) (f : Trigger → Trigger) : (s.modTrigger n f).holdings = s.holdings := holdings_congr rfl
@[simp] theorem modFlash_holdings (f : Flash → Flash) : (s.modFlash f).holdings = s.holdings := holdings_congr rfl
@[simp] theorem modCounters_holdings (p : Fin 16) (f : PortCounters → PortCounters) : (s.modCounters p f).holdings = s.holdings :=
  modPort_holdings _ _ _ fun _ => ⟨rfl, rfl⟩
@[simp] theorem markSource_holdings (i : Fin 16) : (s.markSource i).holdings = s.holdings :=
  modPorts_holdings _ _ fun _ => ⟨rfl, rfl⟩
@[simp] theorem markScreen_holdings (c : Fin 24) : (s.markScreen c).holdings = s.holdings :=
  modPorts_holdings _ _ fun _ => ⟨rfl, rfl⟩
@[simp] theorem markRunner_holdings (r : Fin 4) : (s.markRunner r).holdings = s.holdings :=
  modPorts_holdings _ _ fun _ => ⟨rfl, rfl⟩
@[simp] theorem markTake_holdings : (s.markTake).holdings = s.holdings :=
  modPorts_holdings _ _ fun _ => ⟨rfl, rfl⟩
@[simp] theorem setSourceState_holdings (i : Fin 16) (st : SourceState) : (s.setSourceState i st).holdings = s.holdings := by
  unfold State.setSourceState
  dsimp only
  split <;> simp
@[simp] theorem setScreen_holdings (c : Fin 24) (x : Screen) : (s.setScreen c x).holdings = s.holdings := by
  unfold State.setScreen
  dsimp only
  split <;> simp
@[simp] theorem setRunner_holdings (r : Fin 4) (x : Runner) : (s.setRunner r x).holdings = s.holdings := by
  unfold State.setRunner
  dsimp only
  split <;> simp
@[simp] theorem setJob_holdings (j : Job) : (s.setJob j).holdings = s.holdings := by
  unfold State.setJob
  dsimp only
  split <;> simp

/-! ### The picture pool (03) -/

/-- R39, R48: a GRANT touches the pool and the starvation record. -/
@[simp] theorem grant_frame (i : Fin 16) (n : Byte) (f : Format) :
    (s.grant i n f).2.ports = s.ports ∧ (s.grant i n f).2.sources = s.sources ∧ (s.grant i n f).2.stills = s.stills ∧
    (s.grant i n f).2.library = s.library ∧ (s.grant i n f).2.screens = s.screens ∧
    (s.grant i n f).2.rateA = s.rateA ∧ (s.grant i n f).2.rateB = s.rateB ∧ (s.grant i n f).2.palette = s.palette ∧
    (s.grant i n f).2.ramp = s.ramp ∧ (s.grant i n f).2.rotations = s.rotations ∧
    (s.grant i n f).2.scenes = s.scenes ∧ (s.grant i n f).2.serial = s.serial ∧ (s.grant i n f).2.job = s.job ∧
    (s.grant i n f).2.cues = s.cues ∧ (s.grant i n f).2.runners = s.runners ∧ (s.grant i n f).2.time = s.time ∧
    (s.grant i n f).2.alarms = s.alarms ∧ (s.grant i n f).2.triggers = s.triggers ∧
    (s.grant i n f).2.served = s.served ∧ (s.grant i n f).2.store = s.store ∧
    (s.grant i n f).2.freeCount = s.freeCount ∧ (s.grant i n f).2.pending = s.pending ∧
    (s.grant i n f).2.holdings = s.holdings := by
  unfold State.grant
  try dsimp only
  (repeat' split) <;> simp [modPort_holdings, modPorts_holdings]

/-- R6: a band is written into its slot. -/
@[simp] theorem writeBand_frame (k : Fin 64) (b : List Byte) :
    (s.writeBand k b).ports = s.ports ∧ (s.writeBand k b).sources = s.sources ∧ (s.writeBand k b).stills = s.stills ∧
    (s.writeBand k b).starvation = s.starvation ∧ (s.writeBand k b).library = s.library ∧
    (s.writeBand k b).screens = s.screens ∧ (s.writeBand k b).rateA = s.rateA ∧ (s.writeBand k b).rateB = s.rateB ∧
    (s.writeBand k b).palette = s.palette ∧ (s.writeBand k b).ramp = s.ramp ∧
    (s.writeBand k b).rotations = s.rotations ∧ (s.writeBand k b).scenes = s.scenes ∧
    (s.writeBand k b).serial = s.serial ∧ (s.writeBand k b).job = s.job ∧ (s.writeBand k b).cues = s.cues ∧
    (s.writeBand k b).runners = s.runners ∧ (s.writeBand k b).time = s.time ∧ (s.writeBand k b).alarms = s.alarms ∧
    (s.writeBand k b).triggers = s.triggers ∧ (s.writeBand k b).served = s.served ∧
    (s.writeBand k b).store = s.store ∧ (s.writeBand k b).freeCount = s.freeCount ∧
    (s.writeBand k b).pending = s.pending ∧ (s.writeBand k b).holdings = s.holdings := by
  unfold State.writeBand
  simp [modPort_holdings, modPorts_holdings]

/-- R42: a retirement touches the pool. -/
@[simp] theorem retire_frame (i : Fin 16) :
    (s.retire i).ports = s.ports ∧ (s.retire i).sources = s.sources ∧ (s.retire i).stills = s.stills ∧
    (s.retire i).starvation = s.starvation ∧ (s.retire i).library = s.library ∧ (s.retire i).screens = s.screens ∧
    (s.retire i).rateA = s.rateA ∧ (s.retire i).rateB = s.rateB ∧ (s.retire i).palette = s.palette ∧
    (s.retire i).ramp = s.ramp ∧ (s.retire i).rotations = s.rotations ∧ (s.retire i).scenes = s.scenes ∧
    (s.retire i).serial = s.serial ∧ (s.retire i).job = s.job ∧ (s.retire i).cues = s.cues ∧
    (s.retire i).runners = s.runners ∧ (s.retire i).time = s.time ∧ (s.retire i).alarms = s.alarms ∧
    (s.retire i).triggers = s.triggers ∧ (s.retire i).served = s.served ∧ (s.retire i).store = s.store ∧
    (s.retire i).freeCount = s.freeCount ∧ (s.retire i).pending = s.pending ∧ (s.retire i).holdings = s.holdings := by
  unfold State.retire
  try dsimp only
  (repeat' split) <;> simp [modPort_holdings, modPorts_holdings]

/-- R40: a PUBLISH touches the pool. -/
@[simp] theorem publish_frame (i : Fin 16) (k : Fin 64) :
    (s.publish i k).ports = s.ports ∧ (s.publish i k).sources = s.sources ∧ (s.publish i k).stills = s.stills ∧
    (s.publish i k).starvation = s.starvation ∧ (s.publish i k).library = s.library ∧
    (s.publish i k).screens = s.screens ∧ (s.publish i k).rateA = s.rateA ∧ (s.publish i k).rateB = s.rateB ∧
    (s.publish i k).palette = s.palette ∧ (s.publish i k).ramp = s.ramp ∧ (s.publish i k).rotations = s.rotations ∧
    (s.publish i k).scenes = s.scenes ∧ (s.publish i k).serial = s.serial ∧ (s.publish i k).job = s.job ∧
    (s.publish i k).cues = s.cues ∧ (s.publish i k).runners = s.runners ∧ (s.publish i k).time = s.time ∧
    (s.publish i k).alarms = s.alarms ∧ (s.publish i k).triggers = s.triggers ∧ (s.publish i k).served = s.served ∧
    (s.publish i k).store = s.store ∧ (s.publish i k).freeCount = s.freeCount ∧ (s.publish i k).pending = s.pending ∧
    (s.publish i k).holdings = s.holdings := by
  unfold State.publish
  simp [modPort_holdings, modPorts_holdings]

/-- R41: an ABANDON touches the pool. -/
@[simp] theorem abandon_frame (k : Fin 64) :
    (s.abandon k).ports = s.ports ∧ (s.abandon k).sources = s.sources ∧ (s.abandon k).stills = s.stills ∧
    (s.abandon k).starvation = s.starvation ∧ (s.abandon k).library = s.library ∧ (s.abandon k).screens = s.screens ∧
    (s.abandon k).rateA = s.rateA ∧ (s.abandon k).rateB = s.rateB ∧ (s.abandon k).palette = s.palette ∧
    (s.abandon k).ramp = s.ramp ∧ (s.abandon k).rotations = s.rotations ∧ (s.abandon k).scenes = s.scenes ∧
    (s.abandon k).serial = s.serial ∧ (s.abandon k).job = s.job ∧ (s.abandon k).cues = s.cues ∧
    (s.abandon k).runners = s.runners ∧ (s.abandon k).time = s.time ∧ (s.abandon k).alarms = s.alarms ∧
    (s.abandon k).triggers = s.triggers ∧ (s.abandon k).served = s.served ∧ (s.abandon k).store = s.store ∧
    (s.abandon k).freeCount = s.freeCount ∧ (s.abandon k).pending = s.pending ∧ (s.abandon k).holdings = s.holdings := by
  unfold State.abandon
  simp [modPort_holdings, modPorts_holdings]

/-- R44: a LATCH touches the pool. -/
@[simp] theorem latch_frame (k : Fin 64) :
    (s.latch k).ports = s.ports ∧ (s.latch k).sources = s.sources ∧ (s.latch k).stills = s.stills ∧
    (s.latch k).starvation = s.starvation ∧ (s.latch k).library = s.library ∧ (s.latch k).screens = s.screens ∧
    (s.latch k).rateA = s.rateA ∧ (s.latch k).rateB = s.rateB ∧ (s.latch k).palette = s.palette ∧
    (s.latch k).ramp = s.ramp ∧ (s.latch k).rotations = s.rotations ∧ (s.latch k).scenes = s.scenes ∧
    (s.latch k).serial = s.serial ∧ (s.latch k).job = s.job ∧ (s.latch k).cues = s.cues ∧
    (s.latch k).runners = s.runners ∧ (s.latch k).time = s.time ∧ (s.latch k).alarms = s.alarms ∧
    (s.latch k).triggers = s.triggers ∧ (s.latch k).served = s.served ∧ (s.latch k).store = s.store ∧
    (s.latch k).freeCount = s.freeCount ∧ (s.latch k).pending = s.pending ∧ (s.latch k).holdings = s.holdings := by
  unfold State.latch
  simp [modPort_holdings, modPorts_holdings]

/-- R45: a RELEASE touches the pool. -/
@[simp] theorem release_frame (k : Fin 64) :
    (s.release k).ports = s.ports ∧ (s.release k).sources = s.sources ∧ (s.release k).stills = s.stills ∧
    (s.release k).starvation = s.starvation ∧ (s.release k).library = s.library ∧ (s.release k).screens = s.screens ∧
    (s.release k).rateA = s.rateA ∧ (s.release k).rateB = s.rateB ∧ (s.release k).palette = s.palette ∧
    (s.release k).ramp = s.ramp ∧ (s.release k).rotations = s.rotations ∧ (s.release k).scenes = s.scenes ∧
    (s.release k).serial = s.serial ∧ (s.release k).job = s.job ∧ (s.release k).cues = s.cues ∧
    (s.release k).runners = s.runners ∧ (s.release k).time = s.time ∧ (s.release k).alarms = s.alarms ∧
    (s.release k).triggers = s.triggers ∧ (s.release k).served = s.served ∧ (s.release k).store = s.store ∧
    (s.release k).freeCount = s.freeCount ∧ (s.release k).pending = s.pending ∧ (s.release k).holdings = s.holdings := by
  unfold State.release
  simp [modPort_holdings, modPorts_holdings]

/-- A RELEASE of a latch that may be absent touches the pool. -/
@[simp] theorem releaseOpt_frame (k : Option (Fin 64)) :
    (s.releaseOpt k).ports = s.ports ∧ (s.releaseOpt k).sources = s.sources ∧ (s.releaseOpt k).stills = s.stills ∧
    (s.releaseOpt k).starvation = s.starvation ∧ (s.releaseOpt k).library = s.library ∧
    (s.releaseOpt k).screens = s.screens ∧ (s.releaseOpt k).rateA = s.rateA ∧ (s.releaseOpt k).rateB = s.rateB ∧
    (s.releaseOpt k).palette = s.palette ∧ (s.releaseOpt k).ramp = s.ramp ∧
    (s.releaseOpt k).rotations = s.rotations ∧ (s.releaseOpt k).scenes = s.scenes ∧
    (s.releaseOpt k).serial = s.serial ∧ (s.releaseOpt k).job = s.job ∧ (s.releaseOpt k).cues = s.cues ∧
    (s.releaseOpt k).runners = s.runners ∧ (s.releaseOpt k).time = s.time ∧ (s.releaseOpt k).alarms = s.alarms ∧
    (s.releaseOpt k).triggers = s.triggers ∧ (s.releaseOpt k).served = s.served ∧ (s.releaseOpt k).store = s.store ∧
    (s.releaseOpt k).freeCount = s.freeCount ∧ (s.releaseOpt k).pending = s.pending ∧
    (s.releaseOpt k).holdings = s.holdings := by
  cases k <;> simp [modPort_holdings, modPorts_holdings, State.releaseOpt]

/-- A RELEASE of the latches of windows touches the pool. -/
@[simp] theorem releaseWindows_frame (ws : List LiveWindow) :
    (s.releaseWindows ws).ports = s.ports ∧ (s.releaseWindows ws).sources = s.sources ∧
    (s.releaseWindows ws).stills = s.stills ∧ (s.releaseWindows ws).starvation = s.starvation ∧
    (s.releaseWindows ws).library = s.library ∧ (s.releaseWindows ws).screens = s.screens ∧
    (s.releaseWindows ws).rateA = s.rateA ∧ (s.releaseWindows ws).rateB = s.rateB ∧
    (s.releaseWindows ws).palette = s.palette ∧ (s.releaseWindows ws).ramp = s.ramp ∧
    (s.releaseWindows ws).rotations = s.rotations ∧ (s.releaseWindows ws).scenes = s.scenes ∧
    (s.releaseWindows ws).serial = s.serial ∧ (s.releaseWindows ws).job = s.job ∧
    (s.releaseWindows ws).cues = s.cues ∧ (s.releaseWindows ws).runners = s.runners ∧
    (s.releaseWindows ws).time = s.time ∧ (s.releaseWindows ws).alarms = s.alarms ∧
    (s.releaseWindows ws).triggers = s.triggers ∧ (s.releaseWindows ws).served = s.served ∧
    (s.releaseWindows ws).store = s.store ∧ (s.releaseWindows ws).freeCount = s.freeCount ∧
    (s.releaseWindows ws).pending = s.pending ∧ (s.releaseWindows ws).holdings = s.holdings := by
  induction ws generalizing s with
  | nil => simp [modPort_holdings, modPorts_holdings, State.releaseWindows]
  | cons w t ih => simp [modPort_holdings, modPorts_holdings, State.releaseWindows, ih]


/-! ### Free values and the flash -/

/-- A detail that no rule states moves the model's own counter. -/
@[simp] theorem drawDetail_frame (d : Option Nat) :
    (s.drawDetail d).2.ports = s.ports ∧ (s.drawDetail d).2.sources = s.sources ∧
    (s.drawDetail d).2.slots = s.slots ∧ (s.drawDetail d).2.stills = s.stills ∧
    (s.drawDetail d).2.starvation = s.starvation ∧ (s.drawDetail d).2.library = s.library ∧
    (s.drawDetail d).2.screens = s.screens ∧ (s.drawDetail d).2.rateA = s.rateA ∧
    (s.drawDetail d).2.rateB = s.rateB ∧ (s.drawDetail d).2.palette = s.palette ∧ (s.drawDetail d).2.ramp = s.ramp ∧
    (s.drawDetail d).2.rotations = s.rotations ∧ (s.drawDetail d).2.scenes = s.scenes ∧
    (s.drawDetail d).2.serial = s.serial ∧ (s.drawDetail d).2.job = s.job ∧ (s.drawDetail d).2.cues = s.cues ∧
    (s.drawDetail d).2.runners = s.runners ∧ (s.drawDetail d).2.time = s.time ∧
    (s.drawDetail d).2.alarms = s.alarms ∧ (s.drawDetail d).2.triggers = s.triggers ∧
    (s.drawDetail d).2.served = s.served ∧ (s.drawDetail d).2.store = s.store ∧
    (s.drawDetail d).2.pending = s.pending ∧ (s.drawDetail d).2.holdings = s.holdings := by
  cases d <;> simp [modPort_holdings, modPorts_holdings, State.drawDetail]

/-- An image area that is no longer given. -/
@[simp] theorem loseImageArea_frame (b : Bool) :
    (s.loseImageArea b).ports = s.ports ∧ (s.loseImageArea b).sources = s.sources ∧
    (s.loseImageArea b).slots = s.slots ∧ (s.loseImageArea b).stills = s.stills ∧
    (s.loseImageArea b).starvation = s.starvation ∧ (s.loseImageArea b).library = s.library ∧
    (s.loseImageArea b).screens = s.screens ∧ (s.loseImageArea b).rateA = s.rateA ∧
    (s.loseImageArea b).rateB = s.rateB ∧ (s.loseImageArea b).palette = s.palette ∧
    (s.loseImageArea b).ramp = s.ramp ∧ (s.loseImageArea b).rotations = s.rotations ∧
    (s.loseImageArea b).scenes = s.scenes ∧ (s.loseImageArea b).serial = s.serial ∧ (s.loseImageArea b).job = s.job ∧
    (s.loseImageArea b).cues = s.cues ∧ (s.loseImageArea b).runners = s.runners ∧ (s.loseImageArea b).time = s.time ∧
    (s.loseImageArea b).alarms = s.alarms ∧ (s.loseImageArea b).triggers = s.triggers ∧
    (s.loseImageArea b).served = s.served ∧ (s.loseImageArea b).pending = s.pending ∧
    (s.loseImageArea b).holdings = s.holdings := by
  unfold State.loseImageArea
  simp [modPort_holdings, modPorts_holdings]


/-! ### Runners and triggers (08, 09) -/

/-- R143: a start touches the runners and the change marks. -/
@[simp] theorem startRunner_frame (r : Fin 4) (a : Nat) (c : StartCause) :
    (s.startRunner r a c).sources = s.sources ∧ (s.startRunner r a c).slots = s.slots ∧
    (s.startRunner r a c).stills = s.stills ∧ (s.startRunner r a c).starvation = s.starvation ∧
    (s.startRunner r a c).library = s.library ∧ (s.startRunner r a c).screens = s.screens ∧
    (s.startRunner r a c).rateA = s.rateA ∧ (s.startRunner r a c).rateB = s.rateB ∧
    (s.startRunner r a c).palette = s.palette ∧ (s.startRunner r a c).ramp = s.ramp ∧
    (s.startRunner r a c).rotations = s.rotations ∧ (s.startRunner r a c).scenes = s.scenes ∧
    (s.startRunner r a c).serial = s.serial ∧ (s.startRunner r a c).job = s.job ∧
    (s.startRunner r a c).cues = s.cues ∧ (s.startRunner r a c).time = s.time ∧
    (s.startRunner r a c).alarms = s.alarms ∧ (s.startRunner r a c).triggers = s.triggers ∧
    (s.startRunner r a c).served = s.served ∧ (s.startRunner r a c).store = s.store ∧
    (s.startRunner r a c).freeCount = s.freeCount ∧ (s.startRunner r a c).pending = s.pending ∧
    (s.startRunner r a c).holdings = s.holdings := by
  unfold State.startRunner
  simp [modPort_holdings, modPorts_holdings]

/-- R139: an execution that goes on touches the runners and the change marks. -/
@[simp] theorem advanceRunner_frame (r : Fin 4) :
    (s.advanceRunner r).sources = s.sources ∧ (s.advanceRunner r).slots = s.slots ∧
    (s.advanceRunner r).stills = s.stills ∧ (s.advanceRunner r).starvation = s.starvation ∧
    (s.advanceRunner r).library = s.library ∧ (s.advanceRunner r).screens = s.screens ∧
    (s.advanceRunner r).rateA = s.rateA ∧ (s.advanceRunner r).rateB = s.rateB ∧
    (s.advanceRunner r).palette = s.palette ∧ (s.advanceRunner r).ramp = s.ramp ∧
    (s.advanceRunner r).rotations = s.rotations ∧ (s.advanceRunner r).scenes = s.scenes ∧
    (s.advanceRunner r).serial = s.serial ∧ (s.advanceRunner r).job = s.job ∧ (s.advanceRunner r).cues = s.cues ∧
    (s.advanceRunner r).time = s.time ∧ (s.advanceRunner r).alarms = s.alarms ∧
    (s.advanceRunner r).triggers = s.triggers ∧ (s.advanceRunner r).served = s.served ∧
    (s.advanceRunner r).store = s.store ∧ (s.advanceRunner r).freeCount = s.freeCount ∧
    (s.advanceRunner r).pending = s.pending ∧ (s.advanceRunner r).holdings = s.holdings := by
  unfold State.advanceRunner
  simp [modPort_holdings, modPorts_holdings]

/-- R140: the begin of a wait touches the runners and the change marks. -/
@[simp] theorem enterWait_frame (r : Fin 4) (w : Wait) :
    (s.enterWait r w).sources = s.sources ∧ (s.enterWait r w).slots = s.slots ∧ (s.enterWait r w).stills = s.stills ∧
    (s.enterWait r w).starvation = s.starvation ∧ (s.enterWait r w).library = s.library ∧
    (s.enterWait r w).screens = s.screens ∧ (s.enterWait r w).rateA = s.rateA ∧ (s.enterWait r w).rateB = s.rateB ∧
    (s.enterWait r w).palette = s.palette ∧ (s.enterWait r w).ramp = s.ramp ∧
    (s.enterWait r w).rotations = s.rotations ∧ (s.enterWait r w).scenes = s.scenes ∧
    (s.enterWait r w).serial = s.serial ∧ (s.enterWait r w).job = s.job ∧ (s.enterWait r w).cues = s.cues ∧
    (s.enterWait r w).time = s.time ∧ (s.enterWait r w).alarms = s.alarms ∧ (s.enterWait r w).triggers = s.triggers ∧
    (s.enterWait r w).served = s.served ∧ (s.enterWait r w).store = s.store ∧
    (s.enterWait r w).freeCount = s.freeCount ∧ (s.enterWait r w).pending = s.pending ∧
    (s.enterWait r w).holdings = s.holdings := by
  unfold State.enterWait
  simp [modPort_holdings, modPorts_holdings]

/-- The end of a wait touches the runners and the change marks. -/
@[simp] theorem endWait_frame (r : Fin 4) :
    (s.endWait r).sources = s.sources ∧ (s.endWait r).slots = s.slots ∧ (s.endWait r).stills = s.stills ∧
    (s.endWait r).starvation = s.starvation ∧ (s.endWait r).library = s.library ∧ (s.endWait r).screens = s.screens ∧
    (s.endWait r).rateA = s.rateA ∧ (s.endWait r).rateB = s.rateB ∧ (s.endWait r).palette = s.palette ∧
    (s.endWait r).ramp = s.ramp ∧ (s.endWait r).rotations = s.rotations ∧ (s.endWait r).scenes = s.scenes ∧
    (s.endWait r).serial = s.serial ∧ (s.endWait r).job = s.job ∧ (s.endWait r).cues = s.cues ∧
    (s.endWait r).time = s.time ∧ (s.endWait r).alarms = s.alarms ∧ (s.endWait r).triggers = s.triggers ∧
    (s.endWait r).served = s.served ∧ (s.endWait r).store = s.store ∧ (s.endWait r).freeCount = s.freeCount ∧
    (s.endWait r).pending = s.pending ∧ (s.endWait r).holdings = s.holdings := by
  unfold State.endWait
  simp [modPort_holdings, modPorts_holdings]

/-- R141: a fault touches the runners, the change marks and the counter of free values. -/
@[simp] theorem faultRunner_frame (r : Fin 4) (k : Code) (d : Option Nat) :
    (s.faultRunner r k d).sources = s.sources ∧ (s.faultRunner r k d).slots = s.slots ∧
    (s.faultRunner r k d).stills = s.stills ∧ (s.faultRunner r k d).starvation = s.starvation ∧
    (s.faultRunner r k d).library = s.library ∧ (s.faultRunner r k d).screens = s.screens ∧
    (s.faultRunner r k d).rateA = s.rateA ∧ (s.faultRunner r k d).rateB = s.rateB ∧
    (s.faultRunner r k d).palette = s.palette ∧ (s.faultRunner r k d).ramp = s.ramp ∧
    (s.faultRunner r k d).rotations = s.rotations ∧ (s.faultRunner r k d).scenes = s.scenes ∧
    (s.faultRunner r k d).serial = s.serial ∧ (s.faultRunner r k d).job = s.job ∧
    (s.faultRunner r k d).cues = s.cues ∧ (s.faultRunner r k d).time = s.time ∧
    (s.faultRunner r k d).alarms = s.alarms ∧ (s.faultRunner r k d).triggers = s.triggers ∧
    (s.faultRunner r k d).served = s.served ∧ (s.faultRunner r k d).store = s.store ∧
    (s.faultRunner r k d).pending = s.pending ∧ (s.faultRunner r k d).holdings = s.holdings := by
  unfold State.faultRunner
  simp [modPort_holdings, modPorts_holdings]

/-- R135: the end of one runner's wait for a source. -/
@[simp] theorem endQualifiedWait_frame (i : Fin 16) (r : Fin 4) :
    (State.endQualifiedWait i s r).sources = s.sources ∧ (State.endQualifiedWait i s r).slots = s.slots ∧
    (State.endQualifiedWait i s r).stills = s.stills ∧ (State.endQualifiedWait i s r).starvation = s.starvation ∧
    (State.endQualifiedWait i s r).library = s.library ∧ (State.endQualifiedWait i s r).screens = s.screens ∧
    (State.endQualifiedWait i s r).rateA = s.rateA ∧ (State.endQualifiedWait i s r).rateB = s.rateB ∧
    (State.endQualifiedWait i s r).palette = s.palette ∧ (State.endQualifiedWait i s r).ramp = s.ramp ∧
    (State.endQualifiedWait i s r).rotations = s.rotations ∧ (State.endQualifiedWait i s r).scenes = s.scenes ∧
    (State.endQualifiedWait i s r).serial = s.serial ∧ (State.endQualifiedWait i s r).job = s.job ∧
    (State.endQualifiedWait i s r).cues = s.cues ∧ (State.endQualifiedWait i s r).time = s.time ∧
    (State.endQualifiedWait i s r).alarms = s.alarms ∧ (State.endQualifiedWait i s r).triggers = s.triggers ∧
    (State.endQualifiedWait i s r).served = s.served ∧ (State.endQualifiedWait i s r).store = s.store ∧
    (State.endQualifiedWait i s r).freeCount = s.freeCount ∧ (State.endQualifiedWait i s r).pending = s.pending ∧
    (State.endQualifiedWait i s r).holdings = s.holdings := by
  unfold State.endQualifiedWait
  try dsimp only
  (repeat' split) <;> simp [modPort_holdings, modPorts_holdings]

/-- R135: the ends of the waits for a source. -/
@[simp] theorem endQualifiedWaits_frame (i : Fin 16) :
    (s.endQualifiedWaits i).sources = s.sources ∧ (s.endQualifiedWaits i).slots = s.slots ∧
    (s.endQualifiedWaits i).stills = s.stills ∧ (s.endQualifiedWaits i).starvation = s.starvation ∧
    (s.endQualifiedWaits i).library = s.library ∧ (s.endQualifiedWaits i).screens = s.screens ∧
    (s.endQualifiedWaits i).rateA = s.rateA ∧ (s.endQualifiedWaits i).rateB = s.rateB ∧
    (s.endQualifiedWaits i).palette = s.palette ∧ (s.endQualifiedWaits i).ramp = s.ramp ∧
    (s.endQualifiedWaits i).rotations = s.rotations ∧ (s.endQualifiedWaits i).scenes = s.scenes ∧
    (s.endQualifiedWaits i).serial = s.serial ∧ (s.endQualifiedWaits i).job = s.job ∧
    (s.endQualifiedWaits i).cues = s.cues ∧ (s.endQualifiedWaits i).time = s.time ∧
    (s.endQualifiedWaits i).alarms = s.alarms ∧ (s.endQualifiedWaits i).triggers = s.triggers ∧
    (s.endQualifiedWaits i).served = s.served ∧ (s.endQualifiedWaits i).store = s.store ∧
    (s.endQualifiedWaits i).freeCount = s.freeCount ∧ (s.endQualifiedWaits i).pending = s.pending ∧
    (s.endQualifiedWaits i).holdings = s.holdings := by
  unfold State.endQualifiedWaits
  exact ⟨foldl_keeps State.sources _ (by intros; simp [modPort_holdings, modPorts_holdings]) _ _, foldl_keeps State.slots _ (by intros; simp [modPort_holdings, modPorts_holdings]) _ _, foldl_keeps State.stills _ (by intros; simp [modPort_holdings, modPorts_holdings]) _ _, foldl_keeps State.starvation _ (by intros; simp [modPort_holdings, modPorts_holdings]) _ _, foldl_keeps State.library _ (by intros; simp [modPort_holdings, modPorts_holdings]) _ _, foldl_keeps State.screens _ (by intros; simp [modPort_holdings, modPorts_holdings]) _ _, foldl_keeps State.rateA _ (by intros; simp [modPort_holdings, modPorts_holdings]) _ _, foldl_keeps State.rateB _ (by intros; simp [modPort_holdings, modPorts_holdings]) _ _, foldl_keeps State.palette _ (by intros; simp [modPort_holdings, modPorts_holdings]) _ _, foldl_keeps State.ramp _ (by intros; simp [modPort_holdings, modPorts_holdings]) _ _, foldl_keeps State.rotations _ (by intros; simp [modPort_holdings, modPorts_holdings]) _ _, foldl_keeps State.scenes _ (by intros; simp [modPort_holdings, modPorts_holdings]) _ _, foldl_keeps State.serial _ (by intros; simp [modPort_holdings, modPorts_holdings]) _ _, foldl_keeps State.job _ (by intros; simp [modPort_holdings, modPorts_holdings]) _ _, foldl_keeps State.cues _ (by intros; simp [modPort_holdings, modPorts_holdings]) _ _, foldl_keeps State.time _ (by intros; simp [modPort_holdings, modPorts_holdings]) _ _, foldl_keeps State.alarms _ (by intros; simp [modPort_holdings, modPorts_holdings]) _ _, foldl_keeps State.triggers _ (by intros; simp [modPort_holdings, modPorts_holdings]) _ _, foldl_keeps State.served _ (by intros; simp [modPort_holdings, modPorts_holdings]) _ _, foldl_keeps State.store _ (by intros; simp [modPort_holdings, modPorts_holdings]) _ _, foldl_keeps State.freeCount _ (by intros; simp [modPort_holdings, modPorts_holdings]) _ _, foldl_keeps State.pending _ (by intros; simp [modPort_holdings, modPorts_holdings]) _ _, foldl_keeps State.holdings _ (by intros; simp [modPort_holdings, modPorts_holdings]) _ _⟩

/-- R153: one trigger meets an event. -/
@[simp] theorem triggerMeets_frame (i : Fin 16) (e : SourceEvent) (n : Fin 16) :
    (State.triggerMeets i e s n).sources = s.sources ∧ (State.triggerMeets i e s n).slots = s.slots ∧
    (State.triggerMeets i e s n).stills = s.stills ∧ (State.triggerMeets i e s n).starvation = s.starvation ∧
    (State.triggerMeets i e s n).library = s.library ∧ (State.triggerMeets i e s n).screens = s.screens ∧
    (State.triggerMeets i e s n).rateA = s.rateA ∧ (State.triggerMeets i e s n).rateB = s.rateB ∧
    (State.triggerMeets i e s n).palette = s.palette ∧ (State.triggerMeets i e s n).ramp = s.ramp ∧
    (State.triggerMeets i e s n).rotations = s.rotations ∧ (State.triggerMeets i e s n).scenes = s.scenes ∧
    (State.triggerMeets i e s n).serial = s.serial ∧ (State.triggerMeets i e s n).job = s.job ∧
    (State.triggerMeets i e s n).cues = s.cues ∧ (State.triggerMeets i e s n).time = s.time ∧
    (State.triggerMeets i e s n).alarms = s.alarms ∧ (State.triggerMeets i e s n).served = s.served ∧
    (State.triggerMeets i e s n).store = s.store ∧ (State.triggerMeets i e s n).freeCount = s.freeCount ∧
    (State.triggerMeets i e s n).pending = s.pending ∧ (State.triggerMeets i e s n).holdings = s.holdings := by
  unfold State.triggerMeets
  try dsimp only
  (repeat' split) <;> simp [modPort_holdings, modPorts_holdings]

/-- R153: an event meets the triggers. -/
@[simp] theorem raiseEvent_frame (i : Fin 16) (e : SourceEvent) :
    (s.raiseEvent i e).sources = s.sources ∧ (s.raiseEvent i e).slots = s.slots ∧
    (s.raiseEvent i e).stills = s.stills ∧ (s.raiseEvent i e).starvation = s.starvation ∧
    (s.raiseEvent i e).library = s.library ∧ (s.raiseEvent i e).screens = s.screens ∧
    (s.raiseEvent i e).rateA = s.rateA ∧ (s.raiseEvent i e).rateB = s.rateB ∧
    (s.raiseEvent i e).palette = s.palette ∧ (s.raiseEvent i e).ramp = s.ramp ∧
    (s.raiseEvent i e).rotations = s.rotations ∧ (s.raiseEvent i e).scenes = s.scenes ∧
    (s.raiseEvent i e).serial = s.serial ∧ (s.raiseEvent i e).job = s.job ∧ (s.raiseEvent i e).cues = s.cues ∧
    (s.raiseEvent i e).time = s.time ∧ (s.raiseEvent i e).alarms = s.alarms ∧ (s.raiseEvent i e).served = s.served ∧
    (s.raiseEvent i e).store = s.store ∧ (s.raiseEvent i e).freeCount = s.freeCount ∧
    (s.raiseEvent i e).pending = s.pending ∧ (s.raiseEvent i e).holdings = s.holdings := by
  unfold State.raiseEvent
  exact ⟨foldl_keeps State.sources _ (by intros; simp [modPort_holdings, modPorts_holdings]) _ _, foldl_keeps State.slots _ (by intros; simp [modPort_holdings, modPorts_holdings]) _ _, foldl_keeps State.stills _ (by intros; simp [modPort_holdings, modPorts_holdings]) _ _, foldl_keeps State.starvation _ (by intros; simp [modPort_holdings, modPorts_holdings]) _ _, foldl_keeps State.library _ (by intros; simp [modPort_holdings, modPorts_holdings]) _ _, foldl_keeps State.screens _ (by intros; simp [modPort_holdings, modPorts_holdings]) _ _, foldl_keeps State.rateA _ (by intros; simp [modPort_holdings, modPorts_holdings]) _ _, foldl_keeps State.rateB _ (by intros; simp [modPort_holdings, modPorts_holdings]) _ _, foldl_keeps State.palette _ (by intros; simp [modPort_holdings, modPorts_holdings]) _ _, foldl_keeps State.ramp _ (by intros; simp [modPort_holdings, modPorts_holdings]) _ _, foldl_keeps State.rotations _ (by intros; simp [modPort_holdings, modPorts_holdings]) _ _, foldl_keeps State.scenes _ (by intros; simp [modPort_holdings, modPorts_holdings]) _ _, foldl_keeps State.serial _ (by intros; simp [modPort_holdings, modPorts_holdings]) _ _, foldl_keeps State.job _ (by intros; simp [modPort_holdings, modPorts_holdings]) _ _, foldl_keeps State.cues _ (by intros; simp [modPort_holdings, modPorts_holdings]) _ _, foldl_keeps State.time _ (by intros; simp [modPort_holdings, modPorts_holdings]) _ _, foldl_keeps State.alarms _ (by intros; simp [modPort_holdings, modPorts_holdings]) _ _, foldl_keeps State.served _ (by intros; simp [modPort_holdings, modPorts_holdings]) _ _, foldl_keeps State.store _ (by intros; simp [modPort_holdings, modPorts_holdings]) _ _, foldl_keeps State.freeCount _ (by intros; simp [modPort_holdings, modPorts_holdings]) _ _, foldl_keeps State.pending _ (by intros; simp [modPort_holdings, modPorts_holdings]) _ _, foldl_keeps State.holdings _ (by intros; simp [modPort_holdings, modPorts_holdings]) _ _⟩


/-! ### Requests (10) -/

/-- R161: a reply touches a return lane. -/
@[simp] theorem reply_frame (p : Fin 16) (r : Request) (st : ReplyStatus) (b : List Byte) :
    (s.reply p r st b).sources = s.sources ∧ (s.reply p r st b).slots = s.slots ∧
    (s.reply p r st b).stills = s.stills ∧ (s.reply p r st b).starvation = s.starvation ∧
    (s.reply p r st b).library = s.library ∧ (s.reply p r st b).screens = s.screens ∧
    (s.reply p r st b).rateA = s.rateA ∧ (s.reply p r st b).rateB = s.rateB ∧
    (s.reply p r st b).palette = s.palette ∧ (s.reply p r st b).ramp = s.ramp ∧
    (s.reply p r st b).rotations = s.rotations ∧ (s.reply p r st b).scenes = s.scenes ∧
    (s.reply p r st b).serial = s.serial ∧ (s.reply p r st b).job = s.job ∧ (s.reply p r st b).cues = s.cues ∧
    (s.reply p r st b).runners = s.runners ∧ (s.reply p r st b).time = s.time ∧
    (s.reply p r st b).alarms = s.alarms ∧ (s.reply p r st b).triggers = s.triggers ∧
    (s.reply p r st b).served = s.served ∧ (s.reply p r st b).store = s.store ∧
    (s.reply p r st b).freeCount = s.freeCount ∧ (s.reply p r st b).pending = s.pending ∧
    (s.reply p r st b).holdings = s.holdings := by
  unfold State.reply
  simp [modPort_holdings, modPorts_holdings]

/-- R162: a condition. -/
@[simp] theorem recordCondition_frame (p : Fin 16) (r : Request) (c : Code) (d : Option Nat) :
    (s.recordCondition p r c d).sources = s.sources ∧ (s.recordCondition p r c d).slots = s.slots ∧
    (s.recordCondition p r c d).stills = s.stills ∧ (s.recordCondition p r c d).starvation = s.starvation ∧
    (s.recordCondition p r c d).library = s.library ∧ (s.recordCondition p r c d).screens = s.screens ∧
    (s.recordCondition p r c d).rateA = s.rateA ∧ (s.recordCondition p r c d).rateB = s.rateB ∧
    (s.recordCondition p r c d).palette = s.palette ∧ (s.recordCondition p r c d).ramp = s.ramp ∧
    (s.recordCondition p r c d).rotations = s.rotations ∧ (s.recordCondition p r c d).scenes = s.scenes ∧
    (s.recordCondition p r c d).serial = s.serial ∧ (s.recordCondition p r c d).job = s.job ∧
    (s.recordCondition p r c d).cues = s.cues ∧ (s.recordCondition p r c d).runners = s.runners ∧
    (s.recordCondition p r c d).time = s.time ∧ (s.recordCondition p r c d).alarms = s.alarms ∧
    (s.recordCondition p r c d).triggers = s.triggers ∧ (s.recordCondition p r c d).served = s.served ∧
    (s.recordCondition p r c d).store = s.store ∧ (s.recordCondition p r c d).pending = s.pending ∧
    (s.recordCondition p r c d).holdings = s.holdings := by
  unfold State.recordCondition
  try dsimp only
  (repeat' split) <;> simp [modPort_holdings, modPorts_holdings]

/-- R161: an answer. -/
@[simp] theorem answerRequest_frame (p : Fin 16) (r : Request) (a : Answer) :
    (s.answerRequest p r a).sources = s.sources ∧ (s.answerRequest p r a).slots = s.slots ∧
    (s.answerRequest p r a).stills = s.stills ∧ (s.answerRequest p r a).starvation = s.starvation ∧
    (s.answerRequest p r a).library = s.library ∧ (s.answerRequest p r a).screens = s.screens ∧
    (s.answerRequest p r a).rateA = s.rateA ∧ (s.answerRequest p r a).rateB = s.rateB ∧
    (s.answerRequest p r a).palette = s.palette ∧ (s.answerRequest p r a).ramp = s.ramp ∧
    (s.answerRequest p r a).rotations = s.rotations ∧ (s.answerRequest p r a).scenes = s.scenes ∧
    (s.answerRequest p r a).serial = s.serial ∧ (s.answerRequest p r a).job = s.job ∧
    (s.answerRequest p r a).cues = s.cues ∧ (s.answerRequest p r a).runners = s.runners ∧
    (s.answerRequest p r a).time = s.time ∧ (s.answerRequest p r a).alarms = s.alarms ∧
    (s.answerRequest p r a).triggers = s.triggers ∧ (s.answerRequest p r a).served = s.served ∧
    (s.answerRequest p r a).store = s.store ∧ (s.answerRequest p r a).pending = s.pending ∧
    (s.answerRequest p r a).holdings = s.holdings := by
  cases a <;> simp [modPort_holdings, modPorts_holdings, State.answerRequest]

/-- R157: an arrival. -/
@[simp] theorem requestArrives_frame (p : Fin 16) (r : Request) :
    (s.requestArrives p r).sources = s.sources ∧ (s.requestArrives p r).slots = s.slots ∧
    (s.requestArrives p r).stills = s.stills ∧ (s.requestArrives p r).starvation = s.starvation ∧
    (s.requestArrives p r).library = s.library ∧ (s.requestArrives p r).screens = s.screens ∧
    (s.requestArrives p r).rateA = s.rateA ∧ (s.requestArrives p r).rateB = s.rateB ∧
    (s.requestArrives p r).palette = s.palette ∧ (s.requestArrives p r).ramp = s.ramp ∧
    (s.requestArrives p r).rotations = s.rotations ∧ (s.requestArrives p r).scenes = s.scenes ∧
    (s.requestArrives p r).serial = s.serial ∧ (s.requestArrives p r).job = s.job ∧
    (s.requestArrives p r).cues = s.cues ∧ (s.requestArrives p r).runners = s.runners ∧
    (s.requestArrives p r).time = s.time ∧ (s.requestArrives p r).alarms = s.alarms ∧
    (s.requestArrives p r).triggers = s.triggers ∧ (s.requestArrives p r).served = s.served ∧
    (s.requestArrives p r).store = s.store ∧ (s.requestArrives p r).freeCount = s.freeCount ∧
    (s.requestArrives p r).pending = s.pending := by
  unfold State.requestArrives
  try dsimp only
  (repeat' split) <;> simp [modPort_holdings, modPorts_holdings]

/-- R163: a record emptied. -/
@[simp] theorem clearCondition_frame (p : Fin 16) :
    (s.clearCondition p).sources = s.sources ∧ (s.clearCondition p).slots = s.slots ∧
    (s.clearCondition p).stills = s.stills ∧ (s.clearCondition p).starvation = s.starvation ∧
    (s.clearCondition p).library = s.library ∧ (s.clearCondition p).screens = s.screens ∧
    (s.clearCondition p).rateA = s.rateA ∧ (s.clearCondition p).rateB = s.rateB ∧
    (s.clearCondition p).palette = s.palette ∧ (s.clearCondition p).ramp = s.ramp ∧
    (s.clearCondition p).rotations = s.rotations ∧ (s.clearCondition p).scenes = s.scenes ∧
    (s.clearCondition p).serial = s.serial ∧ (s.clearCondition p).job = s.job ∧ (s.clearCondition p).cues = s.cues ∧
    (s.clearCondition p).runners = s.runners ∧ (s.clearCondition p).time = s.time ∧
    (s.clearCondition p).alarms = s.alarms ∧ (s.clearCondition p).triggers = s.triggers ∧
    (s.clearCondition p).served = s.served ∧ (s.clearCondition p).store = s.store ∧
    (s.clearCondition p).freeCount = s.freeCount ∧ (s.clearCondition p).pending = s.pending ∧
    (s.clearCondition p).holdings = s.holdings := by
  unfold State.clearCondition
  simp [modPort_holdings, modPorts_holdings]

/-- R170: marks cleared. -/
@[simp] theorem clearMarks_frame (p : Fin 16) :
    (s.clearMarks p).sources = s.sources ∧ (s.clearMarks p).slots = s.slots ∧ (s.clearMarks p).stills = s.stills ∧
    (s.clearMarks p).starvation = s.starvation ∧ (s.clearMarks p).library = s.library ∧
    (s.clearMarks p).screens = s.screens ∧ (s.clearMarks p).rateA = s.rateA ∧ (s.clearMarks p).rateB = s.rateB ∧
    (s.clearMarks p).palette = s.palette ∧ (s.clearMarks p).ramp = s.ramp ∧
    (s.clearMarks p).rotations = s.rotations ∧ (s.clearMarks p).scenes = s.scenes ∧
    (s.clearMarks p).serial = s.serial ∧ (s.clearMarks p).job = s.job ∧ (s.clearMarks p).cues = s.cues ∧
    (s.clearMarks p).runners = s.runners ∧ (s.clearMarks p).time = s.time ∧ (s.clearMarks p).alarms = s.alarms ∧
    (s.clearMarks p).triggers = s.triggers ∧ (s.clearMarks p).served = s.served ∧ (s.clearMarks p).store = s.store ∧
    (s.clearMarks p).freeCount = s.freeCount ∧ (s.clearMarks p).pending = s.pending ∧
    (s.clearMarks p).holdings = s.holdings := by
  unfold State.clearMarks
  simp [modPort_holdings, modPorts_holdings]

/-- R164: the attention condition. -/
@[simp] theorem raiseAttention_frame (c : Code) (d : Nat) :
    (s.raiseAttention c d).sources = s.sources ∧ (s.raiseAttention c d).slots = s.slots ∧
    (s.raiseAttention c d).stills = s.stills ∧ (s.raiseAttention c d).starvation = s.starvation ∧
    (s.raiseAttention c d).library = s.library ∧ (s.raiseAttention c d).screens = s.screens ∧
    (s.raiseAttention c d).rateA = s.rateA ∧ (s.raiseAttention c d).rateB = s.rateB ∧
    (s.raiseAttention c d).palette = s.palette ∧ (s.raiseAttention c d).ramp = s.ramp ∧
    (s.raiseAttention c d).rotations = s.rotations ∧ (s.raiseAttention c d).scenes = s.scenes ∧
    (s.raiseAttention c d).serial = s.serial ∧ (s.raiseAttention c d).job = s.job ∧
    (s.raiseAttention c d).cues = s.cues ∧ (s.raiseAttention c d).runners = s.runners ∧
    (s.raiseAttention c d).time = s.time ∧ (s.raiseAttention c d).alarms = s.alarms ∧
    (s.raiseAttention c d).triggers = s.triggers ∧ (s.raiseAttention c d).served = s.served ∧
    (s.raiseAttention c d).store = s.store ∧ (s.raiseAttention c d).freeCount = s.freeCount ∧
    (s.raiseAttention c d).pending = s.pending ∧ (s.raiseAttention c d).holdings = s.holdings := by
  unfold State.raiseAttention
  simp [modPort_holdings, modPorts_holdings]


/-! ### Sources (02) -/

/-- R24: counters at 0. -/
@[simp] theorem zeroTransitions_frame (i : Fin 16) :
    (s.zeroTransitions i).ports = s.ports ∧ (s.zeroTransitions i).slots = s.slots ∧
    (s.zeroTransitions i).stills = s.stills ∧ (s.zeroTransitions i).starvation = s.starvation ∧
    (s.zeroTransitions i).library = s.library ∧ (s.zeroTransitions i).screens = s.screens ∧
    (s.zeroTransitions i).rateA = s.rateA ∧ (s.zeroTransitions i).rateB = s.rateB ∧
    (s.zeroTransitions i).palette = s.palette ∧ (s.zeroTransitions i).ramp = s.ramp ∧
    (s.zeroTransitions i).rotations = s.rotations ∧ (s.zeroTransitions i).scenes = s.scenes ∧
    (s.zeroTransitions i).serial = s.serial ∧ (s.zeroTransitions i).job = s.job ∧
    (s.zeroTransitions i).cues = s.cues ∧ (s.zeroTransitions i).runners = s.runners ∧
    (s.zeroTransitions i).time = s.time ∧ (s.zeroTransitions i).alarms = s.alarms ∧
    (s.zeroTransitions i).triggers = s.triggers ∧ (s.zeroTransitions i).served = s.served ∧
    (s.zeroTransitions i).store = s.store ∧ (s.zeroTransitions i).freeCount = s.freeCount ∧
    (s.zeroTransitions i).pending = s.pending ∧ (s.zeroTransitions i).holdings = s.holdings := by
  unfold State.zeroTransitions
  simp [modPort_holdings, modPorts_holdings]

/-- R24: entry to ACQUIRING. -/
@[simp] theorem enterAcquiring_frame (i : Fin 16) :
    (s.enterAcquiring i).slots = s.slots ∧ (s.enterAcquiring i).stills = s.stills ∧
    (s.enterAcquiring i).starvation = s.starvation ∧ (s.enterAcquiring i).library = s.library ∧
    (s.enterAcquiring i).screens = s.screens ∧ (s.enterAcquiring i).rateA = s.rateA ∧
    (s.enterAcquiring i).rateB = s.rateB ∧ (s.enterAcquiring i).palette = s.palette ∧
    (s.enterAcquiring i).ramp = s.ramp ∧ (s.enterAcquiring i).rotations = s.rotations ∧
    (s.enterAcquiring i).scenes = s.scenes ∧ (s.enterAcquiring i).serial = s.serial ∧
    (s.enterAcquiring i).job = s.job ∧ (s.enterAcquiring i).cues = s.cues ∧
    (s.enterAcquiring i).runners = s.runners ∧ (s.enterAcquiring i).time = s.time ∧
    (s.enterAcquiring i).alarms = s.alarms ∧ (s.enterAcquiring i).triggers = s.triggers ∧
    (s.enterAcquiring i).served = s.served ∧ (s.enterAcquiring i).store = s.store ∧
    (s.enterAcquiring i).freeCount = s.freeCount ∧ (s.enterAcquiring i).pending = s.pending ∧
    (s.enterAcquiring i).holdings = s.holdings := by
  unfold State.enterAcquiring
  simp [modPort_holdings, modPorts_holdings]

/-- R25: the stale timer starts. -/
@[simp] theorem startStale_frame (i : Fin 16) :
    (s.startStale i).ports = s.ports ∧ (s.startStale i).slots = s.slots ∧ (s.startStale i).stills = s.stills ∧
    (s.startStale i).starvation = s.starvation ∧ (s.startStale i).library = s.library ∧
    (s.startStale i).screens = s.screens ∧ (s.startStale i).rateA = s.rateA ∧ (s.startStale i).rateB = s.rateB ∧
    (s.startStale i).palette = s.palette ∧ (s.startStale i).ramp = s.ramp ∧
    (s.startStale i).rotations = s.rotations ∧ (s.startStale i).scenes = s.scenes ∧
    (s.startStale i).serial = s.serial ∧ (s.startStale i).job = s.job ∧ (s.startStale i).cues = s.cues ∧
    (s.startStale i).runners = s.runners ∧ (s.startStale i).time = s.time ∧ (s.startStale i).alarms = s.alarms ∧
    (s.startStale i).triggers = s.triggers ∧ (s.startStale i).served = s.served ∧ (s.startStale i).store = s.store ∧
    (s.startStale i).freeCount = s.freeCount ∧ (s.startStale i).pending = s.pending ∧
    (s.startStale i).holdings = s.holdings := by
  unfold State.startStale
  simp [modPort_holdings, modPorts_holdings]

/-- R24: entry to QUALIFIED. -/
@[simp] theorem qualify_frame (i : Fin 16) :
    (s.qualify i).slots = s.slots ∧ (s.qualify i).stills = s.stills ∧ (s.qualify i).starvation = s.starvation ∧
    (s.qualify i).library = s.library ∧ (s.qualify i).screens = s.screens ∧ (s.qualify i).rateA = s.rateA ∧
    (s.qualify i).rateB = s.rateB ∧ (s.qualify i).palette = s.palette ∧ (s.qualify i).ramp = s.ramp ∧
    (s.qualify i).rotations = s.rotations ∧ (s.qualify i).scenes = s.scenes ∧ (s.qualify i).serial = s.serial ∧
    (s.qualify i).job = s.job ∧ (s.qualify i).cues = s.cues ∧ (s.qualify i).time = s.time ∧
    (s.qualify i).alarms = s.alarms ∧ (s.qualify i).served = s.served ∧ (s.qualify i).store = s.store ∧
    (s.qualify i).freeCount = s.freeCount ∧ (s.qualify i).pending = s.pending ∧ (s.qualify i).holdings = s.holdings := by
  unfold State.qualify
  simp [modPort_holdings, modPorts_holdings]

/-- R27: entry to FAILED. -/
@[simp] theorem failSource_frame (i : Fin 16) :
    (s.failSource i).slots = s.slots ∧ (s.failSource i).stills = s.stills ∧
    (s.failSource i).starvation = s.starvation ∧ (s.failSource i).library = s.library ∧
    (s.failSource i).screens = s.screens ∧ (s.failSource i).rateA = s.rateA ∧ (s.failSource i).rateB = s.rateB ∧
    (s.failSource i).palette = s.palette ∧ (s.failSource i).ramp = s.ramp ∧
    (s.failSource i).rotations = s.rotations ∧ (s.failSource i).scenes = s.scenes ∧
    (s.failSource i).serial = s.serial ∧ (s.failSource i).job = s.job ∧ (s.failSource i).cues = s.cues ∧
    (s.failSource i).time = s.time ∧ (s.failSource i).alarms = s.alarms ∧ (s.failSource i).served = s.served ∧
    (s.failSource i).store = s.store ∧ (s.failSource i).freeCount = s.freeCount ∧
    (s.failSource i).pending = s.pending ∧ (s.failSource i).holdings = s.holdings := by
  unfold State.failSource
  simp [modPort_holdings, modPorts_holdings]

/-- R24: the test in ACQUIRING. -/
@[simp] theorem testAcquiring_frame (i : Fin 16) :
    (s.testAcquiring i).slots = s.slots ∧ (s.testAcquiring i).stills = s.stills ∧
    (s.testAcquiring i).starvation = s.starvation ∧ (s.testAcquiring i).library = s.library ∧
    (s.testAcquiring i).screens = s.screens ∧ (s.testAcquiring i).rateA = s.rateA ∧
    (s.testAcquiring i).rateB = s.rateB ∧ (s.testAcquiring i).palette = s.palette ∧
    (s.testAcquiring i).ramp = s.ramp ∧ (s.testAcquiring i).rotations = s.rotations ∧
    (s.testAcquiring i).scenes = s.scenes ∧ (s.testAcquiring i).serial = s.serial ∧ (s.testAcquiring i).job = s.job ∧
    (s.testAcquiring i).cues = s.cues ∧ (s.testAcquiring i).time = s.time ∧ (s.testAcquiring i).alarms = s.alarms ∧
    (s.testAcquiring i).served = s.served ∧ (s.testAcquiring i).store = s.store ∧
    (s.testAcquiring i).freeCount = s.freeCount ∧ (s.testAcquiring i).pending = s.pending ∧
    (s.testAcquiring i).holdings = s.holdings := by
  unfold State.testAcquiring
  try dsimp only
  (repeat' split) <;> simp [modPort_holdings, modPorts_holdings]

/-- R24: a CLEAN picture counted. -/
@[simp] theorem countClean_frame (i : Fin 16) :
    (s.countClean i).slots = s.slots ∧ (s.countClean i).stills = s.stills ∧
    (s.countClean i).starvation = s.starvation ∧ (s.countClean i).library = s.library ∧
    (s.countClean i).screens = s.screens ∧ (s.countClean i).rateA = s.rateA ∧ (s.countClean i).rateB = s.rateB ∧
    (s.countClean i).palette = s.palette ∧ (s.countClean i).ramp = s.ramp ∧
    (s.countClean i).rotations = s.rotations ∧ (s.countClean i).scenes = s.scenes ∧
    (s.countClean i).serial = s.serial ∧ (s.countClean i).job = s.job ∧ (s.countClean i).cues = s.cues ∧
    (s.countClean i).time = s.time ∧ (s.countClean i).alarms = s.alarms ∧ (s.countClean i).served = s.served ∧
    (s.countClean i).store = s.store ∧ (s.countClean i).freeCount = s.freeCount ∧
    (s.countClean i).pending = s.pending ∧ (s.countClean i).holdings = s.holdings := by
  unfold State.countClean
  simp [modPort_holdings, modPorts_holdings]

/-- R27: a CLEAN report while SUSPECT. -/
@[simp] theorem cleanWhileSuspect_frame (i : Fin 16) :
    (s.cleanWhileSuspect i).slots = s.slots ∧ (s.cleanWhileSuspect i).stills = s.stills ∧
    (s.cleanWhileSuspect i).starvation = s.starvation ∧ (s.cleanWhileSuspect i).library = s.library ∧
    (s.cleanWhileSuspect i).screens = s.screens ∧ (s.cleanWhileSuspect i).rateA = s.rateA ∧
    (s.cleanWhileSuspect i).rateB = s.rateB ∧ (s.cleanWhileSuspect i).palette = s.palette ∧
    (s.cleanWhileSuspect i).ramp = s.ramp ∧ (s.cleanWhileSuspect i).rotations = s.rotations ∧
    (s.cleanWhileSuspect i).scenes = s.scenes ∧ (s.cleanWhileSuspect i).serial = s.serial ∧
    (s.cleanWhileSuspect i).job = s.job ∧ (s.cleanWhileSuspect i).cues = s.cues ∧
    (s.cleanWhileSuspect i).time = s.time ∧ (s.cleanWhileSuspect i).alarms = s.alarms ∧
    (s.cleanWhileSuspect i).served = s.served ∧ (s.cleanWhileSuspect i).store = s.store ∧
    (s.cleanWhileSuspect i).freeCount = s.freeCount ∧ (s.cleanWhileSuspect i).pending = s.pending ∧
    (s.cleanWhileSuspect i).holdings = s.holdings := by
  unfold State.cleanWhileSuspect
  try dsimp only
  (repeat' split) <;> simp [modPort_holdings, modPorts_holdings]

/-- R24 to R29: a CLEAN report. -/
@[simp] theorem takeClean_frame (i : Fin 16) (b : Bool) :
    (s.takeClean i b).slots = s.slots ∧ (s.takeClean i b).stills = s.stills ∧
    (s.takeClean i b).starvation = s.starvation ∧ (s.takeClean i b).library = s.library ∧
    (s.takeClean i b).screens = s.screens ∧ (s.takeClean i b).rateA = s.rateA ∧ (s.takeClean i b).rateB = s.rateB ∧
    (s.takeClean i b).palette = s.palette ∧ (s.takeClean i b).ramp = s.ramp ∧
    (s.takeClean i b).rotations = s.rotations ∧ (s.takeClean i b).scenes = s.scenes ∧
    (s.takeClean i b).serial = s.serial ∧ (s.takeClean i b).job = s.job ∧ (s.takeClean i b).cues = s.cues ∧
    (s.takeClean i b).time = s.time ∧ (s.takeClean i b).alarms = s.alarms ∧ (s.takeClean i b).served = s.served ∧
    (s.takeClean i b).store = s.store ∧ (s.takeClean i b).freeCount = s.freeCount ∧
    (s.takeClean i b).pending = s.pending ∧ (s.takeClean i b).holdings = s.holdings := by
  unfold State.takeClean
  try dsimp only
  (repeat' split) <;> simp [modPort_holdings, modPorts_holdings]

/-- R19: a CLEAN report and its counters. -/
@[simp] theorem reportClean_frame (i : Fin 16) (f : Format) (n : Nat) :
    (s.reportClean i f n).slots = s.slots ∧ (s.reportClean i f n).stills = s.stills ∧
    (s.reportClean i f n).starvation = s.starvation ∧ (s.reportClean i f n).library = s.library ∧
    (s.reportClean i f n).screens = s.screens ∧ (s.reportClean i f n).rateA = s.rateA ∧
    (s.reportClean i f n).rateB = s.rateB ∧ (s.reportClean i f n).palette = s.palette ∧
    (s.reportClean i f n).ramp = s.ramp ∧ (s.reportClean i f n).rotations = s.rotations ∧
    (s.reportClean i f n).scenes = s.scenes ∧ (s.reportClean i f n).serial = s.serial ∧
    (s.reportClean i f n).job = s.job ∧ (s.reportClean i f n).cues = s.cues ∧ (s.reportClean i f n).time = s.time ∧
    (s.reportClean i f n).alarms = s.alarms ∧ (s.reportClean i f n).served = s.served ∧
    (s.reportClean i f n).store = s.store ∧ (s.reportClean i f n).freeCount = s.freeCount ∧
    (s.reportClean i f n).pending = s.pending ∧ (s.reportClean i f n).holdings = s.holdings := by
  unfold State.reportClean
  simp [modPort_holdings, modPorts_holdings]

/-- R26, R27: a miss. -/
@[simp] theorem takeMiss_frame (i : Fin 16) :
    (s.takeMiss i).slots = s.slots ∧ (s.takeMiss i).stills = s.stills ∧ (s.takeMiss i).starvation = s.starvation ∧
    (s.takeMiss i).library = s.library ∧ (s.takeMiss i).screens = s.screens ∧ (s.takeMiss i).rateA = s.rateA ∧
    (s.takeMiss i).rateB = s.rateB ∧ (s.takeMiss i).palette = s.palette ∧ (s.takeMiss i).ramp = s.ramp ∧
    (s.takeMiss i).rotations = s.rotations ∧ (s.takeMiss i).scenes = s.scenes ∧ (s.takeMiss i).serial = s.serial ∧
    (s.takeMiss i).job = s.job ∧ (s.takeMiss i).cues = s.cues ∧ (s.takeMiss i).time = s.time ∧
    (s.takeMiss i).alarms = s.alarms ∧ (s.takeMiss i).served = s.served ∧ (s.takeMiss i).store = s.store ∧
    (s.takeMiss i).freeCount = s.freeCount ∧ (s.takeMiss i).pending = s.pending ∧ (s.takeMiss i).holdings = s.holdings := by
  unfold State.takeMiss
  try dsimp only
  (repeat' split) <;> simp [modPort_holdings, modPorts_holdings]

/-- R19: an ERRORED report. -/
@[simp] theorem reportErrored_frame (i : Fin 16) (n : Nat) :
    (s.reportErrored i n).slots = s.slots ∧ (s.reportErrored i n).stills = s.stills ∧
    (s.reportErrored i n).starvation = s.starvation ∧ (s.reportErrored i n).library = s.library ∧
    (s.reportErrored i n).screens = s.screens ∧ (s.reportErrored i n).rateA = s.rateA ∧
    (s.reportErrored i n).rateB = s.rateB ∧ (s.reportErrored i n).palette = s.palette ∧
    (s.reportErrored i n).ramp = s.ramp ∧ (s.reportErrored i n).rotations = s.rotations ∧
    (s.reportErrored i n).scenes = s.scenes ∧ (s.reportErrored i n).serial = s.serial ∧
    (s.reportErrored i n).job = s.job ∧ (s.reportErrored i n).cues = s.cues ∧ (s.reportErrored i n).time = s.time ∧
    (s.reportErrored i n).alarms = s.alarms ∧ (s.reportErrored i n).served = s.served ∧
    (s.reportErrored i n).store = s.store ∧ (s.reportErrored i n).freeCount = s.freeCount ∧
    (s.reportErrored i n).pending = s.pending ∧ (s.reportErrored i n).holdings = s.holdings := by
  unfold State.reportErrored
  try dsimp only
  (repeat' split) <;> simp [modPort_holdings, modPorts_holdings]

/-- R19: a STARVED report. -/
@[simp] theorem reportStarved_frame (i : Fin 16) :
    (s.reportStarved i).ports = s.ports ∧ (s.reportStarved i).slots = s.slots ∧
    (s.reportStarved i).stills = s.stills ∧ (s.reportStarved i).starvation = s.starvation ∧
    (s.reportStarved i).library = s.library ∧ (s.reportStarved i).screens = s.screens ∧
    (s.reportStarved i).rateA = s.rateA ∧ (s.reportStarved i).rateB = s.rateB ∧
    (s.reportStarved i).palette = s.palette ∧ (s.reportStarved i).ramp = s.ramp ∧
    (s.reportStarved i).rotations = s.rotations ∧ (s.reportStarved i).scenes = s.scenes ∧
    (s.reportStarved i).serial = s.serial ∧ (s.reportStarved i).job = s.job ∧ (s.reportStarved i).cues = s.cues ∧
    (s.reportStarved i).runners = s.runners ∧ (s.reportStarved i).time = s.time ∧
    (s.reportStarved i).alarms = s.alarms ∧ (s.reportStarved i).triggers = s.triggers ∧
    (s.reportStarved i).served = s.served ∧ (s.reportStarved i).store = s.store ∧
    (s.reportStarved i).freeCount = s.freeCount ∧ (s.reportStarved i).pending = s.pending ∧
    (s.reportStarved i).holdings = s.holdings := by
  unfold State.reportStarved
  simp [modPort_holdings, modPorts_holdings]

/-- R23: SYNC GAINED. -/
@[simp] theorem syncGained_frame (i : Fin 16) :
    (s.syncGained i).slots = s.slots ∧ (s.syncGained i).stills = s.stills ∧
    (s.syncGained i).starvation = s.starvation ∧ (s.syncGained i).library = s.library ∧
    (s.syncGained i).screens = s.screens ∧ (s.syncGained i).rateA = s.rateA ∧ (s.syncGained i).rateB = s.rateB ∧
    (s.syncGained i).palette = s.palette ∧ (s.syncGained i).ramp = s.ramp ∧
    (s.syncGained i).rotations = s.rotations ∧ (s.syncGained i).scenes = s.scenes ∧
    (s.syncGained i).serial = s.serial ∧ (s.syncGained i).job = s.job ∧ (s.syncGained i).cues = s.cues ∧
    (s.syncGained i).runners = s.runners ∧ (s.syncGained i).time = s.time ∧ (s.syncGained i).alarms = s.alarms ∧
    (s.syncGained i).triggers = s.triggers ∧ (s.syncGained i).served = s.served ∧ (s.syncGained i).store = s.store ∧
    (s.syncGained i).freeCount = s.freeCount ∧ (s.syncGained i).pending = s.pending ∧
    (s.syncGained i).holdings = s.holdings := by
  unfold State.syncGained
  try dsimp only
  (repeat' split) <;> simp [modPort_holdings, modPorts_holdings]

/-- R22: SYNC LOST. -/
@[simp] theorem syncLost_frame (i : Fin 16) :
    (s.syncLost i).stills = s.stills ∧ (s.syncLost i).starvation = s.starvation ∧
    (s.syncLost i).library = s.library ∧ (s.syncLost i).screens = s.screens ∧ (s.syncLost i).rateA = s.rateA ∧
    (s.syncLost i).rateB = s.rateB ∧ (s.syncLost i).palette = s.palette ∧ (s.syncLost i).ramp = s.ramp ∧
    (s.syncLost i).rotations = s.rotations ∧ (s.syncLost i).scenes = s.scenes ∧ (s.syncLost i).serial = s.serial ∧
    (s.syncLost i).job = s.job ∧ (s.syncLost i).cues = s.cues ∧ (s.syncLost i).time = s.time ∧
    (s.syncLost i).alarms = s.alarms ∧ (s.syncLost i).served = s.served ∧ (s.syncLost i).store = s.store ∧
    (s.syncLost i).freeCount = s.freeCount ∧ (s.syncLost i).pending = s.pending ∧ (s.syncLost i).holdings = s.holdings := by
  unfold State.syncLost
  try dsimp only
  (repeat' split) <;> simp [modPort_holdings, modPorts_holdings]

/-- R14: the picture in progress given up. -/
@[simp] theorem dropAssembly_frame (p : Fin 16) :
    (s.dropAssembly p).sources = s.sources ∧ (s.dropAssembly p).stills = s.stills ∧
    (s.dropAssembly p).starvation = s.starvation ∧ (s.dropAssembly p).library = s.library ∧
    (s.dropAssembly p).screens = s.screens ∧ (s.dropAssembly p).rateA = s.rateA ∧
    (s.dropAssembly p).rateB = s.rateB ∧ (s.dropAssembly p).palette = s.palette ∧ (s.dropAssembly p).ramp = s.ramp ∧
    (s.dropAssembly p).rotations = s.rotations ∧ (s.dropAssembly p).scenes = s.scenes ∧
    (s.dropAssembly p).serial = s.serial ∧ (s.dropAssembly p).job = s.job ∧ (s.dropAssembly p).cues = s.cues ∧
    (s.dropAssembly p).runners = s.runners ∧ (s.dropAssembly p).time = s.time ∧
    (s.dropAssembly p).alarms = s.alarms ∧ (s.dropAssembly p).triggers = s.triggers ∧
    (s.dropAssembly p).served = s.served ∧ (s.dropAssembly p).store = s.store ∧
    (s.dropAssembly p).freeCount = s.freeCount ∧ (s.dropAssembly p).pending = s.pending ∧
    (s.dropAssembly p).holdings = s.holdings := by
  unfold State.dropAssembly
  try dsimp only
  (repeat' split) <;> simp [modPort_holdings, modPorts_holdings]

/-- R20: a source disabled. -/
@[simp] theorem disableSource_frame (i : Fin 16) :
    (s.disableSource i).stills = s.stills ∧ (s.disableSource i).starvation = s.starvation ∧
    (s.disableSource i).library = s.library ∧ (s.disableSource i).screens = s.screens ∧
    (s.disableSource i).rateA = s.rateA ∧ (s.disableSource i).rateB = s.rateB ∧
    (s.disableSource i).palette = s.palette ∧ (s.disableSource i).ramp = s.ramp ∧
    (s.disableSource i).rotations = s.rotations ∧ (s.disableSource i).scenes = s.scenes ∧
    (s.disableSource i).serial = s.serial ∧ (s.disableSource i).job = s.job ∧ (s.disableSource i).cues = s.cues ∧
    (s.disableSource i).runners = s.runners ∧ (s.disableSource i).time = s.time ∧
    (s.disableSource i).alarms = s.alarms ∧ (s.disableSource i).triggers = s.triggers ∧
    (s.disableSource i).served = s.served ∧ (s.disableSource i).store = s.store ∧
    (s.disableSource i).freeCount = s.freeCount ∧ (s.disableSource i).pending = s.pending ∧
    (s.disableSource i).holdings = s.holdings := by
  unfold State.disableSource
  simp [modPort_holdings, modPorts_holdings]

/-- R21: a source enabled. -/
@[simp] theorem enableSource_frame (i : Fin 16) :
    (s.enableSource i).slots = s.slots ∧ (s.enableSource i).stills = s.stills ∧
    (s.enableSource i).starvation = s.starvation ∧ (s.enableSource i).library = s.library ∧
    (s.enableSource i).screens = s.screens ∧ (s.enableSource i).rateA = s.rateA ∧
    (s.enableSource i).rateB = s.rateB ∧ (s.enableSource i).palette = s.palette ∧ (s.enableSource i).ramp = s.ramp ∧
    (s.enableSource i).rotations = s.rotations ∧ (s.enableSource i).scenes = s.scenes ∧
    (s.enableSource i).serial = s.serial ∧ (s.enableSource i).job = s.job ∧ (s.enableSource i).cues = s.cues ∧
    (s.enableSource i).runners = s.runners ∧ (s.enableSource i).time = s.time ∧
    (s.enableSource i).alarms = s.alarms ∧ (s.enableSource i).triggers = s.triggers ∧
    (s.enableSource i).served = s.served ∧ (s.enableSource i).store = s.store ∧
    (s.enableSource i).freeCount = s.freeCount ∧ (s.enableSource i).pending = s.pending ∧
    (s.enableSource i).holdings = s.holdings := by
  unfold State.enableSource
  try dsimp only
  (repeat' split) <;> simp [modPort_holdings, modPorts_holdings]

/-- R30: REQUALIFY. -/
@[simp] theorem requalify_frame (i : Fin 16) :
    (s.requalify i).slots = s.slots ∧ (s.requalify i).stills = s.stills ∧ (s.requalify i).starvation = s.starvation ∧
    (s.requalify i).library = s.library ∧ (s.requalify i).screens = s.screens ∧ (s.requalify i).rateA = s.rateA ∧
    (s.requalify i).rateB = s.rateB ∧ (s.requalify i).palette = s.palette ∧ (s.requalify i).ramp = s.ramp ∧
    (s.requalify i).rotations = s.rotations ∧ (s.requalify i).scenes = s.scenes ∧ (s.requalify i).serial = s.serial ∧
    (s.requalify i).job = s.job ∧ (s.requalify i).cues = s.cues ∧ (s.requalify i).runners = s.runners ∧
    (s.requalify i).time = s.time ∧ (s.requalify i).alarms = s.alarms ∧ (s.requalify i).triggers = s.triggers ∧
    (s.requalify i).served = s.served ∧ (s.requalify i).store = s.store ∧ (s.requalify i).freeCount = s.freeCount ∧
    (s.requalify i).pending = s.pending ∧ (s.requalify i).holdings = s.holdings := by
  unfold State.requalify
  try dsimp only
  (repeat' split) <;> simp [modPort_holdings, modPorts_holdings]


/-! ### Feed ports (01) -/

/-- R7: DISCARDING. -/
@[simp] theorem discardFrom_frame (p : Fin 16) :
    (s.discardFrom p).sources = s.sources ∧ (s.discardFrom p).slots = s.slots ∧ (s.discardFrom p).stills = s.stills ∧
    (s.discardFrom p).starvation = s.starvation ∧ (s.discardFrom p).library = s.library ∧
    (s.discardFrom p).screens = s.screens ∧ (s.discardFrom p).rateA = s.rateA ∧ (s.discardFrom p).rateB = s.rateB ∧
    (s.discardFrom p).palette = s.palette ∧ (s.discardFrom p).ramp = s.ramp ∧
    (s.discardFrom p).rotations = s.rotations ∧ (s.discardFrom p).scenes = s.scenes ∧
    (s.discardFrom p).serial = s.serial ∧ (s.discardFrom p).job = s.job ∧ (s.discardFrom p).cues = s.cues ∧
    (s.discardFrom p).runners = s.runners ∧ (s.discardFrom p).time = s.time ∧ (s.discardFrom p).alarms = s.alarms ∧
    (s.discardFrom p).triggers = s.triggers ∧ (s.discardFrom p).served = s.served ∧
    (s.discardFrom p).store = s.store ∧ (s.discardFrom p).freeCount = s.freeCount ∧
    (s.discardFrom p).pending = s.pending ∧ (s.discardFrom p).holdings = s.holdings := by
  unfold State.discardFrom
  simp [modPort_holdings, modPorts_holdings]

/-- R9: a picture that can not go on. -/
@[simp] theorem gapPicture_frame (p : Fin 16) :
    (s.gapPicture p).slots = s.slots ∧ (s.gapPicture p).stills = s.stills ∧
    (s.gapPicture p).starvation = s.starvation ∧ (s.gapPicture p).library = s.library ∧
    (s.gapPicture p).screens = s.screens ∧ (s.gapPicture p).rateA = s.rateA ∧ (s.gapPicture p).rateB = s.rateB ∧
    (s.gapPicture p).palette = s.palette ∧ (s.gapPicture p).ramp = s.ramp ∧
    (s.gapPicture p).rotations = s.rotations ∧ (s.gapPicture p).scenes = s.scenes ∧
    (s.gapPicture p).serial = s.serial ∧ (s.gapPicture p).job = s.job ∧ (s.gapPicture p).cues = s.cues ∧
    (s.gapPicture p).time = s.time ∧ (s.gapPicture p).alarms = s.alarms ∧ (s.gapPicture p).served = s.served ∧
    (s.gapPicture p).store = s.store ∧ (s.gapPicture p).freeCount = s.freeCount ∧
    (s.gapPicture p).pending = s.pending ∧ (s.gapPicture p).holdings = s.holdings := by
  unfold State.gapPicture
  simp [modPort_holdings, modPorts_holdings]

/-- R10: a band and its check. -/
@[simp] theorem writeChecked_frame (p : Fin 16) (k : Fin 64) (b : BandCell) (c : Bool) :
    (s.writeChecked p k b c).sources = s.sources ∧ (s.writeChecked p k b c).stills = s.stills ∧
    (s.writeChecked p k b c).starvation = s.starvation ∧ (s.writeChecked p k b c).library = s.library ∧
    (s.writeChecked p k b c).screens = s.screens ∧ (s.writeChecked p k b c).rateA = s.rateA ∧
    (s.writeChecked p k b c).rateB = s.rateB ∧ (s.writeChecked p k b c).palette = s.palette ∧
    (s.writeChecked p k b c).ramp = s.ramp ∧ (s.writeChecked p k b c).rotations = s.rotations ∧
    (s.writeChecked p k b c).scenes = s.scenes ∧ (s.writeChecked p k b c).serial = s.serial ∧
    (s.writeChecked p k b c).job = s.job ∧ (s.writeChecked p k b c).cues = s.cues ∧
    (s.writeChecked p k b c).runners = s.runners ∧ (s.writeChecked p k b c).time = s.time ∧
    (s.writeChecked p k b c).alarms = s.alarms ∧ (s.writeChecked p k b c).triggers = s.triggers ∧
    (s.writeChecked p k b c).served = s.served ∧ (s.writeChecked p k b c).store = s.store ∧
    (s.writeChecked p k b c).freeCount = s.freeCount ∧ (s.writeChecked p k b c).pending = s.pending ∧
    (s.writeChecked p k b c).holdings = s.holdings := by
  unfold State.writeChecked
  try dsimp only
  (repeat' split) <;> simp [modPort_holdings, modPorts_holdings]

/-- R7: a first band. -/
@[simp] theorem firstBand_frame (p : Fin 16) (b : BandCell) (f : Format) :
    (s.firstBand p b f).stills = s.stills ∧ (s.firstBand p b f).library = s.library ∧
    (s.firstBand p b f).screens = s.screens ∧ (s.firstBand p b f).rateA = s.rateA ∧
    (s.firstBand p b f).rateB = s.rateB ∧ (s.firstBand p b f).palette = s.palette ∧
    (s.firstBand p b f).ramp = s.ramp ∧ (s.firstBand p b f).rotations = s.rotations ∧
    (s.firstBand p b f).scenes = s.scenes ∧ (s.firstBand p b f).serial = s.serial ∧ (s.firstBand p b f).job = s.job ∧
    (s.firstBand p b f).cues = s.cues ∧ (s.firstBand p b f).time = s.time ∧ (s.firstBand p b f).alarms = s.alarms ∧
    (s.firstBand p b f).served = s.served ∧ (s.firstBand p b f).store = s.store ∧
    (s.firstBand p b f).freeCount = s.freeCount ∧ (s.firstBand p b f).pending = s.pending ∧
    (s.firstBand p b f).holdings = s.holdings := by
  unfold State.firstBand
  split
  · simp [modPort_holdings, modPorts_holdings]
  · split
    · next h =>
      have e := congrArg Prod.snd h
      dsimp only at e
      subst e
      simp [modPort_holdings, modPorts_holdings]
    · next h =>
      have e := congrArg Prod.snd h
      dsimp only at e
      subst e
      simp [modPort_holdings, modPorts_holdings]

/-- R11, R12: a picture complete. -/
@[simp] theorem completePicture_frame (p : Fin 16) (k : Fin 64) (n : Byte) (f : Format) (m : Bool) :
    (s.completePicture p k n f m).stills = s.stills ∧ (s.completePicture p k n f m).starvation = s.starvation ∧
    (s.completePicture p k n f m).library = s.library ∧ (s.completePicture p k n f m).screens = s.screens ∧
    (s.completePicture p k n f m).rateA = s.rateA ∧ (s.completePicture p k n f m).rateB = s.rateB ∧
    (s.completePicture p k n f m).palette = s.palette ∧ (s.completePicture p k n f m).ramp = s.ramp ∧
    (s.completePicture p k n f m).rotations = s.rotations ∧ (s.completePicture p k n f m).scenes = s.scenes ∧
    (s.completePicture p k n f m).serial = s.serial ∧ (s.completePicture p k n f m).job = s.job ∧
    (s.completePicture p k n f m).cues = s.cues ∧ (s.completePicture p k n f m).time = s.time ∧
    (s.completePicture p k n f m).alarms = s.alarms ∧ (s.completePicture p k n f m).served = s.served ∧
    (s.completePicture p k n f m).store = s.store ∧ (s.completePicture p k n f m).freeCount = s.freeCount ∧
    (s.completePicture p k n f m).pending = s.pending ∧ (s.completePicture p k n f m).holdings = s.holdings := by
  unfold State.completePicture
  try dsimp only
  (repeat' split) <;> simp [modPort_holdings, modPorts_holdings]

/-- R9 to R11: a later band. -/
@[simp] theorem laterBand_frame (p : Fin 16) (b : BandCell) (k : Fin 64) (n : Byte) (f : Format) (e : Nat) (m : Bool) :
    (s.laterBand p b k n f e m).stills = s.stills ∧ (s.laterBand p b k n f e m).starvation = s.starvation ∧
    (s.laterBand p b k n f e m).library = s.library ∧ (s.laterBand p b k n f e m).screens = s.screens ∧
    (s.laterBand p b k n f e m).rateA = s.rateA ∧ (s.laterBand p b k n f e m).rateB = s.rateB ∧
    (s.laterBand p b k n f e m).palette = s.palette ∧ (s.laterBand p b k n f e m).ramp = s.ramp ∧
    (s.laterBand p b k n f e m).rotations = s.rotations ∧ (s.laterBand p b k n f e m).scenes = s.scenes ∧
    (s.laterBand p b k n f e m).serial = s.serial ∧ (s.laterBand p b k n f e m).job = s.job ∧
    (s.laterBand p b k n f e m).cues = s.cues ∧ (s.laterBand p b k n f e m).time = s.time ∧
    (s.laterBand p b k n f e m).alarms = s.alarms ∧ (s.laterBand p b k n f e m).served = s.served ∧
    (s.laterBand p b k n f e m).store = s.store ∧ (s.laterBand p b k n f e m).freeCount = s.freeCount ∧
    (s.laterBand p b k n f e m).pending = s.pending ∧ (s.laterBand p b k n f e m).holdings = s.holdings := by
  unfold State.laterBand
  try dsimp only
  (repeat' split) <;> simp [modPort_holdings, modPorts_holdings]

/-- R5, R7 to R13: a band. -/
@[simp] theorem assemble_frame (p : Fin 16) (b : BandCell) :
    (s.assemble p b).stills = s.stills ∧ (s.assemble p b).library = s.library ∧
    (s.assemble p b).screens = s.screens ∧ (s.assemble p b).rateA = s.rateA ∧ (s.assemble p b).rateB = s.rateB ∧
    (s.assemble p b).palette = s.palette ∧ (s.assemble p b).ramp = s.ramp ∧
    (s.assemble p b).rotations = s.rotations ∧ (s.assemble p b).scenes = s.scenes ∧
    (s.assemble p b).serial = s.serial ∧ (s.assemble p b).job = s.job ∧ (s.assemble p b).cues = s.cues ∧
    (s.assemble p b).time = s.time ∧ (s.assemble p b).alarms = s.alarms ∧ (s.assemble p b).served = s.served ∧
    (s.assemble p b).store = s.store ∧ (s.assemble p b).freeCount = s.freeCount ∧
    (s.assemble p b).pending = s.pending ∧ (s.assemble p b).holdings = s.holdings := by
  unfold State.assemble
  try dsimp only
  (repeat' split) <;> simp [modPort_holdings, modPorts_holdings]

/-- R4: a cell sorted. -/
@[simp] theorem sortCell_frame (p : Fin 16) (c : Cell) :
    (s.sortCell p c).stills = s.stills ∧ (s.sortCell p c).library = s.library ∧
    (s.sortCell p c).screens = s.screens ∧ (s.sortCell p c).rateA = s.rateA ∧ (s.sortCell p c).rateB = s.rateB ∧
    (s.sortCell p c).palette = s.palette ∧ (s.sortCell p c).ramp = s.ramp ∧
    (s.sortCell p c).rotations = s.rotations ∧ (s.sortCell p c).scenes = s.scenes ∧
    (s.sortCell p c).serial = s.serial ∧ (s.sortCell p c).job = s.job ∧ (s.sortCell p c).cues = s.cues ∧
    (s.sortCell p c).time = s.time ∧ (s.sortCell p c).alarms = s.alarms ∧ (s.sortCell p c).served = s.served ∧
    (s.sortCell p c).store = s.store ∧ (s.sortCell p c).freeCount = s.freeCount ∧ (s.sortCell p c).pending = s.pending := by
  unfold State.sortCell
  try dsimp only
  (repeat' split) <;> simp [modPort_holdings, modPorts_holdings]

/-- R3, R14: the link lost. -/
@[simp] theorem loseSync_frame (p : Fin 16) :
    (s.loseSync p).stills = s.stills ∧ (s.loseSync p).starvation = s.starvation ∧
    (s.loseSync p).library = s.library ∧ (s.loseSync p).screens = s.screens ∧ (s.loseSync p).rateA = s.rateA ∧
    (s.loseSync p).rateB = s.rateB ∧ (s.loseSync p).palette = s.palette ∧ (s.loseSync p).ramp = s.ramp ∧
    (s.loseSync p).rotations = s.rotations ∧ (s.loseSync p).scenes = s.scenes ∧ (s.loseSync p).serial = s.serial ∧
    (s.loseSync p).job = s.job ∧ (s.loseSync p).cues = s.cues ∧ (s.loseSync p).time = s.time ∧
    (s.loseSync p).alarms = s.alarms ∧ (s.loseSync p).served = s.served ∧ (s.loseSync p).store = s.store ∧
    (s.loseSync p).freeCount = s.freeCount ∧ (s.loseSync p).pending = s.pending ∧ (s.loseSync p).holdings = s.holdings := by
  unfold State.loseSync
  simp [modPort_holdings, modPorts_holdings]

/-- R2: the link gained. -/
@[simp] theorem gainSync_frame (p : Fin 16) :
    (s.gainSync p).slots = s.slots ∧ (s.gainSync p).stills = s.stills ∧ (s.gainSync p).starvation = s.starvation ∧
    (s.gainSync p).library = s.library ∧ (s.gainSync p).screens = s.screens ∧ (s.gainSync p).rateA = s.rateA ∧
    (s.gainSync p).rateB = s.rateB ∧ (s.gainSync p).palette = s.palette ∧ (s.gainSync p).ramp = s.ramp ∧
    (s.gainSync p).rotations = s.rotations ∧ (s.gainSync p).scenes = s.scenes ∧ (s.gainSync p).serial = s.serial ∧
    (s.gainSync p).job = s.job ∧ (s.gainSync p).cues = s.cues ∧ (s.gainSync p).runners = s.runners ∧
    (s.gainSync p).time = s.time ∧ (s.gainSync p).alarms = s.alarms ∧ (s.gainSync p).triggers = s.triggers ∧
    (s.gainSync p).served = s.served ∧ (s.gainSync p).store = s.store ∧ (s.gainSync p).freeCount = s.freeCount ∧
    (s.gainSync p).pending = s.pending ∧ (s.gainSync p).holdings = s.holdings := by
  unfold State.gainSync
  simp [modPort_holdings, modPorts_holdings]

/-- R1, R3: a malformed cell. -/
@[simp] theorem malformedArrives_frame (p : Fin 16) :
    (s.malformedArrives p).stills = s.stills ∧ (s.malformedArrives p).starvation = s.starvation ∧
    (s.malformedArrives p).library = s.library ∧ (s.malformedArrives p).screens = s.screens ∧
    (s.malformedArrives p).rateA = s.rateA ∧ (s.malformedArrives p).rateB = s.rateB ∧
    (s.malformedArrives p).palette = s.palette ∧ (s.malformedArrives p).ramp = s.ramp ∧
    (s.malformedArrives p).rotations = s.rotations ∧ (s.malformedArrives p).scenes = s.scenes ∧
    (s.malformedArrives p).serial = s.serial ∧ (s.malformedArrives p).job = s.job ∧
    (s.malformedArrives p).cues = s.cues ∧ (s.malformedArrives p).time = s.time ∧
    (s.malformedArrives p).alarms = s.alarms ∧ (s.malformedArrives p).served = s.served ∧
    (s.malformedArrives p).store = s.store ∧ (s.malformedArrives p).freeCount = s.freeCount ∧
    (s.malformedArrives p).pending = s.pending ∧ (s.malformedArrives p).holdings = s.holdings := by
  unfold State.malformedArrives
  try dsimp only
  (repeat' split) <;> simp [modPort_holdings, modPorts_holdings]

/-- R2, R4: a well-formed cell. -/
@[simp] theorem wellFormedArrives_frame (p : Fin 16) (c : Cell) :
    (s.wellFormedArrives p c).stills = s.stills ∧ (s.wellFormedArrives p c).library = s.library ∧
    (s.wellFormedArrives p c).screens = s.screens ∧ (s.wellFormedArrives p c).rateA = s.rateA ∧
    (s.wellFormedArrives p c).rateB = s.rateB ∧ (s.wellFormedArrives p c).palette = s.palette ∧
    (s.wellFormedArrives p c).ramp = s.ramp ∧ (s.wellFormedArrives p c).rotations = s.rotations ∧
    (s.wellFormedArrives p c).scenes = s.scenes ∧ (s.wellFormedArrives p c).serial = s.serial ∧
    (s.wellFormedArrives p c).job = s.job ∧ (s.wellFormedArrives p c).cues = s.cues ∧
    (s.wellFormedArrives p c).time = s.time ∧ (s.wellFormedArrives p c).alarms = s.alarms ∧
    (s.wellFormedArrives p c).served = s.served ∧ (s.wellFormedArrives p c).store = s.store ∧
    (s.wellFormedArrives p c).freeCount = s.freeCount ∧ (s.wellFormedArrives p c).pending = s.pending := by
  unfold State.wellFormedArrives
  try dsimp only
  (repeat' split) <;> simp [modPort_holdings, modPorts_holdings]

/-- R1 to R4: a cell. -/
@[simp] theorem cellArrives_frame (p : Fin 16) (c : List Byte) :
    (s.cellArrives p c).stills = s.stills ∧ (s.cellArrives p c).library = s.library ∧
    (s.cellArrives p c).screens = s.screens ∧ (s.cellArrives p c).rateA = s.rateA ∧
    (s.cellArrives p c).rateB = s.rateB ∧ (s.cellArrives p c).palette = s.palette ∧
    (s.cellArrives p c).ramp = s.ramp ∧ (s.cellArrives p c).rotations = s.rotations ∧
    (s.cellArrives p c).scenes = s.scenes ∧ (s.cellArrives p c).serial = s.serial ∧ (s.cellArrives p c).job = s.job ∧
    (s.cellArrives p c).cues = s.cues ∧ (s.cellArrives p c).time = s.time ∧ (s.cellArrives p c).alarms = s.alarms ∧
    (s.cellArrives p c).served = s.served ∧ (s.cellArrives p c).store = s.store ∧
    (s.cellArrives p c).freeCount = s.freeCount ∧ (s.cellArrives p c).pending = s.pending := by
  unfold State.cellArrives
  try dsimp only
  (repeat' split) <;> simp [modPort_holdings, modPorts_holdings]

/-- R3: the silence timer. -/
@[simp] theorem silenceExpires_frame (p : Fin 16) :
    (s.silenceExpires p).stills = s.stills ∧ (s.silenceExpires p).starvation = s.starvation ∧
    (s.silenceExpires p).library = s.library ∧ (s.silenceExpires p).screens = s.screens ∧
    (s.silenceExpires p).rateA = s.rateA ∧ (s.silenceExpires p).rateB = s.rateB ∧
    (s.silenceExpires p).palette = s.palette ∧ (s.silenceExpires p).ramp = s.ramp ∧
    (s.silenceExpires p).rotations = s.rotations ∧ (s.silenceExpires p).scenes = s.scenes ∧
    (s.silenceExpires p).serial = s.serial ∧ (s.silenceExpires p).job = s.job ∧ (s.silenceExpires p).cues = s.cues ∧
    (s.silenceExpires p).time = s.time ∧ (s.silenceExpires p).alarms = s.alarms ∧
    (s.silenceExpires p).served = s.served ∧ (s.silenceExpires p).store = s.store ∧
    (s.silenceExpires p).freeCount = s.freeCount ∧ (s.silenceExpires p).pending = s.pending ∧
    (s.silenceExpires p).holdings = s.holdings := by
  unfold State.silenceExpires
  try dsimp only
  (repeat' split) <;> simp [modPort_holdings, modPorts_holdings]


/-! ### Stills, tables and entries that a request writes (03 to 09) -/

/-- R46: a pin moved. -/
@[simp] theorem repin_frame (k : Fin 4) (j : Fin 64) :
    (s.repin k j).ports = s.ports ∧ (s.repin k j).sources = s.sources ∧ (s.repin k j).starvation = s.starvation ∧
    (s.repin k j).library = s.library ∧ (s.repin k j).screens = s.screens ∧ (s.repin k j).rateA = s.rateA ∧
    (s.repin k j).rateB = s.rateB ∧ (s.repin k j).palette = s.palette ∧ (s.repin k j).ramp = s.ramp ∧
    (s.repin k j).rotations = s.rotations ∧ (s.repin k j).scenes = s.scenes ∧ (s.repin k j).serial = s.serial ∧
    (s.repin k j).job = s.job ∧ (s.repin k j).cues = s.cues ∧ (s.repin k j).runners = s.runners ∧
    (s.repin k j).time = s.time ∧ (s.repin k j).alarms = s.alarms ∧ (s.repin k j).triggers = s.triggers ∧
    (s.repin k j).served = s.served ∧ (s.repin k j).store = s.store ∧ (s.repin k j).freeCount = s.freeCount ∧
    (s.repin k j).pending = s.pending ∧ (s.repin k j).holdings = s.holdings := by
  unfold State.repin
  simp [modPort_holdings, modPorts_holdings]

/-- R47: a pin removed. -/
@[simp] theorem unpin_frame (k : Fin 4) (j : Fin 64) :
    (s.unpin k j).ports = s.ports ∧ (s.unpin k j).sources = s.sources ∧ (s.unpin k j).starvation = s.starvation ∧
    (s.unpin k j).library = s.library ∧ (s.unpin k j).screens = s.screens ∧ (s.unpin k j).rateA = s.rateA ∧
    (s.unpin k j).rateB = s.rateB ∧ (s.unpin k j).palette = s.palette ∧ (s.unpin k j).ramp = s.ramp ∧
    (s.unpin k j).rotations = s.rotations ∧ (s.unpin k j).scenes = s.scenes ∧ (s.unpin k j).serial = s.serial ∧
    (s.unpin k j).job = s.job ∧ (s.unpin k j).cues = s.cues ∧ (s.unpin k j).runners = s.runners ∧
    (s.unpin k j).time = s.time ∧ (s.unpin k j).alarms = s.alarms ∧ (s.unpin k j).triggers = s.triggers ∧
    (s.unpin k j).served = s.served ∧ (s.unpin k j).store = s.store ∧ (s.unpin k j).freeCount = s.freeCount ∧
    (s.unpin k j).pending = s.pending ∧ (s.unpin k j).holdings = s.holdings := by
  unfold State.unpin
  simp [modPort_holdings, modPorts_holdings]

/-- R46: CAPTURE. -/
@[simp] theorem captureFields_frame (f : List Nat) :
    (captureFields f s).1.ports = s.ports ∧ (captureFields f s).1.sources = s.sources ∧
    (captureFields f s).1.starvation = s.starvation ∧ (captureFields f s).1.library = s.library ∧
    (captureFields f s).1.screens = s.screens ∧ (captureFields f s).1.rateA = s.rateA ∧
    (captureFields f s).1.rateB = s.rateB ∧ (captureFields f s).1.palette = s.palette ∧
    (captureFields f s).1.ramp = s.ramp ∧ (captureFields f s).1.rotations = s.rotations ∧
    (captureFields f s).1.scenes = s.scenes ∧ (captureFields f s).1.serial = s.serial ∧
    (captureFields f s).1.job = s.job ∧ (captureFields f s).1.cues = s.cues ∧
    (captureFields f s).1.runners = s.runners ∧ (captureFields f s).1.time = s.time ∧
    (captureFields f s).1.alarms = s.alarms ∧ (captureFields f s).1.triggers = s.triggers ∧
    (captureFields f s).1.served = s.served ∧ (captureFields f s).1.store = s.store ∧
    (captureFields f s).1.freeCount = s.freeCount ∧ (captureFields f s).1.pending = s.pending ∧
    (captureFields f s).1.holdings = s.holdings := by
  unfold captureFields
  try dsimp only
  (repeat' split) <;> simp [modPort_holdings, modPorts_holdings]

/-- R47: RELEASE STILL. -/
@[simp] theorem releaseStillFields_frame (f : List Nat) :
    (releaseStillFields f s).1.ports = s.ports ∧ (releaseStillFields f s).1.sources = s.sources ∧
    (releaseStillFields f s).1.starvation = s.starvation ∧ (releaseStillFields f s).1.library = s.library ∧
    (releaseStillFields f s).1.screens = s.screens ∧ (releaseStillFields f s).1.rateA = s.rateA ∧
    (releaseStillFields f s).1.rateB = s.rateB ∧ (releaseStillFields f s).1.palette = s.palette ∧
    (releaseStillFields f s).1.ramp = s.ramp ∧ (releaseStillFields f s).1.rotations = s.rotations ∧
    (releaseStillFields f s).1.scenes = s.scenes ∧ (releaseStillFields f s).1.serial = s.serial ∧
    (releaseStillFields f s).1.job = s.job ∧ (releaseStillFields f s).1.cues = s.cues ∧
    (releaseStillFields f s).1.runners = s.runners ∧ (releaseStillFields f s).1.time = s.time ∧
    (releaseStillFields f s).1.alarms = s.alarms ∧ (releaseStillFields f s).1.triggers = s.triggers ∧
    (releaseStillFields f s).1.served = s.served ∧ (releaseStillFields f s).1.store = s.store ∧
    (releaseStillFields f s).1.freeCount = s.freeCount ∧ (releaseStillFields f s).1.pending = s.pending ∧
    (releaseStillFields f s).1.holdings = s.holdings := by
  unfold releaseStillFields
  dsimp only
  (repeat' split) <;> simp [modPort_holdings, modPorts_holdings]

/-- R30: REQUALIFY's fields. -/
@[simp] theorem requalifyFields_frame (f : List Nat) :
    (requalifyFields f s).1.slots = s.slots ∧ (requalifyFields f s).1.stills = s.stills ∧
    (requalifyFields f s).1.starvation = s.starvation ∧ (requalifyFields f s).1.library = s.library ∧
    (requalifyFields f s).1.screens = s.screens ∧ (requalifyFields f s).1.rateA = s.rateA ∧
    (requalifyFields f s).1.rateB = s.rateB ∧ (requalifyFields f s).1.palette = s.palette ∧
    (requalifyFields f s).1.ramp = s.ramp ∧ (requalifyFields f s).1.rotations = s.rotations ∧
    (requalifyFields f s).1.scenes = s.scenes ∧ (requalifyFields f s).1.serial = s.serial ∧
    (requalifyFields f s).1.job = s.job ∧ (requalifyFields f s).1.cues = s.cues ∧
    (requalifyFields f s).1.runners = s.runners ∧ (requalifyFields f s).1.time = s.time ∧
    (requalifyFields f s).1.alarms = s.alarms ∧ (requalifyFields f s).1.triggers = s.triggers ∧
    (requalifyFields f s).1.served = s.served ∧ (requalifyFields f s).1.store = s.store ∧
    (requalifyFields f s).1.freeCount = s.freeCount ∧ (requalifyFields f s).1.pending = s.pending ∧
    (requalifyFields f s).1.holdings = s.holdings := by
  unfold requalifyFields
  try dsimp only
  (repeat' split) <;> simp [modPort_holdings, modPorts_holdings]

/-- R60: a library entry. -/
@[simp] theorem setEntry_frame (e : Fin 128) (l : Option Layout) :
    (s.setEntry e l).ports = s.ports ∧ (s.setEntry e l).sources = s.sources ∧ (s.setEntry e l).slots = s.slots ∧
    (s.setEntry e l).stills = s.stills ∧ (s.setEntry e l).starvation = s.starvation ∧
    (s.setEntry e l).screens = s.screens ∧ (s.setEntry e l).rateA = s.rateA ∧ (s.setEntry e l).rateB = s.rateB ∧
    (s.setEntry e l).palette = s.palette ∧ (s.setEntry e l).ramp = s.ramp ∧
    (s.setEntry e l).rotations = s.rotations ∧ (s.setEntry e l).scenes = s.scenes ∧
    (s.setEntry e l).serial = s.serial ∧ (s.setEntry e l).job = s.job ∧ (s.setEntry e l).cues = s.cues ∧
    (s.setEntry e l).runners = s.runners ∧ (s.setEntry e l).time = s.time ∧ (s.setEntry e l).alarms = s.alarms ∧
    (s.setEntry e l).triggers = s.triggers ∧ (s.setEntry e l).served = s.served ∧ (s.setEntry e l).store = s.store ∧
    (s.setEntry e l).freeCount = s.freeCount ∧ (s.setEntry e l).pending = s.pending ∧
    (s.setEntry e l).holdings = s.holdings := by
  unfold State.setEntry
  simp [modPort_holdings, modPorts_holdings]

/-- R111: a scene entry. -/
@[simp] theorem setScene_frame (n : Fin 32) (x : Option Scene) :
    (s.setScene n x).ports = s.ports ∧ (s.setScene n x).sources = s.sources ∧ (s.setScene n x).slots = s.slots ∧
    (s.setScene n x).stills = s.stills ∧ (s.setScene n x).starvation = s.starvation ∧
    (s.setScene n x).library = s.library ∧ (s.setScene n x).screens = s.screens ∧ (s.setScene n x).rateA = s.rateA ∧
    (s.setScene n x).rateB = s.rateB ∧ (s.setScene n x).palette = s.palette ∧ (s.setScene n x).ramp = s.ramp ∧
    (s.setScene n x).rotations = s.rotations ∧ (s.setScene n x).serial = s.serial ∧ (s.setScene n x).job = s.job ∧
    (s.setScene n x).cues = s.cues ∧ (s.setScene n x).runners = s.runners ∧ (s.setScene n x).time = s.time ∧
    (s.setScene n x).alarms = s.alarms ∧ (s.setScene n x).triggers = s.triggers ∧
    (s.setScene n x).served = s.served ∧ (s.setScene n x).store = s.store ∧
    (s.setScene n x).freeCount = s.freeCount ∧ (s.setScene n x).pending = s.pending ∧
    (s.setScene n x).holdings = s.holdings := by
  unfold State.setScene
  simp [modPort_holdings, modPorts_holdings]

/-- R106: a rotation list. -/
@[simp] theorem setRotation_frame (k : Fin 8) (l : Rotation) :
    (s.setRotation k l).ports = s.ports ∧ (s.setRotation k l).sources = s.sources ∧
    (s.setRotation k l).slots = s.slots ∧ (s.setRotation k l).stills = s.stills ∧
    (s.setRotation k l).starvation = s.starvation ∧ (s.setRotation k l).library = s.library ∧
    (s.setRotation k l).screens = s.screens ∧ (s.setRotation k l).rateA = s.rateA ∧
    (s.setRotation k l).rateB = s.rateB ∧ (s.setRotation k l).palette = s.palette ∧
    (s.setRotation k l).ramp = s.ramp ∧ (s.setRotation k l).scenes = s.scenes ∧
    (s.setRotation k l).serial = s.serial ∧ (s.setRotation k l).job = s.job ∧ (s.setRotation k l).cues = s.cues ∧
    (s.setRotation k l).runners = s.runners ∧ (s.setRotation k l).time = s.time ∧
    (s.setRotation k l).alarms = s.alarms ∧ (s.setRotation k l).triggers = s.triggers ∧
    (s.setRotation k l).served = s.served ∧ (s.setRotation k l).store = s.store ∧
    (s.setRotation k l).freeCount = s.freeCount ∧ (s.setRotation k l).pending = s.pending ∧
    (s.setRotation k l).holdings = s.holdings := by
  unfold State.setRotation
  simp [modPort_holdings, modPorts_holdings]

/-- R73: a rate. -/
@[simp] theorem setRate_frame (k : Cadence) (n : Nat) :
    (s.setRate k n).ports = s.ports ∧ (s.setRate k n).sources = s.sources ∧ (s.setRate k n).slots = s.slots ∧
    (s.setRate k n).stills = s.stills ∧ (s.setRate k n).starvation = s.starvation ∧
    (s.setRate k n).library = s.library ∧ (s.setRate k n).screens = s.screens ∧ (s.setRate k n).palette = s.palette ∧
    (s.setRate k n).ramp = s.ramp ∧ (s.setRate k n).rotations = s.rotations ∧ (s.setRate k n).scenes = s.scenes ∧
    (s.setRate k n).serial = s.serial ∧ (s.setRate k n).job = s.job ∧ (s.setRate k n).cues = s.cues ∧
    (s.setRate k n).runners = s.runners ∧ (s.setRate k n).time = s.time ∧ (s.setRate k n).alarms = s.alarms ∧
    (s.setRate k n).triggers = s.triggers ∧ (s.setRate k n).served = s.served ∧ (s.setRate k n).store = s.store ∧
    (s.setRate k n).freeCount = s.freeCount ∧ (s.setRate k n).pending = s.pending ∧
    (s.setRate k n).holdings = s.holdings := by
  cases k <;> simp [modPort_holdings, modPorts_holdings, State.setRate]

/-- R128: a run of entries. -/
@[simp] theorem writeCues_frame (a : Nat) (es : List CueEntry) :
    (s.writeCues a es).ports = s.ports ∧ (s.writeCues a es).sources = s.sources ∧
    (s.writeCues a es).slots = s.slots ∧ (s.writeCues a es).stills = s.stills ∧
    (s.writeCues a es).starvation = s.starvation ∧ (s.writeCues a es).library = s.library ∧
    (s.writeCues a es).screens = s.screens ∧ (s.writeCues a es).rateA = s.rateA ∧
    (s.writeCues a es).rateB = s.rateB ∧ (s.writeCues a es).palette = s.palette ∧ (s.writeCues a es).ramp = s.ramp ∧
    (s.writeCues a es).rotations = s.rotations ∧ (s.writeCues a es).scenes = s.scenes ∧
    (s.writeCues a es).serial = s.serial ∧ (s.writeCues a es).job = s.job ∧ (s.writeCues a es).runners = s.runners ∧
    (s.writeCues a es).time = s.time ∧ (s.writeCues a es).alarms = s.alarms ∧
    (s.writeCues a es).triggers = s.triggers ∧ (s.writeCues a es).served = s.served ∧
    (s.writeCues a es).store = s.store ∧ (s.writeCues a es).freeCount = s.freeCount ∧
    (s.writeCues a es).pending = s.pending ∧ (s.writeCues a es).holdings = s.holdings := by
  induction es generalizing a s with
  | nil => simp [modPort_holdings, modPorts_holdings, State.writeCues]
  | cons e t ih => simp [modPort_holdings, modPorts_holdings, State.writeCues, ih]


/-! ### The take engine (07) -/

/-- A standby written. -/
@[simp] theorem setStandby_frame (c : Fin 24) (b : Standby) :
    (s.setStandby c b).sources = s.sources ∧ (s.setStandby c b).slots = s.slots ∧
    (s.setStandby c b).stills = s.stills ∧ (s.setStandby c b).starvation = s.starvation ∧
    (s.setStandby c b).library = s.library ∧ (s.setStandby c b).rateA = s.rateA ∧
    (s.setStandby c b).rateB = s.rateB ∧ (s.setStandby c b).palette = s.palette ∧ (s.setStandby c b).ramp = s.ramp ∧
    (s.setStandby c b).rotations = s.rotations ∧ (s.setStandby c b).scenes = s.scenes ∧
    (s.setStandby c b).serial = s.serial ∧ (s.setStandby c b).job = s.job ∧ (s.setStandby c b).cues = s.cues ∧
    (s.setStandby c b).runners = s.runners ∧ (s.setStandby c b).time = s.time ∧
    (s.setStandby c b).alarms = s.alarms ∧ (s.setStandby c b).triggers = s.triggers ∧
    (s.setStandby c b).served = s.served ∧ (s.setStandby c b).store = s.store ∧
    (s.setStandby c b).freeCount = s.freeCount ∧ (s.setStandby c b).pending = s.pending ∧
    (s.setStandby c b).holdings = s.holdings := by
  unfold State.setStandby
  simp [modPort_holdings, modPorts_holdings]

/-- R119: a result handed on. -/
@[simp] theorem handResult_frame (j : Job) :
    (s.handResult j).sources = s.sources ∧ (s.handResult j).slots = s.slots ∧ (s.handResult j).stills = s.stills ∧
    (s.handResult j).starvation = s.starvation ∧ (s.handResult j).library = s.library ∧
    (s.handResult j).screens = s.screens ∧ (s.handResult j).rateA = s.rateA ∧ (s.handResult j).rateB = s.rateB ∧
    (s.handResult j).palette = s.palette ∧ (s.handResult j).ramp = s.ramp ∧
    (s.handResult j).rotations = s.rotations ∧ (s.handResult j).scenes = s.scenes ∧
    (s.handResult j).serial = s.serial ∧ (s.handResult j).job = s.job ∧ (s.handResult j).cues = s.cues ∧
    (s.handResult j).time = s.time ∧ (s.handResult j).alarms = s.alarms ∧ (s.handResult j).triggers = s.triggers ∧
    (s.handResult j).served = s.served ∧ (s.handResult j).store = s.store ∧
    (s.handResult j).freeCount = s.freeCount ∧ (s.handResult j).pending = s.pending ∧
    (s.handResult j).holdings = s.holdings := by
  unfold State.handResult
  try dsimp only
  (repeat' split) <;> simp [modPort_holdings, modPorts_holdings]

/-- R119: a job DONE. -/
@[simp] theorem finishJob_frame (b : Bool) (j : Job) :
    (s.finishJob b j).sources = s.sources ∧ (s.finishJob b j).slots = s.slots ∧ (s.finishJob b j).stills = s.stills ∧
    (s.finishJob b j).starvation = s.starvation ∧ (s.finishJob b j).library = s.library ∧
    (s.finishJob b j).screens = s.screens ∧ (s.finishJob b j).rateA = s.rateA ∧ (s.finishJob b j).rateB = s.rateB ∧
    (s.finishJob b j).palette = s.palette ∧ (s.finishJob b j).ramp = s.ramp ∧
    (s.finishJob b j).rotations = s.rotations ∧ (s.finishJob b j).scenes = s.scenes ∧
    (s.finishJob b j).serial = s.serial ∧ (s.finishJob b j).cues = s.cues ∧ (s.finishJob b j).time = s.time ∧
    (s.finishJob b j).alarms = s.alarms ∧ (s.finishJob b j).triggers = s.triggers ∧
    (s.finishJob b j).served = s.served ∧ (s.finishJob b j).store = s.store ∧
    (s.finishJob b j).freeCount = s.freeCount ∧ (s.finishJob b j).pending = s.pending ∧
    (s.finishJob b j).holdings = s.holdings := by
  unfold State.finishJob
  simp [modPort_holdings, modPorts_holdings]

/-- R119: a job left with no PENDING member. -/
@[simp] theorem settle_frame :
    s.settle.sources = s.sources ∧ s.settle.slots = s.slots ∧ s.settle.stills = s.stills ∧
    s.settle.starvation = s.starvation ∧ s.settle.library = s.library ∧ s.settle.screens = s.screens ∧
    s.settle.rateA = s.rateA ∧ s.settle.rateB = s.rateB ∧ s.settle.palette = s.palette ∧ s.settle.ramp = s.ramp ∧
    s.settle.rotations = s.rotations ∧ s.settle.scenes = s.scenes ∧ s.settle.serial = s.serial ∧
    s.settle.cues = s.cues ∧ s.settle.time = s.time ∧ s.settle.alarms = s.alarms ∧ s.settle.triggers = s.triggers ∧
    s.settle.served = s.served ∧ s.settle.store = s.store ∧ s.settle.freeCount = s.freeCount ∧
    s.settle.pending = s.pending ∧ s.settle.holdings = s.holdings := by
  unfold State.settle
  try dsimp only
  (repeat' split) <;> simp [modPort_holdings, modPorts_holdings]

/-- R117: a member armed. -/
@[simp] theorem armMember_frame (m : Member) :
    (s.armMember m).sources = s.sources ∧ (s.armMember m).slots = s.slots ∧ (s.armMember m).stills = s.stills ∧
    (s.armMember m).starvation = s.starvation ∧ (s.armMember m).library = s.library ∧
    (s.armMember m).rateA = s.rateA ∧ (s.armMember m).rateB = s.rateB ∧ (s.armMember m).palette = s.palette ∧
    (s.armMember m).ramp = s.ramp ∧ (s.armMember m).rotations = s.rotations ∧ (s.armMember m).scenes = s.scenes ∧
    (s.armMember m).serial = s.serial ∧ (s.armMember m).job = s.job ∧ (s.armMember m).cues = s.cues ∧
    (s.armMember m).runners = s.runners ∧ (s.armMember m).time = s.time ∧ (s.armMember m).alarms = s.alarms ∧
    (s.armMember m).triggers = s.triggers ∧ (s.armMember m).served = s.served ∧ (s.armMember m).store = s.store ∧
    (s.armMember m).freeCount = s.freeCount ∧ (s.armMember m).pending = s.pending ∧
    (s.armMember m).holdings = s.holdings := by
  unfold State.armMember
  try dsimp only
  (repeat' split) <;> simp [modPort_holdings, modPorts_holdings]

/-- R117: members armed. -/
@[simp] theorem armMembers_frame (ms : List Member) :
    (ms.foldl State.armMember s).sources = s.sources ∧ (ms.foldl State.armMember s).slots = s.slots ∧
    (ms.foldl State.armMember s).stills = s.stills ∧ (ms.foldl State.armMember s).starvation = s.starvation ∧
    (ms.foldl State.armMember s).library = s.library ∧ (ms.foldl State.armMember s).rateA = s.rateA ∧
    (ms.foldl State.armMember s).rateB = s.rateB ∧ (ms.foldl State.armMember s).palette = s.palette ∧
    (ms.foldl State.armMember s).ramp = s.ramp ∧ (ms.foldl State.armMember s).rotations = s.rotations ∧
    (ms.foldl State.armMember s).scenes = s.scenes ∧ (ms.foldl State.armMember s).serial = s.serial ∧
    (ms.foldl State.armMember s).job = s.job ∧ (ms.foldl State.armMember s).cues = s.cues ∧
    (ms.foldl State.armMember s).runners = s.runners ∧ (ms.foldl State.armMember s).time = s.time ∧
    (ms.foldl State.armMember s).alarms = s.alarms ∧ (ms.foldl State.armMember s).triggers = s.triggers ∧
    (ms.foldl State.armMember s).served = s.served ∧ (ms.foldl State.armMember s).store = s.store ∧
    (ms.foldl State.armMember s).freeCount = s.freeCount ∧ (ms.foldl State.armMember s).pending = s.pending ∧
    (ms.foldl State.armMember s).holdings = s.holdings := by
  exact ⟨foldl_keeps State.sources _ (by intros; simp [modPort_holdings, modPorts_holdings]) _ _, foldl_keeps State.slots _ (by intros; simp [modPort_holdings, modPorts_holdings]) _ _, foldl_keeps State.stills _ (by intros; simp [modPort_holdings, modPorts_holdings]) _ _, foldl_keeps State.starvation _ (by intros; simp [modPort_holdings, modPorts_holdings]) _ _, foldl_keeps State.library _ (by intros; simp [modPort_holdings, modPorts_holdings]) _ _, foldl_keeps State.rateA _ (by intros; simp [modPort_holdings, modPorts_holdings]) _ _, foldl_keeps State.rateB _ (by intros; simp [modPort_holdings, modPorts_holdings]) _ _, foldl_keeps State.palette _ (by intros; simp [modPort_holdings, modPorts_holdings]) _ _, foldl_keeps State.ramp _ (by intros; simp [modPort_holdings, modPorts_holdings]) _ _, foldl_keeps State.rotations _ (by intros; simp [modPort_holdings, modPorts_holdings]) _ _, foldl_keeps State.scenes _ (by intros; simp [modPort_holdings, modPorts_holdings]) _ _, foldl_keeps State.serial _ (by intros; simp [modPort_holdings, modPorts_holdings]) _ _, foldl_keeps State.job _ (by intros; simp [modPort_holdings, modPorts_holdings]) _ _, foldl_keeps State.cues _ (by intros; simp [modPort_holdings, modPorts_holdings]) _ _, foldl_keeps State.runners _ (by intros; simp [modPort_holdings, modPorts_holdings]) _ _, foldl_keeps State.time _ (by intros; simp [modPort_holdings, modPorts_holdings]) _ _, foldl_keeps State.alarms _ (by intros; simp [modPort_holdings, modPorts_holdings]) _ _, foldl_keeps State.triggers _ (by intros; simp [modPort_holdings, modPorts_holdings]) _ _, foldl_keeps State.served _ (by intros; simp [modPort_holdings, modPorts_holdings]) _ _, foldl_keeps State.store _ (by intros; simp [modPort_holdings, modPorts_holdings]) _ _, foldl_keeps State.freeCount _ (by intros; simp [modPort_holdings, modPorts_holdings]) _ _, foldl_keeps State.pending _ (by intros; simp [modPort_holdings, modPorts_holdings]) _ _, foldl_keeps State.holdings _ (by intros; simp [modPort_holdings, modPorts_holdings]) _ _⟩

/-- R117: the arming. -/
@[simp] theorem armJob_frame (j : Job) :
    (s.armJob j).sources = s.sources ∧ (s.armJob j).slots = s.slots ∧ (s.armJob j).stills = s.stills ∧
    (s.armJob j).starvation = s.starvation ∧ (s.armJob j).library = s.library ∧ (s.armJob j).rateA = s.rateA ∧
    (s.armJob j).rateB = s.rateB ∧ (s.armJob j).palette = s.palette ∧ (s.armJob j).ramp = s.ramp ∧
    (s.armJob j).rotations = s.rotations ∧ (s.armJob j).scenes = s.scenes ∧ (s.armJob j).serial = s.serial ∧
    (s.armJob j).cues = s.cues ∧ (s.armJob j).time = s.time ∧ (s.armJob j).alarms = s.alarms ∧
    (s.armJob j).triggers = s.triggers ∧ (s.armJob j).served = s.served ∧ (s.armJob j).store = s.store ∧
    (s.armJob j).freeCount = s.freeCount ∧ (s.armJob j).pending = s.pending ∧ (s.armJob j).holdings = s.holdings := by
  unfold State.armJob
  simp [modPort_holdings, modPorts_holdings]

/-- R116: the loading goes on. -/
@[simp] theorem advanceLoading_frame :
    s.advanceLoading.sources = s.sources ∧ s.advanceLoading.slots = s.slots ∧ s.advanceLoading.stills = s.stills ∧
    s.advanceLoading.starvation = s.starvation ∧ s.advanceLoading.library = s.library ∧
    s.advanceLoading.rateA = s.rateA ∧ s.advanceLoading.rateB = s.rateB ∧ s.advanceLoading.palette = s.palette ∧
    s.advanceLoading.ramp = s.ramp ∧ s.advanceLoading.rotations = s.rotations ∧ s.advanceLoading.scenes = s.scenes ∧
    s.advanceLoading.serial = s.serial ∧ s.advanceLoading.cues = s.cues ∧ s.advanceLoading.time = s.time ∧
    s.advanceLoading.alarms = s.alarms ∧ s.advanceLoading.triggers = s.triggers ∧
    s.advanceLoading.served = s.served ∧ s.advanceLoading.store = s.store ∧
    s.advanceLoading.freeCount = s.freeCount ∧ s.advanceLoading.pending = s.pending ∧
    s.advanceLoading.holdings = s.holdings := by
  unfold State.advanceLoading
  try dsimp only
  (repeat' split) <;> simp [modPort_holdings, modPorts_holdings]

/-- R113: a new job. -/
@[simp] theorem newJob_frame (k : JobKind) (q : Requester) (f : Phase) (ms : List Member) :
    (s.newJob k q f ms).sources = s.sources ∧ (s.newJob k q f ms).slots = s.slots ∧
    (s.newJob k q f ms).stills = s.stills ∧ (s.newJob k q f ms).starvation = s.starvation ∧
    (s.newJob k q f ms).library = s.library ∧ (s.newJob k q f ms).screens = s.screens ∧
    (s.newJob k q f ms).rateA = s.rateA ∧ (s.newJob k q f ms).rateB = s.rateB ∧
    (s.newJob k q f ms).palette = s.palette ∧ (s.newJob k q f ms).ramp = s.ramp ∧
    (s.newJob k q f ms).rotations = s.rotations ∧ (s.newJob k q f ms).scenes = s.scenes ∧
    (s.newJob k q f ms).cues = s.cues ∧ (s.newJob k q f ms).runners = s.runners ∧ (s.newJob k q f ms).time = s.time ∧
    (s.newJob k q f ms).alarms = s.alarms ∧ (s.newJob k q f ms).triggers = s.triggers ∧
    (s.newJob k q f ms).served = s.served ∧ (s.newJob k q f ms).store = s.store ∧
    (s.newJob k q f ms).freeCount = s.freeCount ∧ (s.newJob k q f ms).pending = s.pending ∧
    (s.newJob k q f ms).holdings = s.holdings := by
  unfold State.newJob
  simp [modPort_holdings, modPorts_holdings]

/-- R115: a PREVIOUS standby armed. -/
@[simp] theorem armPrevious_frame (m : Member) :
    (s.armPrevious m).sources = s.sources ∧ (s.armPrevious m).slots = s.slots ∧ (s.armPrevious m).stills = s.stills ∧
    (s.armPrevious m).starvation = s.starvation ∧ (s.armPrevious m).library = s.library ∧
    (s.armPrevious m).rateA = s.rateA ∧ (s.armPrevious m).rateB = s.rateB ∧ (s.armPrevious m).palette = s.palette ∧
    (s.armPrevious m).ramp = s.ramp ∧ (s.armPrevious m).rotations = s.rotations ∧
    (s.armPrevious m).scenes = s.scenes ∧ (s.armPrevious m).serial = s.serial ∧ (s.armPrevious m).job = s.job ∧
    (s.armPrevious m).cues = s.cues ∧ (s.armPrevious m).runners = s.runners ∧ (s.armPrevious m).time = s.time ∧
    (s.armPrevious m).alarms = s.alarms ∧ (s.armPrevious m).triggers = s.triggers ∧
    (s.armPrevious m).served = s.served ∧ (s.armPrevious m).store = s.store ∧
    (s.armPrevious m).freeCount = s.freeCount ∧ (s.armPrevious m).pending = s.pending ∧
    (s.armPrevious m).holdings = s.holdings := by
  unfold State.armPrevious
  try dsimp only
  (repeat' split) <;> simp [modPort_holdings, modPorts_holdings]

/-- R115: PREVIOUS standbys armed. -/
@[simp] theorem armPreviouses_frame (ms : List Member) :
    (ms.foldl State.armPrevious s).sources = s.sources ∧ (ms.foldl State.armPrevious s).slots = s.slots ∧
    (ms.foldl State.armPrevious s).stills = s.stills ∧ (ms.foldl State.armPrevious s).starvation = s.starvation ∧
    (ms.foldl State.armPrevious s).library = s.library ∧ (ms.foldl State.armPrevious s).rateA = s.rateA ∧
    (ms.foldl State.armPrevious s).rateB = s.rateB ∧ (ms.foldl State.armPrevious s).palette = s.palette ∧
    (ms.foldl State.armPrevious s).ramp = s.ramp ∧ (ms.foldl State.armPrevious s).rotations = s.rotations ∧
    (ms.foldl State.armPrevious s).scenes = s.scenes ∧ (ms.foldl State.armPrevious s).serial = s.serial ∧
    (ms.foldl State.armPrevious s).job = s.job ∧ (ms.foldl State.armPrevious s).cues = s.cues ∧
    (ms.foldl State.armPrevious s).runners = s.runners ∧ (ms.foldl State.armPrevious s).time = s.time ∧
    (ms.foldl State.armPrevious s).alarms = s.alarms ∧ (ms.foldl State.armPrevious s).triggers = s.triggers ∧
    (ms.foldl State.armPrevious s).served = s.served ∧ (ms.foldl State.armPrevious s).store = s.store ∧
    (ms.foldl State.armPrevious s).freeCount = s.freeCount ∧ (ms.foldl State.armPrevious s).pending = s.pending ∧
    (ms.foldl State.armPrevious s).holdings = s.holdings := by
  exact ⟨foldl_keeps State.sources _ (by intros; simp [modPort_holdings, modPorts_holdings]) _ _, foldl_keeps State.slots _ (by intros; simp [modPort_holdings, modPorts_holdings]) _ _, foldl_keeps State.stills _ (by intros; simp [modPort_holdings, modPorts_holdings]) _ _, foldl_keeps State.starvation _ (by intros; simp [modPort_holdings, modPorts_holdings]) _ _, foldl_keeps State.library _ (by intros; simp [modPort_holdings, modPorts_holdings]) _ _, foldl_keeps State.rateA _ (by intros; simp [modPort_holdings, modPorts_holdings]) _ _, foldl_keeps State.rateB _ (by intros; simp [modPort_holdings, modPorts_holdings]) _ _, foldl_keeps State.palette _ (by intros; simp [modPort_holdings, modPorts_holdings]) _ _, foldl_keeps State.ramp _ (by intros; simp [modPort_holdings, modPorts_holdings]) _ _, foldl_keeps State.rotations _ (by intros; simp [modPort_holdings, modPorts_holdings]) _ _, foldl_keeps State.scenes _ (by intros; simp [modPort_holdings, modPorts_holdings]) _ _, foldl_keeps State.serial _ (by intros; simp [modPort_holdings, modPorts_holdings]) _ _, foldl_keeps State.job _ (by intros; simp [modPort_holdings, modPorts_holdings]) _ _, foldl_keeps State.cues _ (by intros; simp [modPort_holdings, modPorts_holdings]) _ _, foldl_keeps State.runners _ (by intros; simp [modPort_holdings, modPorts_holdings]) _ _, foldl_keeps State.time _ (by intros; simp [modPort_holdings, modPorts_holdings]) _ _, foldl_keeps State.alarms _ (by intros; simp [modPort_holdings, modPorts_holdings]) _ _, foldl_keeps State.triggers _ (by intros; simp [modPort_holdings, modPorts_holdings]) _ _, foldl_keeps State.served _ (by intros; simp [modPort_holdings, modPorts_holdings]) _ _, foldl_keeps State.store _ (by intros; simp [modPort_holdings, modPorts_holdings]) _ _, foldl_keeps State.freeCount _ (by intros; simp [modPort_holdings, modPorts_holdings]) _ _, foldl_keeps State.pending _ (by intros; simp [modPort_holdings, modPorts_holdings]) _ _, foldl_keeps State.holdings _ (by intros; simp [modPort_holdings, modPorts_holdings]) _ _⟩

/-- R115: a REVERT job. -/
@[simp] theorem acceptRevert_frame (q : Requester) (cs : List (Fin 24)) :
    (s.acceptRevert q cs).sources = s.sources ∧ (s.acceptRevert q cs).slots = s.slots ∧
    (s.acceptRevert q cs).stills = s.stills ∧ (s.acceptRevert q cs).starvation = s.starvation ∧
    (s.acceptRevert q cs).library = s.library ∧ (s.acceptRevert q cs).rateA = s.rateA ∧
    (s.acceptRevert q cs).rateB = s.rateB ∧ (s.acceptRevert q cs).palette = s.palette ∧
    (s.acceptRevert q cs).ramp = s.ramp ∧ (s.acceptRevert q cs).rotations = s.rotations ∧
    (s.acceptRevert q cs).scenes = s.scenes ∧ (s.acceptRevert q cs).cues = s.cues ∧
    (s.acceptRevert q cs).time = s.time ∧ (s.acceptRevert q cs).alarms = s.alarms ∧
    (s.acceptRevert q cs).triggers = s.triggers ∧ (s.acceptRevert q cs).served = s.served ∧
    (s.acceptRevert q cs).store = s.store ∧ (s.acceptRevert q cs).freeCount = s.freeCount ∧
    (s.acceptRevert q cs).pending = s.pending ∧ (s.acceptRevert q cs).holdings = s.holdings := by
  unfold State.acceptRevert
  simp [modPort_holdings, modPorts_holdings]

/-- R114, R115: an accepted take touches the engine, the standbys and the runner that the result is handed to. -/
theorem accept_frame (q : Requester) (t : Take) (u : State) (h : s.accept q t = .ok u) :
    u.sources = s.sources ∧ u.slots = s.slots ∧ u.stills = s.stills ∧ u.starvation = s.starvation ∧
    u.library = s.library ∧ u.rateA = s.rateA ∧ u.rateB = s.rateB ∧ u.palette = s.palette ∧ u.ramp = s.ramp ∧
    u.rotations = s.rotations ∧ u.scenes = s.scenes ∧ u.cues = s.cues ∧ u.time = s.time ∧ u.alarms = s.alarms ∧
    u.triggers = s.triggers ∧ u.served = s.served ∧ u.store = s.store ∧ u.freeCount = s.freeCount ∧
    u.pending = s.pending ∧ u.holdings = s.holdings := by
  unfold State.accept State.acceptMembers at h
  (repeat' split at h) <;> cases h <;> simp

/-- R131: a runner's take. -/
@[simp] theorem submitTake_frame (r : Fin 4) (t : Take) (b : Bool) :
    (s.submitTake r t b).sources = s.sources ∧ (s.submitTake r t b).slots = s.slots ∧
    (s.submitTake r t b).stills = s.stills ∧ (s.submitTake r t b).starvation = s.starvation ∧
    (s.submitTake r t b).library = s.library ∧ (s.submitTake r t b).rateA = s.rateA ∧
    (s.submitTake r t b).rateB = s.rateB ∧ (s.submitTake r t b).palette = s.palette ∧
    (s.submitTake r t b).ramp = s.ramp ∧ (s.submitTake r t b).rotations = s.rotations ∧
    (s.submitTake r t b).scenes = s.scenes ∧ (s.submitTake r t b).cues = s.cues ∧
    (s.submitTake r t b).time = s.time ∧ (s.submitTake r t b).alarms = s.alarms ∧
    (s.submitTake r t b).triggers = s.triggers ∧ (s.submitTake r t b).served = s.served ∧
    (s.submitTake r t b).store = s.store ∧ (s.submitTake r t b).pending = s.pending ∧
    (s.submitTake r t b).holdings = s.holdings := by
  unfold State.submitTake
  split
  · simp [modPort_holdings, modPorts_holdings]
  · next u h =>
    have k := accept_frame s _ t u h
    (repeat' split) <;> simp [modPort_holdings, modPorts_holdings, k]

/-- R125: the engine offered to a runner. -/
@[simp] theorem offerTo_frame (r : Fin 4) :
    (s.offerTo r).sources = s.sources ∧ (s.offerTo r).slots = s.slots ∧ (s.offerTo r).stills = s.stills ∧
    (s.offerTo r).starvation = s.starvation ∧ (s.offerTo r).library = s.library ∧ (s.offerTo r).rateA = s.rateA ∧
    (s.offerTo r).rateB = s.rateB ∧ (s.offerTo r).palette = s.palette ∧ (s.offerTo r).ramp = s.ramp ∧
    (s.offerTo r).rotations = s.rotations ∧ (s.offerTo r).scenes = s.scenes ∧ (s.offerTo r).cues = s.cues ∧
    (s.offerTo r).time = s.time ∧ (s.offerTo r).alarms = s.alarms ∧ (s.offerTo r).triggers = s.triggers ∧
    (s.offerTo r).served = s.served ∧ (s.offerTo r).store = s.store ∧ (s.offerTo r).pending = s.pending ∧
    (s.offerTo r).holdings = s.holdings := by
  unfold State.offerTo
  try dsimp only
  (repeat' split) <;> simp [modPort_holdings, modPorts_holdings]

/-- R125: the engine offered. -/
@[simp] theorem offerEngine_frame :
    s.offerEngine.sources = s.sources ∧ s.offerEngine.slots = s.slots ∧ s.offerEngine.stills = s.stills ∧
    s.offerEngine.starvation = s.starvation ∧ s.offerEngine.library = s.library ∧ s.offerEngine.rateA = s.rateA ∧
    s.offerEngine.rateB = s.rateB ∧ s.offerEngine.palette = s.palette ∧ s.offerEngine.ramp = s.ramp ∧
    s.offerEngine.rotations = s.rotations ∧ s.offerEngine.scenes = s.scenes ∧ s.offerEngine.cues = s.cues ∧
    s.offerEngine.time = s.time ∧ s.offerEngine.alarms = s.alarms ∧ s.offerEngine.triggers = s.triggers ∧
    s.offerEngine.served = s.served ∧ s.offerEngine.store = s.store ∧ s.offerEngine.pending = s.pending ∧
    s.offerEngine.holdings = s.holdings := by
  unfold State.offerEngine
  exact ⟨foldl_keeps State.sources _ (by intros; simp [modPort_holdings, modPorts_holdings]) _ _, foldl_keeps State.slots _ (by intros; simp [modPort_holdings, modPorts_holdings]) _ _, foldl_keeps State.stills _ (by intros; simp [modPort_holdings, modPorts_holdings]) _ _, foldl_keeps State.starvation _ (by intros; simp [modPort_holdings, modPorts_holdings]) _ _, foldl_keeps State.library _ (by intros; simp [modPort_holdings, modPorts_holdings]) _ _, foldl_keeps State.rateA _ (by intros; simp [modPort_holdings, modPorts_holdings]) _ _, foldl_keeps State.rateB _ (by intros; simp [modPort_holdings, modPorts_holdings]) _ _, foldl_keeps State.palette _ (by intros; simp [modPort_holdings, modPorts_holdings]) _ _, foldl_keeps State.ramp _ (by intros; simp [modPort_holdings, modPorts_holdings]) _ _, foldl_keeps State.rotations _ (by intros; simp [modPort_holdings, modPorts_holdings]) _ _, foldl_keeps State.scenes _ (by intros; simp [modPort_holdings, modPorts_holdings]) _ _, foldl_keeps State.cues _ (by intros; simp [modPort_holdings, modPorts_holdings]) _ _, foldl_keeps State.time _ (by intros; simp [modPort_holdings, modPorts_holdings]) _ _, foldl_keeps State.alarms _ (by intros; simp [modPort_holdings, modPorts_holdings]) _ _, foldl_keeps State.triggers _ (by intros; simp [modPort_holdings, modPorts_holdings]) _ _, foldl_keeps State.served _ (by intros; simp [modPort_holdings, modPorts_holdings]) _ _, foldl_keeps State.store _ (by intros; simp [modPort_holdings, modPorts_holdings]) _ _, foldl_keeps State.pending _ (by intros; simp [modPort_holdings, modPorts_holdings]) _ _, foldl_keeps State.holdings _ (by intros; simp [modPort_holdings, modPorts_holdings]) _ _⟩

/-- R120: a member disabled. -/
@[simp] theorem memberDisabled_frame (c : Fin 24) :
    (s.memberDisabled c).sources = s.sources ∧ (s.memberDisabled c).slots = s.slots ∧
    (s.memberDisabled c).stills = s.stills ∧ (s.memberDisabled c).starvation = s.starvation ∧
    (s.memberDisabled c).library = s.library ∧ (s.memberDisabled c).rateA = s.rateA ∧
    (s.memberDisabled c).rateB = s.rateB ∧ (s.memberDisabled c).palette = s.palette ∧
    (s.memberDisabled c).ramp = s.ramp ∧ (s.memberDisabled c).rotations = s.rotations ∧
    (s.memberDisabled c).scenes = s.scenes ∧ (s.memberDisabled c).cues = s.cues ∧
    (s.memberDisabled c).time = s.time ∧ (s.memberDisabled c).alarms = s.alarms ∧
    (s.memberDisabled c).triggers = s.triggers ∧ (s.memberDisabled c).served = s.served ∧
    (s.memberDisabled c).store = s.store ∧ (s.memberDisabled c).pending = s.pending ∧
    (s.memberDisabled c).holdings = s.holdings := by
  unfold State.memberDisabled
  try dsimp only
  (repeat' split) <;> simp [modPort_holdings, modPorts_holdings]

/-- R118: a member swapped. -/
@[simp] theorem memberSwapped_frame (c : Fin 24) :
    (s.memberSwapped c).sources = s.sources ∧ (s.memberSwapped c).slots = s.slots ∧
    (s.memberSwapped c).stills = s.stills ∧ (s.memberSwapped c).starvation = s.starvation ∧
    (s.memberSwapped c).library = s.library ∧ (s.memberSwapped c).rateA = s.rateA ∧
    (s.memberSwapped c).rateB = s.rateB ∧ (s.memberSwapped c).palette = s.palette ∧
    (s.memberSwapped c).ramp = s.ramp ∧ (s.memberSwapped c).rotations = s.rotations ∧
    (s.memberSwapped c).scenes = s.scenes ∧ (s.memberSwapped c).cues = s.cues ∧ (s.memberSwapped c).time = s.time ∧
    (s.memberSwapped c).alarms = s.alarms ∧ (s.memberSwapped c).triggers = s.triggers ∧
    (s.memberSwapped c).served = s.served ∧ (s.memberSwapped c).store = s.store ∧
    (s.memberSwapped c).pending = s.pending ∧ (s.memberSwapped c).holdings = s.holdings := by
  unfold State.memberSwapped
  try dsimp only
  (repeat' split) <;> simp [modPort_holdings, modPorts_holdings]

/-- R122: a standby at an abort. -/
@[simp] theorem abortStandby_frame (k : JobKind) (m : Member) :
    (State.abortStandby k s m).sources = s.sources ∧ (State.abortStandby k s m).slots = s.slots ∧
    (State.abortStandby k s m).stills = s.stills ∧ (State.abortStandby k s m).starvation = s.starvation ∧
    (State.abortStandby k s m).library = s.library ∧ (State.abortStandby k s m).rateA = s.rateA ∧
    (State.abortStandby k s m).rateB = s.rateB ∧ (State.abortStandby k s m).palette = s.palette ∧
    (State.abortStandby k s m).ramp = s.ramp ∧ (State.abortStandby k s m).rotations = s.rotations ∧
    (State.abortStandby k s m).scenes = s.scenes ∧ (State.abortStandby k s m).serial = s.serial ∧
    (State.abortStandby k s m).job = s.job ∧ (State.abortStandby k s m).cues = s.cues ∧
    (State.abortStandby k s m).runners = s.runners ∧ (State.abortStandby k s m).time = s.time ∧
    (State.abortStandby k s m).alarms = s.alarms ∧ (State.abortStandby k s m).triggers = s.triggers ∧
    (State.abortStandby k s m).served = s.served ∧ (State.abortStandby k s m).store = s.store ∧
    (State.abortStandby k s m).freeCount = s.freeCount ∧ (State.abortStandby k s m).pending = s.pending ∧
    (State.abortStandby k s m).holdings = s.holdings := by
  unfold State.abortStandby
  try dsimp only
  (repeat' split) <;> simp [modPort_holdings, modPorts_holdings]

/-- R122: standbys at an abort. -/
@[simp] theorem abortStandbys_frame (k : JobKind) (ms : List Member) :
    (ms.foldl (State.abortStandby k) s).sources = s.sources ∧ (ms.foldl (State.abortStandby k) s).slots = s.slots ∧
    (ms.foldl (State.abortStandby k) s).stills = s.stills ∧
    (ms.foldl (State.abortStandby k) s).starvation = s.starvation ∧
    (ms.foldl (State.abortStandby k) s).library = s.library ∧ (ms.foldl (State.abortStandby k) s).rateA = s.rateA ∧
    (ms.foldl (State.abortStandby k) s).rateB = s.rateB ∧ (ms.foldl (State.abortStandby k) s).palette = s.palette ∧
    (ms.foldl (State.abortStandby k) s).ramp = s.ramp ∧ (ms.foldl (State.abortStandby k) s).rotations = s.rotations ∧
    (ms.foldl (State.abortStandby k) s).scenes = s.scenes ∧ (ms.foldl (State.abortStandby k) s).serial = s.serial ∧
    (ms.foldl (State.abortStandby k) s).job = s.job ∧ (ms.foldl (State.abortStandby k) s).cues = s.cues ∧
    (ms.foldl (State.abortStandby k) s).runners = s.runners ∧ (ms.foldl (State.abortStandby k) s).time = s.time ∧
    (ms.foldl (State.abortStandby k) s).alarms = s.alarms ∧
    (ms.foldl (State.abortStandby k) s).triggers = s.triggers ∧
    (ms.foldl (State.abortStandby k) s).served = s.served ∧ (ms.foldl (State.abortStandby k) s).store = s.store ∧
    (ms.foldl (State.abortStandby k) s).freeCount = s.freeCount ∧
    (ms.foldl (State.abortStandby k) s).pending = s.pending ∧
    (ms.foldl (State.abortStandby k) s).holdings = s.holdings := by
  exact ⟨foldl_keeps State.sources _ (by intros; simp [modPort_holdings, modPorts_holdings]) _ _, foldl_keeps State.slots _ (by intros; simp [modPort_holdings, modPorts_holdings]) _ _, foldl_keeps State.stills _ (by intros; simp [modPort_holdings, modPorts_holdings]) _ _, foldl_keeps State.starvation _ (by intros; simp [modPort_holdings, modPorts_holdings]) _ _, foldl_keeps State.library _ (by intros; simp [modPort_holdings, modPorts_holdings]) _ _, foldl_keeps State.rateA _ (by intros; simp [modPort_holdings, modPorts_holdings]) _ _, foldl_keeps State.rateB _ (by intros; simp [modPort_holdings, modPorts_holdings]) _ _, foldl_keeps State.palette _ (by intros; simp [modPort_holdings, modPorts_holdings]) _ _, foldl_keeps State.ramp _ (by intros; simp [modPort_holdings, modPorts_holdings]) _ _, foldl_keeps State.rotations _ (by intros; simp [modPort_holdings, modPorts_holdings]) _ _, foldl_keeps State.scenes _ (by intros; simp [modPort_holdings, modPorts_holdings]) _ _, foldl_keeps State.serial _ (by intros; simp [modPort_holdings, modPorts_holdings]) _ _, foldl_keeps State.job _ (by intros; simp [modPort_holdings, modPorts_holdings]) _ _, foldl_keeps State.cues _ (by intros; simp [modPort_holdings, modPorts_holdings]) _ _, foldl_keeps State.runners _ (by intros; simp [modPort_holdings, modPorts_holdings]) _ _, foldl_keeps State.time _ (by intros; simp [modPort_holdings, modPorts_holdings]) _ _, foldl_keeps State.alarms _ (by intros; simp [modPort_holdings, modPorts_holdings]) _ _, foldl_keeps State.triggers _ (by intros; simp [modPort_holdings, modPorts_holdings]) _ _, foldl_keeps State.served _ (by intros; simp [modPort_holdings, modPorts_holdings]) _ _, foldl_keeps State.store _ (by intros; simp [modPort_holdings, modPorts_holdings]) _ _, foldl_keeps State.freeCount _ (by intros; simp [modPort_holdings, modPorts_holdings]) _ _, foldl_keeps State.pending _ (by intros; simp [modPort_holdings, modPorts_holdings]) _ _, foldl_keeps State.holdings _ (by intros; simp [modPort_holdings, modPorts_holdings]) _ _⟩

/-- R122: an abort. -/
@[simp] theorem abortJob_frame :
    s.abortJob.sources = s.sources ∧ s.abortJob.slots = s.slots ∧ s.abortJob.stills = s.stills ∧
    s.abortJob.starvation = s.starvation ∧ s.abortJob.library = s.library ∧ s.abortJob.rateA = s.rateA ∧
    s.abortJob.rateB = s.rateB ∧ s.abortJob.palette = s.palette ∧ s.abortJob.ramp = s.ramp ∧
    s.abortJob.rotations = s.rotations ∧ s.abortJob.scenes = s.scenes ∧ s.abortJob.serial = s.serial ∧
    s.abortJob.cues = s.cues ∧ s.abortJob.time = s.time ∧ s.abortJob.alarms = s.alarms ∧
    s.abortJob.triggers = s.triggers ∧ s.abortJob.served = s.served ∧ s.abortJob.store = s.store ∧
    s.abortJob.freeCount = s.freeCount ∧ s.abortJob.pending = s.pending ∧ s.abortJob.holdings = s.holdings := by
  unfold State.abortJob
  try dsimp only
  (repeat' split) <;> simp [modPort_holdings, modPorts_holdings]

/-- R116: a load COMPLETED. -/
@[simp] theorem completeLoad_frame (o : MemberOutcome) :
    (s.completeLoad o).sources = s.sources ∧ (s.completeLoad o).slots = s.slots ∧
    (s.completeLoad o).stills = s.stills ∧ (s.completeLoad o).starvation = s.starvation ∧
    (s.completeLoad o).library = s.library ∧ (s.completeLoad o).screens = s.screens ∧
    (s.completeLoad o).rateA = s.rateA ∧ (s.completeLoad o).rateB = s.rateB ∧
    (s.completeLoad o).palette = s.palette ∧ (s.completeLoad o).ramp = s.ramp ∧
    (s.completeLoad o).rotations = s.rotations ∧ (s.completeLoad o).scenes = s.scenes ∧
    (s.completeLoad o).serial = s.serial ∧ (s.completeLoad o).cues = s.cues ∧
    (s.completeLoad o).runners = s.runners ∧ (s.completeLoad o).time = s.time ∧
    (s.completeLoad o).alarms = s.alarms ∧ (s.completeLoad o).triggers = s.triggers ∧
    (s.completeLoad o).served = s.served ∧ (s.completeLoad o).store = s.store ∧
    (s.completeLoad o).freeCount = s.freeCount ∧ (s.completeLoad o).pending = s.pending ∧
    (s.completeLoad o).holdings = s.holdings := by
  unfold State.completeLoad
  try dsimp only
  (repeat' split) <;> simp [modPort_holdings, modPorts_holdings]

/-- R116: the completion of a load. -/
@[simp] theorem loadCompletes_frame (c : Fin 24) (e : Fin 128) (l : Layout) :
    (s.loadCompletes c e l).sources = s.sources ∧ (s.loadCompletes c e l).slots = s.slots ∧
    (s.loadCompletes c e l).stills = s.stills ∧ (s.loadCompletes c e l).starvation = s.starvation ∧
    (s.loadCompletes c e l).library = s.library ∧ (s.loadCompletes c e l).rateA = s.rateA ∧
    (s.loadCompletes c e l).rateB = s.rateB ∧ (s.loadCompletes c e l).palette = s.palette ∧
    (s.loadCompletes c e l).ramp = s.ramp ∧ (s.loadCompletes c e l).rotations = s.rotations ∧
    (s.loadCompletes c e l).scenes = s.scenes ∧ (s.loadCompletes c e l).cues = s.cues ∧
    (s.loadCompletes c e l).time = s.time ∧ (s.loadCompletes c e l).alarms = s.alarms ∧
    (s.loadCompletes c e l).triggers = s.triggers ∧ (s.loadCompletes c e l).served = s.served ∧
    (s.loadCompletes c e l).store = s.store ∧ (s.loadCompletes c e l).pending = s.pending ∧
    (s.loadCompletes c e l).holdings = s.holdings := by
  unfold State.loadCompletes
  try dsimp only
  (repeat' split) <;> simp [modPort_holdings, modPorts_holdings]


/-! ### Screens (05) and window takes (06) -/

/-- R81: a latch moved. -/
@[simp] theorem moveLatch_frame (a b : Option (Fin 64)) :
    (s.moveLatch a b).ports = s.ports ∧ (s.moveLatch a b).sources = s.sources ∧ (s.moveLatch a b).stills = s.stills ∧
    (s.moveLatch a b).starvation = s.starvation ∧ (s.moveLatch a b).library = s.library ∧
    (s.moveLatch a b).screens = s.screens ∧ (s.moveLatch a b).rateA = s.rateA ∧ (s.moveLatch a b).rateB = s.rateB ∧
    (s.moveLatch a b).palette = s.palette ∧ (s.moveLatch a b).ramp = s.ramp ∧
    (s.moveLatch a b).rotations = s.rotations ∧ (s.moveLatch a b).scenes = s.scenes ∧
    (s.moveLatch a b).serial = s.serial ∧ (s.moveLatch a b).job = s.job ∧ (s.moveLatch a b).cues = s.cues ∧
    (s.moveLatch a b).runners = s.runners ∧ (s.moveLatch a b).time = s.time ∧ (s.moveLatch a b).alarms = s.alarms ∧
    (s.moveLatch a b).triggers = s.triggers ∧ (s.moveLatch a b).served = s.served ∧
    (s.moveLatch a b).store = s.store ∧ (s.moveLatch a b).freeCount = s.freeCount ∧
    (s.moveLatch a b).pending = s.pending ∧ (s.moveLatch a b).holdings = s.holdings := by
  unfold State.moveLatch
  try dsimp only
  (repeat' split) <;> simp [modPort_holdings, modPorts_holdings]

/-- R81: a window's latches moved. -/
@[simp] theorem moveWindow_frame (x : LiveWindow × LiveWindow) :
    (s.moveWindow x).ports = s.ports ∧ (s.moveWindow x).sources = s.sources ∧ (s.moveWindow x).stills = s.stills ∧
    (s.moveWindow x).starvation = s.starvation ∧ (s.moveWindow x).library = s.library ∧
    (s.moveWindow x).screens = s.screens ∧ (s.moveWindow x).rateA = s.rateA ∧ (s.moveWindow x).rateB = s.rateB ∧
    (s.moveWindow x).palette = s.palette ∧ (s.moveWindow x).ramp = s.ramp ∧
    (s.moveWindow x).rotations = s.rotations ∧ (s.moveWindow x).scenes = s.scenes ∧
    (s.moveWindow x).serial = s.serial ∧ (s.moveWindow x).job = s.job ∧ (s.moveWindow x).cues = s.cues ∧
    (s.moveWindow x).runners = s.runners ∧ (s.moveWindow x).time = s.time ∧ (s.moveWindow x).alarms = s.alarms ∧
    (s.moveWindow x).triggers = s.triggers ∧ (s.moveWindow x).served = s.served ∧ (s.moveWindow x).store = s.store ∧
    (s.moveWindow x).freeCount = s.freeCount ∧ (s.moveWindow x).pending = s.pending ∧
    (s.moveWindow x).holdings = s.holdings := by
  unfold State.moveWindow
  simp [modPort_holdings, modPorts_holdings]

/-- R81: the latch stage. -/
@[simp] theorem moveWindows_frame (l : List (LiveWindow × LiveWindow)) :
    (l.foldl State.moveWindow s).ports = s.ports ∧ (l.foldl State.moveWindow s).sources = s.sources ∧
    (l.foldl State.moveWindow s).stills = s.stills ∧ (l.foldl State.moveWindow s).starvation = s.starvation ∧
    (l.foldl State.moveWindow s).library = s.library ∧ (l.foldl State.moveWindow s).screens = s.screens ∧
    (l.foldl State.moveWindow s).rateA = s.rateA ∧ (l.foldl State.moveWindow s).rateB = s.rateB ∧
    (l.foldl State.moveWindow s).palette = s.palette ∧ (l.foldl State.moveWindow s).ramp = s.ramp ∧
    (l.foldl State.moveWindow s).rotations = s.rotations ∧ (l.foldl State.moveWindow s).scenes = s.scenes ∧
    (l.foldl State.moveWindow s).serial = s.serial ∧ (l.foldl State.moveWindow s).job = s.job ∧
    (l.foldl State.moveWindow s).cues = s.cues ∧ (l.foldl State.moveWindow s).runners = s.runners ∧
    (l.foldl State.moveWindow s).time = s.time ∧ (l.foldl State.moveWindow s).alarms = s.alarms ∧
    (l.foldl State.moveWindow s).triggers = s.triggers ∧ (l.foldl State.moveWindow s).served = s.served ∧
    (l.foldl State.moveWindow s).store = s.store ∧ (l.foldl State.moveWindow s).freeCount = s.freeCount ∧
    (l.foldl State.moveWindow s).pending = s.pending ∧ (l.foldl State.moveWindow s).holdings = s.holdings := by
  exact ⟨foldl_keeps State.ports _ (by intros; simp [modPort_holdings, modPorts_holdings]) _ _, foldl_keeps State.sources _ (by intros; simp [modPort_holdings, modPorts_holdings]) _ _, foldl_keeps State.stills _ (by intros; simp [modPort_holdings, modPorts_holdings]) _ _, foldl_keeps State.starvation _ (by intros; simp [modPort_holdings, modPorts_holdings]) _ _, foldl_keeps State.library _ (by intros; simp [modPort_holdings, modPorts_holdings]) _ _, foldl_keeps State.screens _ (by intros; simp [modPort_holdings, modPorts_holdings]) _ _, foldl_keeps State.rateA _ (by intros; simp [modPort_holdings, modPorts_holdings]) _ _, foldl_keeps State.rateB _ (by intros; simp [modPort_holdings, modPorts_holdings]) _ _, foldl_keeps State.palette _ (by intros; simp [modPort_holdings, modPorts_holdings]) _ _, foldl_keeps State.ramp _ (by intros; simp [modPort_holdings, modPorts_holdings]) _ _, foldl_keeps State.rotations _ (by intros; simp [modPort_holdings, modPorts_holdings]) _ _, foldl_keeps State.scenes _ (by intros; simp [modPort_holdings, modPorts_holdings]) _ _, foldl_keeps State.serial _ (by intros; simp [modPort_holdings, modPorts_holdings]) _ _, foldl_keeps State.job _ (by intros; simp [modPort_holdings, modPorts_holdings]) _ _, foldl_keeps State.cues _ (by intros; simp [modPort_holdings, modPorts_holdings]) _ _, foldl_keeps State.runners _ (by intros; simp [modPort_holdings, modPorts_holdings]) _ _, foldl_keeps State.time _ (by intros; simp [modPort_holdings, modPorts_holdings]) _ _, foldl_keeps State.alarms _ (by intros; simp [modPort_holdings, modPorts_holdings]) _ _, foldl_keeps State.triggers _ (by intros; simp [modPort_holdings, modPorts_holdings]) _ _, foldl_keeps State.served _ (by intros; simp [modPort_holdings, modPorts_holdings]) _ _, foldl_keeps State.store _ (by intros; simp [modPort_holdings, modPorts_holdings]) _ _, foldl_keeps State.freeCount _ (by intros; simp [modPort_holdings, modPorts_holdings]) _ _, foldl_keeps State.pending _ (by intros; simp [modPort_holdings, modPorts_holdings]) _ _, foldl_keeps State.holdings _ (by intros; simp [modPort_holdings, modPorts_holdings]) _ _⟩

/-- R82: a dissolve's latch. -/
@[simp] theorem releaseEnded_frame (w : LiveWindow) :
    (s.releaseEnded w).ports = s.ports ∧ (s.releaseEnded w).sources = s.sources ∧
    (s.releaseEnded w).stills = s.stills ∧ (s.releaseEnded w).starvation = s.starvation ∧
    (s.releaseEnded w).library = s.library ∧ (s.releaseEnded w).screens = s.screens ∧
    (s.releaseEnded w).rateA = s.rateA ∧ (s.releaseEnded w).rateB = s.rateB ∧
    (s.releaseEnded w).palette = s.palette ∧ (s.releaseEnded w).ramp = s.ramp ∧
    (s.releaseEnded w).rotations = s.rotations ∧ (s.releaseEnded w).scenes = s.scenes ∧
    (s.releaseEnded w).serial = s.serial ∧ (s.releaseEnded w).job = s.job ∧ (s.releaseEnded w).cues = s.cues ∧
    (s.releaseEnded w).runners = s.runners ∧ (s.releaseEnded w).time = s.time ∧
    (s.releaseEnded w).alarms = s.alarms ∧ (s.releaseEnded w).triggers = s.triggers ∧
    (s.releaseEnded w).served = s.served ∧ (s.releaseEnded w).store = s.store ∧
    (s.releaseEnded w).freeCount = s.freeCount ∧ (s.releaseEnded w).pending = s.pending ∧
    (s.releaseEnded w).holdings = s.holdings := by
  unfold State.releaseEnded
  try dsimp only
  (repeat' split) <;> simp [modPort_holdings, modPorts_holdings]

/-- R82: the latches of the dissolves that end. -/
@[simp] theorem releaseEndeds_frame (ws : List LiveWindow) :
    (ws.foldl State.releaseEnded s).ports = s.ports ∧ (ws.foldl State.releaseEnded s).sources = s.sources ∧
    (ws.foldl State.releaseEnded s).stills = s.stills ∧ (ws.foldl State.releaseEnded s).starvation = s.starvation ∧
    (ws.foldl State.releaseEnded s).library = s.library ∧ (ws.foldl State.releaseEnded s).screens = s.screens ∧
    (ws.foldl State.releaseEnded s).rateA = s.rateA ∧ (ws.foldl State.releaseEnded s).rateB = s.rateB ∧
    (ws.foldl State.releaseEnded s).palette = s.palette ∧ (ws.foldl State.releaseEnded s).ramp = s.ramp ∧
    (ws.foldl State.releaseEnded s).rotations = s.rotations ∧ (ws.foldl State.releaseEnded s).scenes = s.scenes ∧
    (ws.foldl State.releaseEnded s).serial = s.serial ∧ (ws.foldl State.releaseEnded s).job = s.job ∧
    (ws.foldl State.releaseEnded s).cues = s.cues ∧ (ws.foldl State.releaseEnded s).runners = s.runners ∧
    (ws.foldl State.releaseEnded s).time = s.time ∧ (ws.foldl State.releaseEnded s).alarms = s.alarms ∧
    (ws.foldl State.releaseEnded s).triggers = s.triggers ∧ (ws.foldl State.releaseEnded s).served = s.served ∧
    (ws.foldl State.releaseEnded s).store = s.store ∧ (ws.foldl State.releaseEnded s).freeCount = s.freeCount ∧
    (ws.foldl State.releaseEnded s).pending = s.pending ∧ (ws.foldl State.releaseEnded s).holdings = s.holdings := by
  exact ⟨foldl_keeps State.ports _ (by intros; simp [modPort_holdings, modPorts_holdings]) _ _, foldl_keeps State.sources _ (by intros; simp [modPort_holdings, modPorts_holdings]) _ _, foldl_keeps State.stills _ (by intros; simp [modPort_holdings, modPorts_holdings]) _ _, foldl_keeps State.starvation _ (by intros; simp [modPort_holdings, modPorts_holdings]) _ _, foldl_keeps State.library _ (by intros; simp [modPort_holdings, modPorts_holdings]) _ _, foldl_keeps State.screens _ (by intros; simp [modPort_holdings, modPorts_holdings]) _ _, foldl_keeps State.rateA _ (by intros; simp [modPort_holdings, modPorts_holdings]) _ _, foldl_keeps State.rateB _ (by intros; simp [modPort_holdings, modPorts_holdings]) _ _, foldl_keeps State.palette _ (by intros; simp [modPort_holdings, modPorts_holdings]) _ _, foldl_keeps State.ramp _ (by intros; simp [modPort_holdings, modPorts_holdings]) _ _, foldl_keeps State.rotations _ (by intros; simp [modPort_holdings, modPorts_holdings]) _ _, foldl_keeps State.scenes _ (by intros; simp [modPort_holdings, modPorts_holdings]) _ _, foldl_keeps State.serial _ (by intros; simp [modPort_holdings, modPorts_holdings]) _ _, foldl_keeps State.job _ (by intros; simp [modPort_holdings, modPorts_holdings]) _ _, foldl_keeps State.cues _ (by intros; simp [modPort_holdings, modPorts_holdings]) _ _, foldl_keeps State.runners _ (by intros; simp [modPort_holdings, modPorts_holdings]) _ _, foldl_keeps State.time _ (by intros; simp [modPort_holdings, modPorts_holdings]) _ _, foldl_keeps State.alarms _ (by intros; simp [modPort_holdings, modPorts_holdings]) _ _, foldl_keeps State.triggers _ (by intros; simp [modPort_holdings, modPorts_holdings]) _ _, foldl_keeps State.served _ (by intros; simp [modPort_holdings, modPorts_holdings]) _ _, foldl_keeps State.store _ (by intros; simp [modPort_holdings, modPorts_holdings]) _ _, foldl_keeps State.freeCount _ (by intros; simp [modPort_holdings, modPorts_holdings]) _ _, foldl_keeps State.pending _ (by intros; simp [modPort_holdings, modPorts_holdings]) _ _, foldl_keeps State.holdings _ (by intros; simp [modPort_holdings, modPorts_holdings]) _ _⟩

/-- R76: a swap. -/
@[simp] theorem swapContexts_frame (c : Fin 24) (x : Context) :
    (s.swapContexts c x).sources = s.sources ∧ (s.swapContexts c x).stills = s.stills ∧
    (s.swapContexts c x).starvation = s.starvation ∧ (s.swapContexts c x).library = s.library ∧
    (s.swapContexts c x).rateA = s.rateA ∧ (s.swapContexts c x).rateB = s.rateB ∧
    (s.swapContexts c x).palette = s.palette ∧ (s.swapContexts c x).ramp = s.ramp ∧
    (s.swapContexts c x).rotations = s.rotations ∧ (s.swapContexts c x).scenes = s.scenes ∧
    (s.swapContexts c x).cues = s.cues ∧ (s.swapContexts c x).time = s.time ∧
    (s.swapContexts c x).alarms = s.alarms ∧ (s.swapContexts c x).triggers = s.triggers ∧
    (s.swapContexts c x).served = s.served ∧ (s.swapContexts c x).store = s.store ∧
    (s.swapContexts c x).pending = s.pending ∧ (s.swapContexts c x).holdings = s.holdings := by
  unfold State.swapContexts
  try dsimp only
  (repeat' split) <;> simp [modPort_holdings, modPorts_holdings]

/-- R76: the swap stage. -/
@[simp] theorem swapStage_frame (c : Fin 24) :
    (s.swapStage c).sources = s.sources ∧ (s.swapStage c).stills = s.stills ∧
    (s.swapStage c).starvation = s.starvation ∧ (s.swapStage c).library = s.library ∧
    (s.swapStage c).rateA = s.rateA ∧ (s.swapStage c).rateB = s.rateB ∧ (s.swapStage c).palette = s.palette ∧
    (s.swapStage c).ramp = s.ramp ∧ (s.swapStage c).rotations = s.rotations ∧ (s.swapStage c).scenes = s.scenes ∧
    (s.swapStage c).cues = s.cues ∧ (s.swapStage c).time = s.time ∧ (s.swapStage c).alarms = s.alarms ∧
    (s.swapStage c).triggers = s.triggers ∧ (s.swapStage c).served = s.served ∧ (s.swapStage c).store = s.store ∧
    (s.swapStage c).pending = s.pending ∧ (s.swapStage c).holdings = s.holdings := by
  unfold State.swapStage
  try dsimp only
  (repeat' split) <;> simp [modPort_holdings, modPorts_holdings]

/-- R77 to R84: the stages after the swap. -/
@[simp] theorem composeStages_frame (c : Fin 24) (x : Context) :
    (s.composeStages c x).sources = s.sources ∧ (s.composeStages c x).stills = s.stills ∧
    (s.composeStages c x).starvation = s.starvation ∧ (s.composeStages c x).library = s.library ∧
    (s.composeStages c x).rateA = s.rateA ∧ (s.composeStages c x).rateB = s.rateB ∧
    (s.composeStages c x).palette = s.palette ∧ (s.composeStages c x).ramp = s.ramp ∧
    (s.composeStages c x).rotations = s.rotations ∧ (s.composeStages c x).scenes = s.scenes ∧
    (s.composeStages c x).serial = s.serial ∧ (s.composeStages c x).job = s.job ∧
    (s.composeStages c x).cues = s.cues ∧ (s.composeStages c x).runners = s.runners ∧
    (s.composeStages c x).time = s.time ∧ (s.composeStages c x).alarms = s.alarms ∧
    (s.composeStages c x).triggers = s.triggers ∧ (s.composeStages c x).served = s.served ∧
    (s.composeStages c x).store = s.store ∧ (s.composeStages c x).freeCount = s.freeCount ∧
    (s.composeStages c x).pending = s.pending ∧ (s.composeStages c x).holdings = s.holdings := by
  unfold State.composeStages
  simp [modPort_holdings, modPorts_holdings]

/-- R85: the picture emitted. -/
@[simp] theorem emitFrame_frame (c : Fin 24) :
    (s.emitFrame c).sources = s.sources ∧ (s.emitFrame c).slots = s.slots ∧ (s.emitFrame c).stills = s.stills ∧
    (s.emitFrame c).starvation = s.starvation ∧ (s.emitFrame c).library = s.library ∧
    (s.emitFrame c).rateA = s.rateA ∧ (s.emitFrame c).rateB = s.rateB ∧ (s.emitFrame c).palette = s.palette ∧
    (s.emitFrame c).ramp = s.ramp ∧ (s.emitFrame c).rotations = s.rotations ∧ (s.emitFrame c).scenes = s.scenes ∧
    (s.emitFrame c).serial = s.serial ∧ (s.emitFrame c).job = s.job ∧ (s.emitFrame c).cues = s.cues ∧
    (s.emitFrame c).runners = s.runners ∧ (s.emitFrame c).time = s.time ∧ (s.emitFrame c).alarms = s.alarms ∧
    (s.emitFrame c).triggers = s.triggers ∧ (s.emitFrame c).served = s.served ∧ (s.emitFrame c).store = s.store ∧
    (s.emitFrame c).freeCount = s.freeCount ∧ (s.emitFrame c).pending = s.pending ∧
    (s.emitFrame c).holdings = s.holdings := by
  unfold State.emitFrame
  simp [modPort_holdings, modPorts_holdings]

/-- R71: a tick. -/
@[simp] theorem takeTick_frame (c : Fin 24) :
    (s.takeTick c).sources = s.sources ∧ (s.takeTick c).stills = s.stills ∧
    (s.takeTick c).starvation = s.starvation ∧ (s.takeTick c).library = s.library ∧ (s.takeTick c).rateA = s.rateA ∧
    (s.takeTick c).rateB = s.rateB ∧ (s.takeTick c).palette = s.palette ∧ (s.takeTick c).ramp = s.ramp ∧
    (s.takeTick c).rotations = s.rotations ∧ (s.takeTick c).scenes = s.scenes ∧ (s.takeTick c).cues = s.cues ∧
    (s.takeTick c).time = s.time ∧ (s.takeTick c).alarms = s.alarms ∧ (s.takeTick c).triggers = s.triggers ∧
    (s.takeTick c).served = s.served ∧ (s.takeTick c).store = s.store ∧ (s.takeTick c).pending = s.pending ∧
    (s.takeTick c).holdings = s.holdings := by
  unfold State.takeTick
  try dsimp only
  (repeat' split) <;> simp [modPort_holdings, modPorts_holdings]

/-- R72: a cadence tick. -/
@[simp] theorem deliverTick_frame (k : Cadence) :
    (s.deliverTick k).ports = s.ports ∧ (s.deliverTick k).sources = s.sources ∧ (s.deliverTick k).slots = s.slots ∧
    (s.deliverTick k).stills = s.stills ∧ (s.deliverTick k).starvation = s.starvation ∧
    (s.deliverTick k).library = s.library ∧ (s.deliverTick k).rateA = s.rateA ∧ (s.deliverTick k).rateB = s.rateB ∧
    (s.deliverTick k).palette = s.palette ∧ (s.deliverTick k).ramp = s.ramp ∧
    (s.deliverTick k).rotations = s.rotations ∧ (s.deliverTick k).scenes = s.scenes ∧
    (s.deliverTick k).serial = s.serial ∧ (s.deliverTick k).job = s.job ∧ (s.deliverTick k).cues = s.cues ∧
    (s.deliverTick k).time = s.time ∧ (s.deliverTick k).alarms = s.alarms ∧ (s.deliverTick k).triggers = s.triggers ∧
    (s.deliverTick k).served = s.served ∧ (s.deliverTick k).store = s.store ∧
    (s.deliverTick k).freeCount = s.freeCount ∧ (s.deliverTick k).pending = s.pending ∧
    (s.deliverTick k).holdings = s.holdings := by
  unfold State.deliverTick
  simp [modPort_holdings, modPorts_holdings]

/-- R90: a screen disabled. -/
@[simp] theorem disableScreen_frame (c : Fin 24) :
    (s.disableScreen c).sources = s.sources ∧ (s.disableScreen c).stills = s.stills ∧
    (s.disableScreen c).starvation = s.starvation ∧ (s.disableScreen c).library = s.library ∧
    (s.disableScreen c).rateA = s.rateA ∧ (s.disableScreen c).rateB = s.rateB ∧
    (s.disableScreen c).palette = s.palette ∧ (s.disableScreen c).ramp = s.ramp ∧
    (s.disableScreen c).rotations = s.rotations ∧ (s.disableScreen c).scenes = s.scenes ∧
    (s.disableScreen c).cues = s.cues ∧ (s.disableScreen c).time = s.time ∧ (s.disableScreen c).alarms = s.alarms ∧
    (s.disableScreen c).triggers = s.triggers ∧ (s.disableScreen c).served = s.served ∧
    (s.disableScreen c).store = s.store ∧ (s.disableScreen c).pending = s.pending ∧
    (s.disableScreen c).holdings = s.holdings := by
  unfold State.disableScreen
  try dsimp only
  (repeat' split) <;> simp [modPort_holdings, modPorts_holdings]

/-- R92: settings taken. -/
@[simp] theorem applySettings_frame (c : Fin 24) (x : Screen) :
    (s.applySettings c x).sources = s.sources ∧ (s.applySettings c x).stills = s.stills ∧
    (s.applySettings c x).starvation = s.starvation ∧ (s.applySettings c x).library = s.library ∧
    (s.applySettings c x).rateA = s.rateA ∧ (s.applySettings c x).rateB = s.rateB ∧
    (s.applySettings c x).palette = s.palette ∧ (s.applySettings c x).ramp = s.ramp ∧
    (s.applySettings c x).rotations = s.rotations ∧ (s.applySettings c x).scenes = s.scenes ∧
    (s.applySettings c x).cues = s.cues ∧ (s.applySettings c x).time = s.time ∧
    (s.applySettings c x).alarms = s.alarms ∧ (s.applySettings c x).triggers = s.triggers ∧
    (s.applySettings c x).served = s.served ∧ (s.applySettings c x).store = s.store ∧
    (s.applySettings c x).pending = s.pending ∧ (s.applySettings c x).holdings = s.holdings := by
  unfold State.applySettings
  try dsimp only
  (repeat' split) <;> simp [modPort_holdings, modPorts_holdings]

/-- A window of an active context changed. -/
@[simp] theorem modWindow_frame (c : Fin 24) (n : Nat) (f : LiveWindow → LiveWindow) :
    (s.modWindow c n f).sources = s.sources ∧ (s.modWindow c n f).slots = s.slots ∧
    (s.modWindow c n f).stills = s.stills ∧ (s.modWindow c n f).starvation = s.starvation ∧
    (s.modWindow c n f).library = s.library ∧ (s.modWindow c n f).rateA = s.rateA ∧
    (s.modWindow c n f).rateB = s.rateB ∧ (s.modWindow c n f).palette = s.palette ∧
    (s.modWindow c n f).ramp = s.ramp ∧ (s.modWindow c n f).rotations = s.rotations ∧
    (s.modWindow c n f).scenes = s.scenes ∧ (s.modWindow c n f).serial = s.serial ∧ (s.modWindow c n f).job = s.job ∧
    (s.modWindow c n f).cues = s.cues ∧ (s.modWindow c n f).runners = s.runners ∧ (s.modWindow c n f).time = s.time ∧
    (s.modWindow c n f).alarms = s.alarms ∧ (s.modWindow c n f).triggers = s.triggers ∧
    (s.modWindow c n f).served = s.served ∧ (s.modWindow c n f).store = s.store ∧
    (s.modWindow c n f).freeCount = s.freeCount ∧ (s.modWindow c n f).pending = s.pending ∧
    (s.modWindow c n f).holdings = s.holdings := by
  unfold State.modWindow
  simp [modPort_holdings, modPorts_holdings]

/-- R88: FREEZE. -/
@[simp] theorem freezeFields_frame (f : List Nat) :
    (freezeFields f s).1.sources = s.sources ∧ (freezeFields f s).1.slots = s.slots ∧
    (freezeFields f s).1.stills = s.stills ∧ (freezeFields f s).1.starvation = s.starvation ∧
    (freezeFields f s).1.library = s.library ∧ (freezeFields f s).1.rateA = s.rateA ∧
    (freezeFields f s).1.rateB = s.rateB ∧ (freezeFields f s).1.palette = s.palette ∧
    (freezeFields f s).1.ramp = s.ramp ∧ (freezeFields f s).1.rotations = s.rotations ∧
    (freezeFields f s).1.scenes = s.scenes ∧ (freezeFields f s).1.serial = s.serial ∧
    (freezeFields f s).1.job = s.job ∧ (freezeFields f s).1.cues = s.cues ∧
    (freezeFields f s).1.runners = s.runners ∧ (freezeFields f s).1.time = s.time ∧
    (freezeFields f s).1.alarms = s.alarms ∧ (freezeFields f s).1.triggers = s.triggers ∧
    (freezeFields f s).1.served = s.served ∧ (freezeFields f s).1.store = s.store ∧
    (freezeFields f s).1.freeCount = s.freeCount ∧ (freezeFields f s).1.pending = s.pending ∧
    (freezeFields f s).1.holdings = s.holdings := by
  unfold freezeFields State.onWindow
  try dsimp only
  (repeat' split) <;> simp [modPort_holdings, modPorts_holdings]

/-- R89: SET PULSE. -/
@[simp] theorem setPulseFields_frame (f : List Nat) :
    (setPulseFields f s).1.sources = s.sources ∧ (setPulseFields f s).1.slots = s.slots ∧
    (setPulseFields f s).1.stills = s.stills ∧ (setPulseFields f s).1.starvation = s.starvation ∧
    (setPulseFields f s).1.library = s.library ∧ (setPulseFields f s).1.rateA = s.rateA ∧
    (setPulseFields f s).1.rateB = s.rateB ∧ (setPulseFields f s).1.palette = s.palette ∧
    (setPulseFields f s).1.ramp = s.ramp ∧ (setPulseFields f s).1.rotations = s.rotations ∧
    (setPulseFields f s).1.scenes = s.scenes ∧ (setPulseFields f s).1.serial = s.serial ∧
    (setPulseFields f s).1.job = s.job ∧ (setPulseFields f s).1.cues = s.cues ∧
    (setPulseFields f s).1.runners = s.runners ∧ (setPulseFields f s).1.time = s.time ∧
    (setPulseFields f s).1.alarms = s.alarms ∧ (setPulseFields f s).1.triggers = s.triggers ∧
    (setPulseFields f s).1.served = s.served ∧ (setPulseFields f s).1.store = s.store ∧
    (setPulseFields f s).1.freeCount = s.freeCount ∧ (setPulseFields f s).1.pending = s.pending ∧
    (setPulseFields f s).1.holdings = s.holdings := by
  unfold setPulseFields State.onWindow
  try dsimp only
  (repeat' split) <;> simp [modPort_holdings, modPorts_holdings]

/-- R96 to R101: a window taken. -/
@[simp] theorem takeWindow_frame (c : Fin 24) (x : Context) (w : LiveWindow) (n : Nat) (t : Transition) :
    (takeWindow c x w n t s).state.sources = s.sources ∧ (takeWindow c x w n t s).state.stills = s.stills ∧
    (takeWindow c x w n t s).state.starvation = s.starvation ∧ (takeWindow c x w n t s).state.library = s.library ∧
    (takeWindow c x w n t s).state.rateA = s.rateA ∧ (takeWindow c x w n t s).state.rateB = s.rateB ∧
    (takeWindow c x w n t s).state.palette = s.palette ∧ (takeWindow c x w n t s).state.ramp = s.ramp ∧
    (takeWindow c x w n t s).state.rotations = s.rotations ∧ (takeWindow c x w n t s).state.scenes = s.scenes ∧
    (takeWindow c x w n t s).state.serial = s.serial ∧ (takeWindow c x w n t s).state.job = s.job ∧
    (takeWindow c x w n t s).state.cues = s.cues ∧ (takeWindow c x w n t s).state.runners = s.runners ∧
    (takeWindow c x w n t s).state.time = s.time ∧ (takeWindow c x w n t s).state.alarms = s.alarms ∧
    (takeWindow c x w n t s).state.triggers = s.triggers ∧ (takeWindow c x w n t s).state.served = s.served ∧
    (takeWindow c x w n t s).state.store = s.store ∧ (takeWindow c x w n t s).state.freeCount = s.freeCount ∧
    (takeWindow c x w n t s).state.pending = s.pending ∧ (takeWindow c x w n t s).state.holdings = s.holdings := by
  unfold takeWindow
  try dsimp only
  (repeat' split) <;> simp [modPort_holdings, modPorts_holdings]

/-- R96: WINDOW TAKE. -/
@[simp] theorem windowTakeFields_frame (f : List Nat) :
    (windowTakeFields f s).1.sources = s.sources ∧ (windowTakeFields f s).1.stills = s.stills ∧
    (windowTakeFields f s).1.starvation = s.starvation ∧ (windowTakeFields f s).1.library = s.library ∧
    (windowTakeFields f s).1.rateA = s.rateA ∧ (windowTakeFields f s).1.rateB = s.rateB ∧
    (windowTakeFields f s).1.palette = s.palette ∧ (windowTakeFields f s).1.ramp = s.ramp ∧
    (windowTakeFields f s).1.rotations = s.rotations ∧ (windowTakeFields f s).1.scenes = s.scenes ∧
    (windowTakeFields f s).1.serial = s.serial ∧ (windowTakeFields f s).1.job = s.job ∧
    (windowTakeFields f s).1.cues = s.cues ∧ (windowTakeFields f s).1.runners = s.runners ∧
    (windowTakeFields f s).1.time = s.time ∧ (windowTakeFields f s).1.alarms = s.alarms ∧
    (windowTakeFields f s).1.triggers = s.triggers ∧ (windowTakeFields f s).1.served = s.served ∧
    (windowTakeFields f s).1.store = s.store ∧ (windowTakeFields f s).1.freeCount = s.freeCount ∧
    (windowTakeFields f s).1.pending = s.pending ∧ (windowTakeFields f s).1.holdings = s.holdings := by
  unfold windowTakeFields State.onWindow
  try dsimp only
  (repeat' split) <;> simp [modPort_holdings, modPorts_holdings]

/-- R107: ROTATE. -/
@[simp] theorem rotateFields_frame (f : List Nat) :
    (rotateFields f s).1.sources = s.sources ∧ (rotateFields f s).1.stills = s.stills ∧
    (rotateFields f s).1.starvation = s.starvation ∧ (rotateFields f s).1.library = s.library ∧
    (rotateFields f s).1.rateA = s.rateA ∧ (rotateFields f s).1.rateB = s.rateB ∧
    (rotateFields f s).1.palette = s.palette ∧ (rotateFields f s).1.ramp = s.ramp ∧
    (rotateFields f s).1.scenes = s.scenes ∧ (rotateFields f s).1.serial = s.serial ∧
    (rotateFields f s).1.job = s.job ∧ (rotateFields f s).1.cues = s.cues ∧
    (rotateFields f s).1.runners = s.runners ∧ (rotateFields f s).1.time = s.time ∧
    (rotateFields f s).1.alarms = s.alarms ∧ (rotateFields f s).1.triggers = s.triggers ∧
    (rotateFields f s).1.served = s.served ∧ (rotateFields f s).1.store = s.store ∧
    (rotateFields f s).1.freeCount = s.freeCount ∧ (rotateFields f s).1.pending = s.pending ∧
    (rotateFields f s).1.holdings = s.holdings := by
  unfold rotateFields State.onWindow
  try dsimp only
  (repeat' split) <;> simp [modPort_holdings, modPorts_holdings]


/-! ### Execution and the ends of waits (08) -/

/-- R136: a runner moved. -/
@[simp] theorem moveRunner_frame (r : Fin 4) (a : Nat) (l : List Nat) :
    (s.moveRunner r a l).sources = s.sources ∧ (s.moveRunner r a l).slots = s.slots ∧
    (s.moveRunner r a l).stills = s.stills ∧ (s.moveRunner r a l).starvation = s.starvation ∧
    (s.moveRunner r a l).library = s.library ∧ (s.moveRunner r a l).screens = s.screens ∧
    (s.moveRunner r a l).rateA = s.rateA ∧ (s.moveRunner r a l).rateB = s.rateB ∧
    (s.moveRunner r a l).palette = s.palette ∧ (s.moveRunner r a l).ramp = s.ramp ∧
    (s.moveRunner r a l).rotations = s.rotations ∧ (s.moveRunner r a l).scenes = s.scenes ∧
    (s.moveRunner r a l).serial = s.serial ∧ (s.moveRunner r a l).job = s.job ∧ (s.moveRunner r a l).cues = s.cues ∧
    (s.moveRunner r a l).time = s.time ∧ (s.moveRunner r a l).alarms = s.alarms ∧
    (s.moveRunner r a l).triggers = s.triggers ∧ (s.moveRunner r a l).served = s.served ∧
    (s.moveRunner r a l).store = s.store ∧ (s.moveRunner r a l).freeCount = s.freeCount ∧
    (s.moveRunner r a l).pending = s.pending ∧ (s.moveRunner r a l).holdings = s.holdings := by
  unfold State.moveRunner
  simp [modPort_holdings, modPorts_holdings]

/-- R137: HALT. -/
@[simp] theorem haltRunner_frame (r : Fin 4) :
    (s.haltRunner r).sources = s.sources ∧ (s.haltRunner r).slots = s.slots ∧ (s.haltRunner r).stills = s.stills ∧
    (s.haltRunner r).starvation = s.starvation ∧ (s.haltRunner r).library = s.library ∧
    (s.haltRunner r).screens = s.screens ∧ (s.haltRunner r).rateA = s.rateA ∧ (s.haltRunner r).rateB = s.rateB ∧
    (s.haltRunner r).palette = s.palette ∧ (s.haltRunner r).ramp = s.ramp ∧
    (s.haltRunner r).rotations = s.rotations ∧ (s.haltRunner r).scenes = s.scenes ∧
    (s.haltRunner r).serial = s.serial ∧ (s.haltRunner r).job = s.job ∧ (s.haltRunner r).cues = s.cues ∧
    (s.haltRunner r).time = s.time ∧ (s.haltRunner r).alarms = s.alarms ∧ (s.haltRunner r).triggers = s.triggers ∧
    (s.haltRunner r).served = s.served ∧ (s.haltRunner r).store = s.store ∧
    (s.haltRunner r).freeCount = s.freeCount ∧ (s.haltRunner r).pending = s.pending ∧
    (s.haltRunner r).holdings = s.holdings := by
  unfold State.haltRunner
  simp [modPort_holdings, modPorts_holdings]

/-- R144: STOP CUE. -/
@[simp] theorem stopRunner_frame (r : Fin 4) :
    (s.stopRunner r).sources = s.sources ∧ (s.stopRunner r).slots = s.slots ∧ (s.stopRunner r).stills = s.stills ∧
    (s.stopRunner r).starvation = s.starvation ∧ (s.stopRunner r).library = s.library ∧
    (s.stopRunner r).screens = s.screens ∧ (s.stopRunner r).rateA = s.rateA ∧ (s.stopRunner r).rateB = s.rateB ∧
    (s.stopRunner r).palette = s.palette ∧ (s.stopRunner r).ramp = s.ramp ∧
    (s.stopRunner r).rotations = s.rotations ∧ (s.stopRunner r).scenes = s.scenes ∧
    (s.stopRunner r).serial = s.serial ∧ (s.stopRunner r).job = s.job ∧ (s.stopRunner r).cues = s.cues ∧
    (s.stopRunner r).time = s.time ∧ (s.stopRunner r).alarms = s.alarms ∧ (s.stopRunner r).triggers = s.triggers ∧
    (s.stopRunner r).served = s.served ∧ (s.stopRunner r).store = s.store ∧
    (s.stopRunner r).freeCount = s.freeCount ∧ (s.stopRunner r).pending = s.pending ∧
    (s.stopRunner r).holdings = s.holdings := by
  unfold State.stopRunner
  simp [modPort_holdings, modPorts_holdings]

/-- R145: RESUME CUE. -/
@[simp] theorem resumeRunner_frame (r : Fin 4) (b : Bool) :
    (s.resumeRunner r b).sources = s.sources ∧ (s.resumeRunner r b).slots = s.slots ∧
    (s.resumeRunner r b).stills = s.stills ∧ (s.resumeRunner r b).starvation = s.starvation ∧
    (s.resumeRunner r b).library = s.library ∧ (s.resumeRunner r b).screens = s.screens ∧
    (s.resumeRunner r b).rateA = s.rateA ∧ (s.resumeRunner r b).rateB = s.rateB ∧
    (s.resumeRunner r b).palette = s.palette ∧ (s.resumeRunner r b).ramp = s.ramp ∧
    (s.resumeRunner r b).rotations = s.rotations ∧ (s.resumeRunner r b).scenes = s.scenes ∧
    (s.resumeRunner r b).serial = s.serial ∧ (s.resumeRunner r b).job = s.job ∧ (s.resumeRunner r b).cues = s.cues ∧
    (s.resumeRunner r b).time = s.time ∧ (s.resumeRunner r b).alarms = s.alarms ∧
    (s.resumeRunner r b).triggers = s.triggers ∧ (s.resumeRunner r b).served = s.served ∧
    (s.resumeRunner r b).store = s.store ∧ (s.resumeRunner r b).freeCount = s.freeCount ∧
    (s.resumeRunner r b).pending = s.pending ∧ (s.resumeRunner r b).holdings = s.holdings := by
  unfold State.resumeRunner
  simp [modPort_holdings, modPorts_holdings]

/-- R137: RETURN. -/
@[simp] theorem returnFrom_frame (r : Fin 4) :
    (s.returnFrom r).sources = s.sources ∧ (s.returnFrom r).slots = s.slots ∧ (s.returnFrom r).stills = s.stills ∧
    (s.returnFrom r).starvation = s.starvation ∧ (s.returnFrom r).library = s.library ∧
    (s.returnFrom r).screens = s.screens ∧ (s.returnFrom r).rateA = s.rateA ∧ (s.returnFrom r).rateB = s.rateB ∧
    (s.returnFrom r).palette = s.palette ∧ (s.returnFrom r).ramp = s.ramp ∧
    (s.returnFrom r).rotations = s.rotations ∧ (s.returnFrom r).scenes = s.scenes ∧
    (s.returnFrom r).serial = s.serial ∧ (s.returnFrom r).job = s.job ∧ (s.returnFrom r).cues = s.cues ∧
    (s.returnFrom r).time = s.time ∧ (s.returnFrom r).alarms = s.alarms ∧ (s.returnFrom r).triggers = s.triggers ∧
    (s.returnFrom r).served = s.served ∧ (s.returnFrom r).store = s.store ∧ (s.returnFrom r).pending = s.pending ∧
    (s.returnFrom r).holdings = s.holdings := by
  unfold State.returnFrom
  try dsimp only
  (repeat' split) <;> simp [modPort_holdings, modPorts_holdings]

/-- R133: a count ends. -/
@[simp] theorem countEnds_frame (r : Fin 4) :
    (s.countEnds r).sources = s.sources ∧ (s.countEnds r).slots = s.slots ∧ (s.countEnds r).stills = s.stills ∧
    (s.countEnds r).starvation = s.starvation ∧ (s.countEnds r).library = s.library ∧
    (s.countEnds r).screens = s.screens ∧ (s.countEnds r).rateA = s.rateA ∧ (s.countEnds r).rateB = s.rateB ∧
    (s.countEnds r).palette = s.palette ∧ (s.countEnds r).ramp = s.ramp ∧ (s.countEnds r).rotations = s.rotations ∧
    (s.countEnds r).scenes = s.scenes ∧ (s.countEnds r).serial = s.serial ∧ (s.countEnds r).job = s.job ∧
    (s.countEnds r).cues = s.cues ∧ (s.countEnds r).time = s.time ∧ (s.countEnds r).alarms = s.alarms ∧
    (s.countEnds r).triggers = s.triggers ∧ (s.countEnds r).served = s.served ∧ (s.countEnds r).store = s.store ∧
    (s.countEnds r).freeCount = s.freeCount ∧ (s.countEnds r).pending = s.pending ∧
    (s.countEnds r).holdings = s.holdings := by
  unfold State.countEnds
  try dsimp only
  (repeat' split) <;> simp [modPort_holdings, modPorts_holdings]

/-- R135: a timer expires. -/
@[simp] theorem timerExpires_frame (r : Fin 4) :
    (s.timerExpires r).sources = s.sources ∧ (s.timerExpires r).slots = s.slots ∧
    (s.timerExpires r).stills = s.stills ∧ (s.timerExpires r).starvation = s.starvation ∧
    (s.timerExpires r).library = s.library ∧ (s.timerExpires r).screens = s.screens ∧
    (s.timerExpires r).rateA = s.rateA ∧ (s.timerExpires r).rateB = s.rateB ∧
    (s.timerExpires r).palette = s.palette ∧ (s.timerExpires r).ramp = s.ramp ∧
    (s.timerExpires r).rotations = s.rotations ∧ (s.timerExpires r).scenes = s.scenes ∧
    (s.timerExpires r).serial = s.serial ∧ (s.timerExpires r).job = s.job ∧ (s.timerExpires r).cues = s.cues ∧
    (s.timerExpires r).time = s.time ∧ (s.timerExpires r).alarms = s.alarms ∧
    (s.timerExpires r).triggers = s.triggers ∧ (s.timerExpires r).served = s.served ∧
    (s.timerExpires r).store = s.store ∧ (s.timerExpires r).pending = s.pending ∧
    (s.timerExpires r).holdings = s.holdings := by
  unfold State.timerExpires
  try dsimp only
  (repeat' split) <;> simp [modPort_holdings, modPorts_holdings]

/-- R132: a result taken. -/
@[simp] theorem resultTaken_frame (r : Fin 4) :
    (s.resultTaken r).sources = s.sources ∧ (s.resultTaken r).slots = s.slots ∧ (s.resultTaken r).stills = s.stills ∧
    (s.resultTaken r).starvation = s.starvation ∧ (s.resultTaken r).library = s.library ∧
    (s.resultTaken r).screens = s.screens ∧ (s.resultTaken r).rateA = s.rateA ∧ (s.resultTaken r).rateB = s.rateB ∧
    (s.resultTaken r).palette = s.palette ∧ (s.resultTaken r).ramp = s.ramp ∧
    (s.resultTaken r).rotations = s.rotations ∧ (s.resultTaken r).scenes = s.scenes ∧
    (s.resultTaken r).serial = s.serial ∧ (s.resultTaken r).job = s.job ∧ (s.resultTaken r).cues = s.cues ∧
    (s.resultTaken r).time = s.time ∧ (s.resultTaken r).alarms = s.alarms ∧ (s.resultTaken r).triggers = s.triggers ∧
    (s.resultTaken r).served = s.served ∧ (s.resultTaken r).store = s.store ∧ (s.resultTaken r).pending = s.pending ∧
    (s.resultTaken r).holdings = s.holdings := by
  unfold State.resultTaken
  try dsimp only
  (repeat' split) <;> simp [modPort_holdings, modPorts_holdings]


/-! ### The second tick (09) -/

/-- R151: one alarm. -/
@[simp] theorem alarmMeets_frame (n : Fin 16) :
    (s.alarmMeets n).sources = s.sources ∧ (s.alarmMeets n).slots = s.slots ∧ (s.alarmMeets n).stills = s.stills ∧
    (s.alarmMeets n).starvation = s.starvation ∧ (s.alarmMeets n).library = s.library ∧
    (s.alarmMeets n).screens = s.screens ∧ (s.alarmMeets n).rateA = s.rateA ∧ (s.alarmMeets n).rateB = s.rateB ∧
    (s.alarmMeets n).palette = s.palette ∧ (s.alarmMeets n).ramp = s.ramp ∧
    (s.alarmMeets n).rotations = s.rotations ∧ (s.alarmMeets n).scenes = s.scenes ∧
    (s.alarmMeets n).serial = s.serial ∧ (s.alarmMeets n).job = s.job ∧ (s.alarmMeets n).cues = s.cues ∧
    (s.alarmMeets n).time = s.time ∧ (s.alarmMeets n).triggers = s.triggers ∧ (s.alarmMeets n).served = s.served ∧
    (s.alarmMeets n).store = s.store ∧ (s.alarmMeets n).freeCount = s.freeCount ∧
    (s.alarmMeets n).pending = s.pending ∧ (s.alarmMeets n).holdings = s.holdings := by
  unfold State.alarmMeets
  try dsimp only
  (repeat' split) <;> simp [modPort_holdings, modPorts_holdings]

/-- R151: the alarms. -/
@[simp] theorem matchAlarms_frame :
    s.matchAlarms.sources = s.sources ∧ s.matchAlarms.slots = s.slots ∧ s.matchAlarms.stills = s.stills ∧
    s.matchAlarms.starvation = s.starvation ∧ s.matchAlarms.library = s.library ∧ s.matchAlarms.screens = s.screens ∧
    s.matchAlarms.rateA = s.rateA ∧ s.matchAlarms.rateB = s.rateB ∧ s.matchAlarms.palette = s.palette ∧
    s.matchAlarms.ramp = s.ramp ∧ s.matchAlarms.rotations = s.rotations ∧ s.matchAlarms.scenes = s.scenes ∧
    s.matchAlarms.serial = s.serial ∧ s.matchAlarms.job = s.job ∧ s.matchAlarms.cues = s.cues ∧
    s.matchAlarms.time = s.time ∧ s.matchAlarms.triggers = s.triggers ∧ s.matchAlarms.served = s.served ∧
    s.matchAlarms.store = s.store ∧ s.matchAlarms.freeCount = s.freeCount ∧ s.matchAlarms.pending = s.pending ∧
    s.matchAlarms.holdings = s.holdings := by
  unfold State.matchAlarms
  split
  · exact ⟨foldl_keeps State.sources _ (by intros; simp [modPort_holdings, modPorts_holdings]) _ _, foldl_keeps State.slots _ (by intros; simp [modPort_holdings, modPorts_holdings]) _ _, foldl_keeps State.stills _ (by intros; simp [modPort_holdings, modPorts_holdings]) _ _, foldl_keeps State.starvation _ (by intros; simp [modPort_holdings, modPorts_holdings]) _ _, foldl_keeps State.library _ (by intros; simp [modPort_holdings, modPorts_holdings]) _ _, foldl_keeps State.screens _ (by intros; simp [modPort_holdings, modPorts_holdings]) _ _, foldl_keeps State.rateA _ (by intros; simp [modPort_holdings, modPorts_holdings]) _ _, foldl_keeps State.rateB _ (by intros; simp [modPort_holdings, modPorts_holdings]) _ _, foldl_keeps State.palette _ (by intros; simp [modPort_holdings, modPorts_holdings]) _ _, foldl_keeps State.ramp _ (by intros; simp [modPort_holdings, modPorts_holdings]) _ _, foldl_keeps State.rotations _ (by intros; simp [modPort_holdings, modPorts_holdings]) _ _, foldl_keeps State.scenes _ (by intros; simp [modPort_holdings, modPorts_holdings]) _ _, foldl_keeps State.serial _ (by intros; simp [modPort_holdings, modPorts_holdings]) _ _, foldl_keeps State.job _ (by intros; simp [modPort_holdings, modPorts_holdings]) _ _, foldl_keeps State.cues _ (by intros; simp [modPort_holdings, modPorts_holdings]) _ _, foldl_keeps State.time _ (by intros; simp [modPort_holdings, modPorts_holdings]) _ _, foldl_keeps State.triggers _ (by intros; simp [modPort_holdings, modPorts_holdings]) _ _, foldl_keeps State.served _ (by intros; simp [modPort_holdings, modPorts_holdings]) _ _, foldl_keeps State.store _ (by intros; simp [modPort_holdings, modPorts_holdings]) _ _, foldl_keeps State.freeCount _ (by intros; simp [modPort_holdings, modPorts_holdings]) _ _, foldl_keeps State.pending _ (by intros; simp [modPort_holdings, modPorts_holdings]) _ _, foldl_keeps State.holdings _ (by intros; simp [modPort_holdings, modPorts_holdings]) _ _⟩
  · simp [modPort_holdings, modPorts_holdings]

/-- R134: one runner's target. -/
@[simp] theorem timeMeets_frame (r : Fin 4) :
    (s.timeMeets r).sources = s.sources ∧ (s.timeMeets r).slots = s.slots ∧ (s.timeMeets r).stills = s.stills ∧
    (s.timeMeets r).starvation = s.starvation ∧ (s.timeMeets r).library = s.library ∧
    (s.timeMeets r).screens = s.screens ∧ (s.timeMeets r).rateA = s.rateA ∧ (s.timeMeets r).rateB = s.rateB ∧
    (s.timeMeets r).palette = s.palette ∧ (s.timeMeets r).ramp = s.ramp ∧ (s.timeMeets r).rotations = s.rotations ∧
    (s.timeMeets r).scenes = s.scenes ∧ (s.timeMeets r).serial = s.serial ∧ (s.timeMeets r).job = s.job ∧
    (s.timeMeets r).cues = s.cues ∧ (s.timeMeets r).time = s.time ∧ (s.timeMeets r).alarms = s.alarms ∧
    (s.timeMeets r).triggers = s.triggers ∧ (s.timeMeets r).served = s.served ∧ (s.timeMeets r).store = s.store ∧
    (s.timeMeets r).freeCount = s.freeCount ∧ (s.timeMeets r).pending = s.pending ∧
    (s.timeMeets r).holdings = s.holdings := by
  unfold State.timeMeets
  try dsimp only
  (repeat' split) <;> simp [modPort_holdings, modPorts_holdings]

/-- R134: the runners' targets. -/
@[simp] theorem timesMeet_frame (l : List (Fin 4)) :
    (l.foldl State.timeMeets s).sources = s.sources ∧ (l.foldl State.timeMeets s).slots = s.slots ∧
    (l.foldl State.timeMeets s).stills = s.stills ∧ (l.foldl State.timeMeets s).starvation = s.starvation ∧
    (l.foldl State.timeMeets s).library = s.library ∧ (l.foldl State.timeMeets s).screens = s.screens ∧
    (l.foldl State.timeMeets s).rateA = s.rateA ∧ (l.foldl State.timeMeets s).rateB = s.rateB ∧
    (l.foldl State.timeMeets s).palette = s.palette ∧ (l.foldl State.timeMeets s).ramp = s.ramp ∧
    (l.foldl State.timeMeets s).rotations = s.rotations ∧ (l.foldl State.timeMeets s).scenes = s.scenes ∧
    (l.foldl State.timeMeets s).serial = s.serial ∧ (l.foldl State.timeMeets s).job = s.job ∧
    (l.foldl State.timeMeets s).cues = s.cues ∧ (l.foldl State.timeMeets s).time = s.time ∧
    (l.foldl State.timeMeets s).alarms = s.alarms ∧ (l.foldl State.timeMeets s).triggers = s.triggers ∧
    (l.foldl State.timeMeets s).served = s.served ∧ (l.foldl State.timeMeets s).store = s.store ∧
    (l.foldl State.timeMeets s).freeCount = s.freeCount ∧ (l.foldl State.timeMeets s).pending = s.pending ∧
    (l.foldl State.timeMeets s).holdings = s.holdings := by
  exact ⟨foldl_keeps State.sources _ (by intros; simp [modPort_holdings, modPorts_holdings]) _ _, foldl_keeps State.slots _ (by intros; simp [modPort_holdings, modPorts_holdings]) _ _, foldl_keeps State.stills _ (by intros; simp [modPort_holdings, modPorts_holdings]) _ _, foldl_keeps State.starvation _ (by intros; simp [modPort_holdings, modPorts_holdings]) _ _, foldl_keeps State.library _ (by intros; simp [modPort_holdings, modPorts_holdings]) _ _, foldl_keeps State.screens _ (by intros; simp [modPort_holdings, modPorts_holdings]) _ _, foldl_keeps State.rateA _ (by intros; simp [modPort_holdings, modPorts_holdings]) _ _, foldl_keeps State.rateB _ (by intros; simp [modPort_holdings, modPorts_holdings]) _ _, foldl_keeps State.palette _ (by intros; simp [modPort_holdings, modPorts_holdings]) _ _, foldl_keeps State.ramp _ (by intros; simp [modPort_holdings, modPorts_holdings]) _ _, foldl_keeps State.rotations _ (by intros; simp [modPort_holdings, modPorts_holdings]) _ _, foldl_keeps State.scenes _ (by intros; simp [modPort_holdings, modPorts_holdings]) _ _, foldl_keeps State.serial _ (by intros; simp [modPort_holdings, modPorts_holdings]) _ _, foldl_keeps State.job _ (by intros; simp [modPort_holdings, modPorts_holdings]) _ _, foldl_keeps State.cues _ (by intros; simp [modPort_holdings, modPorts_holdings]) _ _, foldl_keeps State.time _ (by intros; simp [modPort_holdings, modPorts_holdings]) _ _, foldl_keeps State.alarms _ (by intros; simp [modPort_holdings, modPorts_holdings]) _ _, foldl_keeps State.triggers _ (by intros; simp [modPort_holdings, modPorts_holdings]) _ _, foldl_keeps State.served _ (by intros; simp [modPort_holdings, modPorts_holdings]) _ _, foldl_keeps State.store _ (by intros; simp [modPort_holdings, modPorts_holdings]) _ _, foldl_keeps State.freeCount _ (by intros; simp [modPort_holdings, modPorts_holdings]) _ _, foldl_keeps State.pending _ (by intros; simp [modPort_holdings, modPorts_holdings]) _ _, foldl_keeps State.holdings _ (by intros; simp [modPort_holdings, modPorts_holdings]) _ _⟩

/-- R49: drops move. -/
@[simp] theorem moveDrops_frame :
    s.moveDrops.ports = s.ports ∧ s.moveDrops.sources = s.sources ∧ s.moveDrops.slots = s.slots ∧
    s.moveDrops.stills = s.stills ∧ s.moveDrops.library = s.library ∧ s.moveDrops.screens = s.screens ∧
    s.moveDrops.rateA = s.rateA ∧ s.moveDrops.rateB = s.rateB ∧ s.moveDrops.palette = s.palette ∧
    s.moveDrops.ramp = s.ramp ∧ s.moveDrops.rotations = s.rotations ∧ s.moveDrops.scenes = s.scenes ∧
    s.moveDrops.serial = s.serial ∧ s.moveDrops.job = s.job ∧ s.moveDrops.cues = s.cues ∧
    s.moveDrops.runners = s.runners ∧ s.moveDrops.time = s.time ∧ s.moveDrops.alarms = s.alarms ∧
    s.moveDrops.triggers = s.triggers ∧ s.moveDrops.served = s.served ∧ s.moveDrops.store = s.store ∧
    s.moveDrops.freeCount = s.freeCount ∧ s.moveDrops.pending = s.pending ∧ s.moveDrops.holdings = s.holdings := by
  unfold State.moveDrops
  simp [modPort_holdings, modPorts_holdings]

/-- R148: a second tick. -/
@[simp] theorem secondTick_frame :
    s.secondTick.sources = s.sources ∧ s.secondTick.slots = s.slots ∧ s.secondTick.stills = s.stills ∧
    s.secondTick.library = s.library ∧ s.secondTick.screens = s.screens ∧ s.secondTick.rateA = s.rateA ∧
    s.secondTick.rateB = s.rateB ∧ s.secondTick.palette = s.palette ∧ s.secondTick.ramp = s.ramp ∧
    s.secondTick.rotations = s.rotations ∧ s.secondTick.scenes = s.scenes ∧ s.secondTick.serial = s.serial ∧
    s.secondTick.job = s.job ∧ s.secondTick.cues = s.cues ∧ s.secondTick.triggers = s.triggers ∧
    s.secondTick.served = s.served ∧ s.secondTick.store = s.store ∧ s.secondTick.freeCount = s.freeCount ∧
    s.secondTick.pending = s.pending ∧ s.secondTick.holdings = s.holdings := by
  unfold State.secondTick
  simp [modPort_holdings, modPorts_holdings]


/-! ### The store (11) -/

/-- R174: a save abandoned. -/
@[simp] theorem abandonSave_frame :
    s.abandonSave.ports = s.ports ∧ s.abandonSave.sources = s.sources ∧ s.abandonSave.slots = s.slots ∧
    s.abandonSave.stills = s.stills ∧ s.abandonSave.starvation = s.starvation ∧ s.abandonSave.library = s.library ∧
    s.abandonSave.screens = s.screens ∧ s.abandonSave.rateA = s.rateA ∧ s.abandonSave.rateB = s.rateB ∧
    s.abandonSave.palette = s.palette ∧ s.abandonSave.ramp = s.ramp ∧ s.abandonSave.rotations = s.rotations ∧
    s.abandonSave.scenes = s.scenes ∧ s.abandonSave.serial = s.serial ∧ s.abandonSave.job = s.job ∧
    s.abandonSave.cues = s.cues ∧ s.abandonSave.runners = s.runners ∧ s.abandonSave.time = s.time ∧
    s.abandonSave.alarms = s.alarms ∧ s.abandonSave.triggers = s.triggers ∧ s.abandonSave.served = s.served ∧
    s.abandonSave.pending = s.pending ∧ s.abandonSave.holdings = s.holdings := by
  unfold State.abandonSave
  try dsimp only
  (repeat' split) <;> simp [modPort_holdings, modPorts_holdings]

/-- R173: a stage of a save. -/
@[simp] theorem eraseCompletes_frame :
    s.eraseCompletes.ports = s.ports ∧ s.eraseCompletes.sources = s.sources ∧ s.eraseCompletes.slots = s.slots ∧
    s.eraseCompletes.stills = s.stills ∧ s.eraseCompletes.starvation = s.starvation ∧
    s.eraseCompletes.library = s.library ∧ s.eraseCompletes.screens = s.screens ∧ s.eraseCompletes.rateA = s.rateA ∧
    s.eraseCompletes.rateB = s.rateB ∧ s.eraseCompletes.palette = s.palette ∧ s.eraseCompletes.ramp = s.ramp ∧
    s.eraseCompletes.rotations = s.rotations ∧ s.eraseCompletes.scenes = s.scenes ∧
    s.eraseCompletes.serial = s.serial ∧ s.eraseCompletes.job = s.job ∧ s.eraseCompletes.cues = s.cues ∧
    s.eraseCompletes.runners = s.runners ∧ s.eraseCompletes.time = s.time ∧ s.eraseCompletes.alarms = s.alarms ∧
    s.eraseCompletes.triggers = s.triggers ∧ s.eraseCompletes.served = s.served ∧
    s.eraseCompletes.freeCount = s.freeCount ∧ s.eraseCompletes.pending = s.pending ∧
    s.eraseCompletes.holdings = s.holdings := by
  unfold State.eraseCompletes
  try dsimp only
  (repeat' split) <;> simp [modPort_holdings, modPorts_holdings]

/-- R173: a stage of a save. -/
@[simp] theorem programCompletes_frame :
    s.programCompletes.ports = s.ports ∧ s.programCompletes.sources = s.sources ∧
    s.programCompletes.slots = s.slots ∧ s.programCompletes.stills = s.stills ∧
    s.programCompletes.starvation = s.starvation ∧ s.programCompletes.library = s.library ∧
    s.programCompletes.screens = s.screens ∧ s.programCompletes.rateA = s.rateA ∧
    s.programCompletes.rateB = s.rateB ∧ s.programCompletes.palette = s.palette ∧ s.programCompletes.ramp = s.ramp ∧
    s.programCompletes.rotations = s.rotations ∧ s.programCompletes.scenes = s.scenes ∧
    s.programCompletes.serial = s.serial ∧ s.programCompletes.job = s.job ∧ s.programCompletes.cues = s.cues ∧
    s.programCompletes.runners = s.runners ∧ s.programCompletes.time = s.time ∧
    s.programCompletes.alarms = s.alarms ∧ s.programCompletes.triggers = s.triggers ∧
    s.programCompletes.served = s.served ∧ s.programCompletes.freeCount = s.freeCount ∧
    s.programCompletes.pending = s.pending ∧ s.programCompletes.holdings = s.holdings := by
  unfold State.programCompletes
  try dsimp only
  (repeat' split) <;> simp [modPort_holdings, modPorts_holdings]

/-- R173: the read-back. -/
@[simp] theorem readBackCompletes_frame (l : List Host.Cell) :
    (s.readBackCompletes l).ports = s.ports ∧ (s.readBackCompletes l).sources = s.sources ∧
    (s.readBackCompletes l).slots = s.slots ∧ (s.readBackCompletes l).stills = s.stills ∧
    (s.readBackCompletes l).starvation = s.starvation ∧ (s.readBackCompletes l).library = s.library ∧
    (s.readBackCompletes l).screens = s.screens ∧ (s.readBackCompletes l).rateA = s.rateA ∧
    (s.readBackCompletes l).rateB = s.rateB ∧ (s.readBackCompletes l).palette = s.palette ∧
    (s.readBackCompletes l).ramp = s.ramp ∧ (s.readBackCompletes l).rotations = s.rotations ∧
    (s.readBackCompletes l).scenes = s.scenes ∧ (s.readBackCompletes l).serial = s.serial ∧
    (s.readBackCompletes l).job = s.job ∧ (s.readBackCompletes l).cues = s.cues ∧
    (s.readBackCompletes l).runners = s.runners ∧ (s.readBackCompletes l).time = s.time ∧
    (s.readBackCompletes l).alarms = s.alarms ∧ (s.readBackCompletes l).triggers = s.triggers ∧
    (s.readBackCompletes l).served = s.served ∧ (s.readBackCompletes l).freeCount = s.freeCount ∧
    (s.readBackCompletes l).pending = s.pending ∧ (s.readBackCompletes l).holdings = s.holdings := by
  unfold State.readBackCompletes
  try dsimp only
  (repeat' split) <;> simp [modPort_holdings, modPorts_holdings]

/-- R173: a save with NO ANSWER. -/
@[simp] theorem saveUnanswered_frame :
    s.saveUnanswered.ports = s.ports ∧ s.saveUnanswered.sources = s.sources ∧ s.saveUnanswered.slots = s.slots ∧
    s.saveUnanswered.stills = s.stills ∧ s.saveUnanswered.starvation = s.starvation ∧
    s.saveUnanswered.library = s.library ∧ s.saveUnanswered.screens = s.screens ∧ s.saveUnanswered.rateA = s.rateA ∧
    s.saveUnanswered.rateB = s.rateB ∧ s.saveUnanswered.palette = s.palette ∧ s.saveUnanswered.ramp = s.ramp ∧
    s.saveUnanswered.rotations = s.rotations ∧ s.saveUnanswered.scenes = s.scenes ∧
    s.saveUnanswered.serial = s.serial ∧ s.saveUnanswered.job = s.job ∧ s.saveUnanswered.cues = s.cues ∧
    s.saveUnanswered.runners = s.runners ∧ s.saveUnanswered.time = s.time ∧ s.saveUnanswered.alarms = s.alarms ∧
    s.saveUnanswered.triggers = s.triggers ∧ s.saveUnanswered.served = s.served ∧
    s.saveUnanswered.freeCount = s.freeCount ∧ s.saveUnanswered.pending = s.pending ∧
    s.saveUnanswered.holdings = s.holdings := by
  unfold State.saveUnanswered
  simp [modPort_holdings, modPorts_holdings]

/-- R173, R175: no answer. -/
@[simp] theorem flashUnanswered_frame :
    s.flashUnanswered.ports = s.ports ∧ s.flashUnanswered.sources = s.sources ∧ s.flashUnanswered.slots = s.slots ∧
    s.flashUnanswered.stills = s.stills ∧ s.flashUnanswered.starvation = s.starvation ∧
    s.flashUnanswered.library = s.library ∧ s.flashUnanswered.screens = s.screens ∧
    s.flashUnanswered.rateA = s.rateA ∧ s.flashUnanswered.rateB = s.rateB ∧ s.flashUnanswered.palette = s.palette ∧
    s.flashUnanswered.ramp = s.ramp ∧ s.flashUnanswered.rotations = s.rotations ∧
    s.flashUnanswered.scenes = s.scenes ∧ s.flashUnanswered.serial = s.serial ∧ s.flashUnanswered.job = s.job ∧
    s.flashUnanswered.cues = s.cues ∧ s.flashUnanswered.runners = s.runners ∧ s.flashUnanswered.time = s.time ∧
    s.flashUnanswered.alarms = s.alarms ∧ s.flashUnanswered.triggers = s.triggers ∧
    s.flashUnanswered.served = s.served ∧ s.flashUnanswered.pending = s.pending ∧
    s.flashUnanswered.holdings = s.holdings := by
  unfold State.flashUnanswered
  try dsimp only
  (repeat' split) <;> simp [modPort_holdings, modPorts_holdings]

/-- R176 step 3. -/
@[simp] theorem startSource_frame (i : Fin 16) :
    (s.startSource i).slots = s.slots ∧ (s.startSource i).stills = s.stills ∧
    (s.startSource i).starvation = s.starvation ∧ (s.startSource i).library = s.library ∧
    (s.startSource i).screens = s.screens ∧ (s.startSource i).rateA = s.rateA ∧ (s.startSource i).rateB = s.rateB ∧
    (s.startSource i).palette = s.palette ∧ (s.startSource i).ramp = s.ramp ∧
    (s.startSource i).rotations = s.rotations ∧ (s.startSource i).scenes = s.scenes ∧
    (s.startSource i).serial = s.serial ∧ (s.startSource i).job = s.job ∧ (s.startSource i).cues = s.cues ∧
    (s.startSource i).runners = s.runners ∧ (s.startSource i).time = s.time ∧ (s.startSource i).alarms = s.alarms ∧
    (s.startSource i).triggers = s.triggers ∧ (s.startSource i).served = s.served ∧
    (s.startSource i).store = s.store ∧ (s.startSource i).freeCount = s.freeCount ∧
    (s.startSource i).pending = s.pending ∧ (s.startSource i).holdings = s.holdings := by
  unfold State.startSource
  try dsimp only
  (repeat' split) <;> simp [modPort_holdings, modPorts_holdings]

/-- R176 step 3, every source. -/
@[simp] theorem startSources_frame (l : List (Fin 16)) :
    (l.foldl State.startSource s).slots = s.slots ∧ (l.foldl State.startSource s).stills = s.stills ∧
    (l.foldl State.startSource s).starvation = s.starvation ∧ (l.foldl State.startSource s).library = s.library ∧
    (l.foldl State.startSource s).screens = s.screens ∧ (l.foldl State.startSource s).rateA = s.rateA ∧
    (l.foldl State.startSource s).rateB = s.rateB ∧ (l.foldl State.startSource s).palette = s.palette ∧
    (l.foldl State.startSource s).ramp = s.ramp ∧ (l.foldl State.startSource s).rotations = s.rotations ∧
    (l.foldl State.startSource s).scenes = s.scenes ∧ (l.foldl State.startSource s).serial = s.serial ∧
    (l.foldl State.startSource s).job = s.job ∧ (l.foldl State.startSource s).cues = s.cues ∧
    (l.foldl State.startSource s).runners = s.runners ∧ (l.foldl State.startSource s).time = s.time ∧
    (l.foldl State.startSource s).alarms = s.alarms ∧ (l.foldl State.startSource s).triggers = s.triggers ∧
    (l.foldl State.startSource s).served = s.served ∧ (l.foldl State.startSource s).store = s.store ∧
    (l.foldl State.startSource s).freeCount = s.freeCount ∧ (l.foldl State.startSource s).pending = s.pending ∧
    (l.foldl State.startSource s).holdings = s.holdings := by
  exact ⟨foldl_keeps State.slots _ (by intros; simp [modPort_holdings, modPorts_holdings]) _ _, foldl_keeps State.stills _ (by intros; simp [modPort_holdings, modPorts_holdings]) _ _, foldl_keeps State.starvation _ (by intros; simp [modPort_holdings, modPorts_holdings]) _ _, foldl_keeps State.library _ (by intros; simp [modPort_holdings, modPorts_holdings]) _ _, foldl_keeps State.screens _ (by intros; simp [modPort_holdings, modPorts_holdings]) _ _, foldl_keeps State.rateA _ (by intros; simp [modPort_holdings, modPorts_holdings]) _ _, foldl_keeps State.rateB _ (by intros; simp [modPort_holdings, modPorts_holdings]) _ _, foldl_keeps State.palette _ (by intros; simp [modPort_holdings, modPorts_holdings]) _ _, foldl_keeps State.ramp _ (by intros; simp [modPort_holdings, modPorts_holdings]) _ _, foldl_keeps State.rotations _ (by intros; simp [modPort_holdings, modPorts_holdings]) _ _, foldl_keeps State.scenes _ (by intros; simp [modPort_holdings, modPorts_holdings]) _ _, foldl_keeps State.serial _ (by intros; simp [modPort_holdings, modPorts_holdings]) _ _, foldl_keeps State.job _ (by intros; simp [modPort_holdings, modPorts_holdings]) _ _, foldl_keeps State.cues _ (by intros; simp [modPort_holdings, modPorts_holdings]) _ _, foldl_keeps State.runners _ (by intros; simp [modPort_holdings, modPorts_holdings]) _ _, foldl_keeps State.time _ (by intros; simp [modPort_holdings, modPorts_holdings]) _ _, foldl_keeps State.alarms _ (by intros; simp [modPort_holdings, modPorts_holdings]) _ _, foldl_keeps State.triggers _ (by intros; simp [modPort_holdings, modPorts_holdings]) _ _, foldl_keeps State.served _ (by intros; simp [modPort_holdings, modPorts_holdings]) _ _, foldl_keeps State.store _ (by intros; simp [modPort_holdings, modPorts_holdings]) _ _, foldl_keeps State.freeCount _ (by intros; simp [modPort_holdings, modPorts_holdings]) _ _, foldl_keeps State.pending _ (by intros; simp [modPort_holdings, modPorts_holdings]) _ _, foldl_keeps State.holdings _ (by intros; simp [modPort_holdings, modPorts_holdings]) _ _⟩

/-- R176 step 4. -/
@[simp] theorem startScreen_frame (c : Fin 24) :
    (s.startScreen c).sources = s.sources ∧ (s.startScreen c).slots = s.slots ∧ (s.startScreen c).stills = s.stills ∧
    (s.startScreen c).starvation = s.starvation ∧ (s.startScreen c).library = s.library ∧
    (s.startScreen c).rateA = s.rateA ∧ (s.startScreen c).rateB = s.rateB ∧ (s.startScreen c).palette = s.palette ∧
    (s.startScreen c).ramp = s.ramp ∧ (s.startScreen c).rotations = s.rotations ∧
    (s.startScreen c).scenes = s.scenes ∧ (s.startScreen c).serial = s.serial ∧ (s.startScreen c).job = s.job ∧
    (s.startScreen c).cues = s.cues ∧ (s.startScreen c).runners = s.runners ∧ (s.startScreen c).time = s.time ∧
    (s.startScreen c).alarms = s.alarms ∧ (s.startScreen c).triggers = s.triggers ∧
    (s.startScreen c).served = s.served ∧ (s.startScreen c).store = s.store ∧
    (s.startScreen c).freeCount = s.freeCount ∧ (s.startScreen c).pending = s.pending ∧
    (s.startScreen c).holdings = s.holdings := by
  unfold State.startScreen
  try dsimp only
  (repeat' split) <;> simp [modPort_holdings, modPorts_holdings]

/-- R176 step 4, every screen. -/
@[simp] theorem startScreens_frame (l : List (Fin 24)) :
    (l.foldl State.startScreen s).sources = s.sources ∧ (l.foldl State.startScreen s).slots = s.slots ∧
    (l.foldl State.startScreen s).stills = s.stills ∧ (l.foldl State.startScreen s).starvation = s.starvation ∧
    (l.foldl State.startScreen s).library = s.library ∧ (l.foldl State.startScreen s).rateA = s.rateA ∧
    (l.foldl State.startScreen s).rateB = s.rateB ∧ (l.foldl State.startScreen s).palette = s.palette ∧
    (l.foldl State.startScreen s).ramp = s.ramp ∧ (l.foldl State.startScreen s).rotations = s.rotations ∧
    (l.foldl State.startScreen s).scenes = s.scenes ∧ (l.foldl State.startScreen s).serial = s.serial ∧
    (l.foldl State.startScreen s).job = s.job ∧ (l.foldl State.startScreen s).cues = s.cues ∧
    (l.foldl State.startScreen s).runners = s.runners ∧ (l.foldl State.startScreen s).time = s.time ∧
    (l.foldl State.startScreen s).alarms = s.alarms ∧ (l.foldl State.startScreen s).triggers = s.triggers ∧
    (l.foldl State.startScreen s).served = s.served ∧ (l.foldl State.startScreen s).store = s.store ∧
    (l.foldl State.startScreen s).freeCount = s.freeCount ∧ (l.foldl State.startScreen s).pending = s.pending ∧
    (l.foldl State.startScreen s).holdings = s.holdings := by
  exact ⟨foldl_keeps State.sources _ (by intros; simp [modPort_holdings, modPorts_holdings]) _ _, foldl_keeps State.slots _ (by intros; simp [modPort_holdings, modPorts_holdings]) _ _, foldl_keeps State.stills _ (by intros; simp [modPort_holdings, modPorts_holdings]) _ _, foldl_keeps State.starvation _ (by intros; simp [modPort_holdings, modPorts_holdings]) _ _, foldl_keeps State.library _ (by intros; simp [modPort_holdings, modPorts_holdings]) _ _, foldl_keeps State.rateA _ (by intros; simp [modPort_holdings, modPorts_holdings]) _ _, foldl_keeps State.rateB _ (by intros; simp [modPort_holdings, modPorts_holdings]) _ _, foldl_keeps State.palette _ (by intros; simp [modPort_holdings, modPorts_holdings]) _ _, foldl_keeps State.ramp _ (by intros; simp [modPort_holdings, modPorts_holdings]) _ _, foldl_keeps State.rotations _ (by intros; simp [modPort_holdings, modPorts_holdings]) _ _, foldl_keeps State.scenes _ (by intros; simp [modPort_holdings, modPorts_holdings]) _ _, foldl_keeps State.serial _ (by intros; simp [modPort_holdings, modPorts_holdings]) _ _, foldl_keeps State.job _ (by intros; simp [modPort_holdings, modPorts_holdings]) _ _, foldl_keeps State.cues _ (by intros; simp [modPort_holdings, modPorts_holdings]) _ _, foldl_keeps State.runners _ (by intros; simp [modPort_holdings, modPorts_holdings]) _ _, foldl_keeps State.time _ (by intros; simp [modPort_holdings, modPorts_holdings]) _ _, foldl_keeps State.alarms _ (by intros; simp [modPort_holdings, modPorts_holdings]) _ _, foldl_keeps State.triggers _ (by intros; simp [modPort_holdings, modPorts_holdings]) _ _, foldl_keeps State.served _ (by intros; simp [modPort_holdings, modPorts_holdings]) _ _, foldl_keeps State.store _ (by intros; simp [modPort_holdings, modPorts_holdings]) _ _, foldl_keeps State.freeCount _ (by intros; simp [modPort_holdings, modPorts_holdings]) _ _, foldl_keeps State.pending _ (by intros; simp [modPort_holdings, modPorts_holdings]) _ _, foldl_keeps State.holdings _ (by intros; simp [modPort_holdings, modPorts_holdings]) _ _⟩

/-- R176 steps 3 to 6. -/
@[simp] theorem settleStart_frame (c : Code) :
    (s.settleStart c).slots = s.slots ∧ (s.settleStart c).stills = s.stills ∧
    (s.settleStart c).starvation = s.starvation ∧ (s.settleStart c).library = s.library ∧
    (s.settleStart c).rateA = s.rateA ∧ (s.settleStart c).rateB = s.rateB ∧ (s.settleStart c).palette = s.palette ∧
    (s.settleStart c).ramp = s.ramp ∧ (s.settleStart c).rotations = s.rotations ∧
    (s.settleStart c).scenes = s.scenes ∧ (s.settleStart c).serial = s.serial ∧ (s.settleStart c).job = s.job ∧
    (s.settleStart c).cues = s.cues ∧ (s.settleStart c).runners = s.runners ∧ (s.settleStart c).time = s.time ∧
    (s.settleStart c).alarms = s.alarms ∧ (s.settleStart c).triggers = s.triggers ∧
    (s.settleStart c).served = s.served ∧ (s.settleStart c).freeCount = s.freeCount ∧
    (s.settleStart c).pending = s.pending ∧ (s.settleStart c).holdings = s.holdings := by
  unfold State.settleStart
  simp [modPort_holdings, modPorts_holdings]

end

end Sys2Proof.Machine
end

