-- ==== Sys2Proof/Laws/Bodies.lean ====
section
/-! SUPPORT. What each request's owning block leaves as it was: every field that its two parts, the one before the reply
and the one after it, do not touch. -/

namespace Sys2Proof.Machine

set_option linter.unusedSimpArgs false

section
variable (p : Fin 16) (ps : List Byte) (s t : State)

/-- R167: what a RESTART leaves. -/
@[simp] theorem restartBlocks_frame :
    (s.restartBlocks p).starvation = s.starvation ∧ (s.restartBlocks p).library = s.library ∧
    (s.restartBlocks p).rateA = s.rateA ∧ (s.restartBlocks p).rateB = s.rateB ∧
    (s.restartBlocks p).palette = s.palette ∧ (s.restartBlocks p).ramp = s.ramp ∧
    (s.restartBlocks p).rotations = s.rotations ∧ (s.restartBlocks p).scenes = s.scenes ∧
    (s.restartBlocks p).serial = s.serial ∧ (s.restartBlocks p).cues = s.cues ∧ (s.restartBlocks p).time = s.time ∧
    (s.restartBlocks p).alarms = s.alarms ∧ (s.restartBlocks p).triggers = s.triggers ∧
    (s.restartBlocks p).pending = s.pending := by
  unfold State.restartBlocks
  simp

/-- R31: before the reply. -/
@[simp] theorem setSourceBody_frame :
    (setSourceBody p ps s).state.ports = s.ports ∧ (setSourceBody p ps s).state.slots = s.slots ∧
    (setSourceBody p ps s).state.stills = s.stills ∧ (setSourceBody p ps s).state.starvation = s.starvation ∧
    (setSourceBody p ps s).state.library = s.library ∧ (setSourceBody p ps s).state.screens = s.screens ∧
    (setSourceBody p ps s).state.rateA = s.rateA ∧ (setSourceBody p ps s).state.rateB = s.rateB ∧
    (setSourceBody p ps s).state.palette = s.palette ∧ (setSourceBody p ps s).state.ramp = s.ramp ∧
    (setSourceBody p ps s).state.rotations = s.rotations ∧ (setSourceBody p ps s).state.scenes = s.scenes ∧
    (setSourceBody p ps s).state.serial = s.serial ∧ (setSourceBody p ps s).state.job = s.job ∧
    (setSourceBody p ps s).state.cues = s.cues ∧ (setSourceBody p ps s).state.runners = s.runners ∧
    (setSourceBody p ps s).state.time = s.time ∧ (setSourceBody p ps s).state.alarms = s.alarms ∧
    (setSourceBody p ps s).state.triggers = s.triggers ∧ (setSourceBody p ps s).state.served = s.served ∧
    (setSourceBody p ps s).state.store = s.store ∧ (setSourceBody p ps s).state.freeCount = s.freeCount ∧
    (setSourceBody p ps s).state.pending = s.pending ∧ (setSourceBody p ps s).state.holdings = s.holdings := by
  unfold setSourceBody
  try dsimp only
  (repeat' split) <;> simp [unchanged, State.clearCounters, modPort_holdings, modPorts_holdings]

/-- R31: after the reply. -/
@[simp] theorem setSourceBody_after :
    ((setSourceBody p ps t).after s).stills = s.stills ∧ ((setSourceBody p ps t).after s).starvation = s.starvation ∧
    ((setSourceBody p ps t).after s).library = s.library ∧ ((setSourceBody p ps t).after s).screens = s.screens ∧
    ((setSourceBody p ps t).after s).rateA = s.rateA ∧ ((setSourceBody p ps t).after s).rateB = s.rateB ∧
    ((setSourceBody p ps t).after s).palette = s.palette ∧ ((setSourceBody p ps t).after s).ramp = s.ramp ∧
    ((setSourceBody p ps t).after s).rotations = s.rotations ∧ ((setSourceBody p ps t).after s).scenes = s.scenes ∧
    ((setSourceBody p ps t).after s).serial = s.serial ∧ ((setSourceBody p ps t).after s).job = s.job ∧
    ((setSourceBody p ps t).after s).cues = s.cues ∧ ((setSourceBody p ps t).after s).runners = s.runners ∧
    ((setSourceBody p ps t).after s).time = s.time ∧ ((setSourceBody p ps t).after s).alarms = s.alarms ∧
    ((setSourceBody p ps t).after s).triggers = s.triggers ∧ ((setSourceBody p ps t).after s).served = s.served ∧
    ((setSourceBody p ps t).after s).store = s.store ∧ ((setSourceBody p ps t).after s).freeCount = s.freeCount ∧
    ((setSourceBody p ps t).after s).pending = s.pending ∧ ((setSourceBody p ps t).after s).holdings = s.holdings := by
  unfold setSourceBody
  dsimp only
  (repeat' split) <;> simp only [unchanged, id]
  all_goals (repeat' split) <;> simp

/-- R30: before the reply. -/
@[simp] theorem requalifyBody_frame :
    (requalifyBody p ps s).state.slots = s.slots ∧ (requalifyBody p ps s).state.stills = s.stills ∧
    (requalifyBody p ps s).state.starvation = s.starvation ∧ (requalifyBody p ps s).state.library = s.library ∧
    (requalifyBody p ps s).state.screens = s.screens ∧ (requalifyBody p ps s).state.rateA = s.rateA ∧
    (requalifyBody p ps s).state.rateB = s.rateB ∧ (requalifyBody p ps s).state.palette = s.palette ∧
    (requalifyBody p ps s).state.ramp = s.ramp ∧ (requalifyBody p ps s).state.rotations = s.rotations ∧
    (requalifyBody p ps s).state.scenes = s.scenes ∧ (requalifyBody p ps s).state.serial = s.serial ∧
    (requalifyBody p ps s).state.job = s.job ∧ (requalifyBody p ps s).state.cues = s.cues ∧
    (requalifyBody p ps s).state.runners = s.runners ∧ (requalifyBody p ps s).state.time = s.time ∧
    (requalifyBody p ps s).state.alarms = s.alarms ∧ (requalifyBody p ps s).state.triggers = s.triggers ∧
    (requalifyBody p ps s).state.served = s.served ∧ (requalifyBody p ps s).state.store = s.store ∧
    (requalifyBody p ps s).state.freeCount = s.freeCount ∧ (requalifyBody p ps s).state.pending = s.pending ∧
    (requalifyBody p ps s).state.holdings = s.holdings := by
  unfold requalifyBody
  try dsimp only
  (repeat' split) <;> simp [unchanged, State.clearCounters, modPort_holdings, modPorts_holdings]

@[simp] theorem requalifyBody_after : (requalifyBody p ps s).after t = t := by
  unfold requalifyBody
  try dsimp only
  (repeat' split) <;> rfl

/-- R33: before the reply. -/
@[simp] theorem readSourceBody_frame :
    (readSourceBody p ps s).state.slots = s.slots ∧ (readSourceBody p ps s).state.stills = s.stills ∧
    (readSourceBody p ps s).state.starvation = s.starvation ∧ (readSourceBody p ps s).state.library = s.library ∧
    (readSourceBody p ps s).state.screens = s.screens ∧ (readSourceBody p ps s).state.rateA = s.rateA ∧
    (readSourceBody p ps s).state.rateB = s.rateB ∧ (readSourceBody p ps s).state.palette = s.palette ∧
    (readSourceBody p ps s).state.ramp = s.ramp ∧ (readSourceBody p ps s).state.rotations = s.rotations ∧
    (readSourceBody p ps s).state.scenes = s.scenes ∧ (readSourceBody p ps s).state.serial = s.serial ∧
    (readSourceBody p ps s).state.job = s.job ∧ (readSourceBody p ps s).state.cues = s.cues ∧
    (readSourceBody p ps s).state.runners = s.runners ∧ (readSourceBody p ps s).state.time = s.time ∧
    (readSourceBody p ps s).state.alarms = s.alarms ∧ (readSourceBody p ps s).state.triggers = s.triggers ∧
    (readSourceBody p ps s).state.served = s.served ∧ (readSourceBody p ps s).state.store = s.store ∧
    (readSourceBody p ps s).state.freeCount = s.freeCount ∧ (readSourceBody p ps s).state.pending = s.pending ∧
    (readSourceBody p ps s).state.holdings = s.holdings := by
  unfold readSourceBody
  try dsimp only
  (repeat' split) <;> simp [unchanged, State.clearCounters, modPort_holdings, modPorts_holdings]

@[simp] theorem readSourceBody_after : (readSourceBody p ps s).after t = t := by
  unfold readSourceBody
  try dsimp only
  (repeat' split) <;> rfl

/-- R46: before the reply. -/
@[simp] theorem captureBody_frame :
    (captureBody p ps s).state.ports = s.ports ∧ (captureBody p ps s).state.sources = s.sources ∧
    (captureBody p ps s).state.starvation = s.starvation ∧ (captureBody p ps s).state.library = s.library ∧
    (captureBody p ps s).state.screens = s.screens ∧ (captureBody p ps s).state.rateA = s.rateA ∧
    (captureBody p ps s).state.rateB = s.rateB ∧ (captureBody p ps s).state.palette = s.palette ∧
    (captureBody p ps s).state.ramp = s.ramp ∧ (captureBody p ps s).state.rotations = s.rotations ∧
    (captureBody p ps s).state.scenes = s.scenes ∧ (captureBody p ps s).state.serial = s.serial ∧
    (captureBody p ps s).state.job = s.job ∧ (captureBody p ps s).state.cues = s.cues ∧
    (captureBody p ps s).state.runners = s.runners ∧ (captureBody p ps s).state.time = s.time ∧
    (captureBody p ps s).state.alarms = s.alarms ∧ (captureBody p ps s).state.triggers = s.triggers ∧
    (captureBody p ps s).state.served = s.served ∧ (captureBody p ps s).state.store = s.store ∧
    (captureBody p ps s).state.freeCount = s.freeCount ∧ (captureBody p ps s).state.pending = s.pending ∧
    (captureBody p ps s).state.holdings = s.holdings := by
  unfold captureBody
  try dsimp only
  (repeat' split) <;> simp [unchanged, State.clearCounters, modPort_holdings, modPorts_holdings]

@[simp] theorem captureBody_after : (captureBody p ps s).after t = t := by
  unfold captureBody
  try dsimp only
  (repeat' split) <;> rfl

/-- R47: before the reply. -/
@[simp] theorem releaseStillBody_frame :
    (releaseStillBody p ps s).state.ports = s.ports ∧ (releaseStillBody p ps s).state.sources = s.sources ∧
    (releaseStillBody p ps s).state.starvation = s.starvation ∧ (releaseStillBody p ps s).state.library = s.library ∧
    (releaseStillBody p ps s).state.screens = s.screens ∧ (releaseStillBody p ps s).state.rateA = s.rateA ∧
    (releaseStillBody p ps s).state.rateB = s.rateB ∧ (releaseStillBody p ps s).state.palette = s.palette ∧
    (releaseStillBody p ps s).state.ramp = s.ramp ∧ (releaseStillBody p ps s).state.rotations = s.rotations ∧
    (releaseStillBody p ps s).state.scenes = s.scenes ∧ (releaseStillBody p ps s).state.serial = s.serial ∧
    (releaseStillBody p ps s).state.job = s.job ∧ (releaseStillBody p ps s).state.cues = s.cues ∧
    (releaseStillBody p ps s).state.runners = s.runners ∧ (releaseStillBody p ps s).state.time = s.time ∧
    (releaseStillBody p ps s).state.alarms = s.alarms ∧ (releaseStillBody p ps s).state.triggers = s.triggers ∧
    (releaseStillBody p ps s).state.served = s.served ∧ (releaseStillBody p ps s).state.store = s.store ∧
    (releaseStillBody p ps s).state.freeCount = s.freeCount ∧ (releaseStillBody p ps s).state.pending = s.pending ∧
    (releaseStillBody p ps s).state.holdings = s.holdings := by
  unfold releaseStillBody
  try dsimp only
  (repeat' split) <;> simp [unchanged, State.clearCounters, modPort_holdings, modPorts_holdings]

@[simp] theorem releaseStillBody_after : (releaseStillBody p ps s).after t = t := by
  unfold releaseStillBody
  try dsimp only
  (repeat' split) <;> rfl

/-- R60: before the reply. -/
@[simp] theorem loadLayoutBody_frame :
    (loadLayoutBody p ps s).state.ports = s.ports ∧ (loadLayoutBody p ps s).state.sources = s.sources ∧
    (loadLayoutBody p ps s).state.slots = s.slots ∧ (loadLayoutBody p ps s).state.stills = s.stills ∧
    (loadLayoutBody p ps s).state.starvation = s.starvation ∧ (loadLayoutBody p ps s).state.screens = s.screens ∧
    (loadLayoutBody p ps s).state.rateA = s.rateA ∧ (loadLayoutBody p ps s).state.rateB = s.rateB ∧
    (loadLayoutBody p ps s).state.palette = s.palette ∧ (loadLayoutBody p ps s).state.ramp = s.ramp ∧
    (loadLayoutBody p ps s).state.rotations = s.rotations ∧ (loadLayoutBody p ps s).state.scenes = s.scenes ∧
    (loadLayoutBody p ps s).state.serial = s.serial ∧ (loadLayoutBody p ps s).state.job = s.job ∧
    (loadLayoutBody p ps s).state.cues = s.cues ∧ (loadLayoutBody p ps s).state.runners = s.runners ∧
    (loadLayoutBody p ps s).state.time = s.time ∧ (loadLayoutBody p ps s).state.alarms = s.alarms ∧
    (loadLayoutBody p ps s).state.triggers = s.triggers ∧ (loadLayoutBody p ps s).state.served = s.served ∧
    (loadLayoutBody p ps s).state.store = s.store ∧ (loadLayoutBody p ps s).state.freeCount = s.freeCount ∧
    (loadLayoutBody p ps s).state.pending = s.pending ∧ (loadLayoutBody p ps s).state.holdings = s.holdings := by
  unfold loadLayoutBody
  try dsimp only
  (repeat' split) <;> simp [unchanged, State.clearCounters, modPort_holdings, modPorts_holdings]

@[simp] theorem loadLayoutBody_after : (loadLayoutBody p ps s).after t = t := by
  unfold loadLayoutBody
  try dsimp only
  (repeat' split) <;> rfl

/-- R67: before the reply. -/
@[simp] theorem eraseLayoutBody_frame :
    (eraseLayoutBody p ps s).state.ports = s.ports ∧ (eraseLayoutBody p ps s).state.sources = s.sources ∧
    (eraseLayoutBody p ps s).state.slots = s.slots ∧ (eraseLayoutBody p ps s).state.stills = s.stills ∧
    (eraseLayoutBody p ps s).state.starvation = s.starvation ∧ (eraseLayoutBody p ps s).state.screens = s.screens ∧
    (eraseLayoutBody p ps s).state.rateA = s.rateA ∧ (eraseLayoutBody p ps s).state.rateB = s.rateB ∧
    (eraseLayoutBody p ps s).state.palette = s.palette ∧ (eraseLayoutBody p ps s).state.ramp = s.ramp ∧
    (eraseLayoutBody p ps s).state.rotations = s.rotations ∧ (eraseLayoutBody p ps s).state.scenes = s.scenes ∧
    (eraseLayoutBody p ps s).state.serial = s.serial ∧ (eraseLayoutBody p ps s).state.job = s.job ∧
    (eraseLayoutBody p ps s).state.cues = s.cues ∧ (eraseLayoutBody p ps s).state.runners = s.runners ∧
    (eraseLayoutBody p ps s).state.time = s.time ∧ (eraseLayoutBody p ps s).state.alarms = s.alarms ∧
    (eraseLayoutBody p ps s).state.triggers = s.triggers ∧ (eraseLayoutBody p ps s).state.served = s.served ∧
    (eraseLayoutBody p ps s).state.store = s.store ∧ (eraseLayoutBody p ps s).state.freeCount = s.freeCount ∧
    (eraseLayoutBody p ps s).state.pending = s.pending ∧ (eraseLayoutBody p ps s).state.holdings = s.holdings := by
  unfold eraseLayoutBody
  try dsimp only
  (repeat' split) <;> simp [unchanged, State.clearCounters, modPort_holdings, modPorts_holdings]

@[simp] theorem eraseLayoutBody_after : (eraseLayoutBody p ps s).after t = t := by
  unfold eraseLayoutBody
  try dsimp only
  (repeat' split) <;> rfl

@[simp] theorem readLayoutBody_state : (readLayoutBody p ps s).state = s := by
  unfold readLayoutBody
  try dsimp only
  (repeat' split) <;> rfl

@[simp] theorem readLayoutBody_after : (readLayoutBody p ps s).after t = t := by
  unfold readLayoutBody
  try dsimp only
  (repeat' split) <;> rfl

/-- R92: before the reply. -/
@[simp] theorem setScreenBody_frame :
    (setScreenBody p ps s).state.sources = s.sources ∧ (setScreenBody p ps s).state.slots = s.slots ∧
    (setScreenBody p ps s).state.stills = s.stills ∧ (setScreenBody p ps s).state.starvation = s.starvation ∧
    (setScreenBody p ps s).state.library = s.library ∧ (setScreenBody p ps s).state.rateA = s.rateA ∧
    (setScreenBody p ps s).state.rateB = s.rateB ∧ (setScreenBody p ps s).state.palette = s.palette ∧
    (setScreenBody p ps s).state.ramp = s.ramp ∧ (setScreenBody p ps s).state.rotations = s.rotations ∧
    (setScreenBody p ps s).state.scenes = s.scenes ∧ (setScreenBody p ps s).state.serial = s.serial ∧
    (setScreenBody p ps s).state.job = s.job ∧ (setScreenBody p ps s).state.cues = s.cues ∧
    (setScreenBody p ps s).state.runners = s.runners ∧ (setScreenBody p ps s).state.time = s.time ∧
    (setScreenBody p ps s).state.alarms = s.alarms ∧ (setScreenBody p ps s).state.triggers = s.triggers ∧
    (setScreenBody p ps s).state.served = s.served ∧ (setScreenBody p ps s).state.store = s.store ∧
    (setScreenBody p ps s).state.freeCount = s.freeCount ∧ (setScreenBody p ps s).state.pending = s.pending ∧
    (setScreenBody p ps s).state.holdings = s.holdings := by
  unfold setScreenBody
  try dsimp only
  (repeat' split) <;> simp [unchanged, State.clearCounters, modPort_holdings, modPorts_holdings]

/-- R92: after the reply. -/
@[simp] theorem setScreenBody_after :
    ((setScreenBody p ps t).after s).sources = s.sources ∧ ((setScreenBody p ps t).after s).stills = s.stills ∧
    ((setScreenBody p ps t).after s).starvation = s.starvation ∧
    ((setScreenBody p ps t).after s).library = s.library ∧ ((setScreenBody p ps t).after s).rateA = s.rateA ∧
    ((setScreenBody p ps t).after s).rateB = s.rateB ∧ ((setScreenBody p ps t).after s).palette = s.palette ∧
    ((setScreenBody p ps t).after s).ramp = s.ramp ∧ ((setScreenBody p ps t).after s).rotations = s.rotations ∧
    ((setScreenBody p ps t).after s).scenes = s.scenes ∧ ((setScreenBody p ps t).after s).cues = s.cues ∧
    ((setScreenBody p ps t).after s).time = s.time ∧ ((setScreenBody p ps t).after s).alarms = s.alarms ∧
    ((setScreenBody p ps t).after s).triggers = s.triggers ∧ ((setScreenBody p ps t).after s).served = s.served ∧
    ((setScreenBody p ps t).after s).store = s.store ∧ ((setScreenBody p ps t).after s).pending = s.pending ∧
    ((setScreenBody p ps t).after s).holdings = s.holdings := by
  unfold setScreenBody
  dsimp only
  (repeat' split) <;> simp [unchanged]

/-- R73: before the reply. -/
@[simp] theorem setCadenceBody_frame :
    (setCadenceBody p ps s).state.ports = s.ports ∧ (setCadenceBody p ps s).state.sources = s.sources ∧
    (setCadenceBody p ps s).state.slots = s.slots ∧ (setCadenceBody p ps s).state.stills = s.stills ∧
    (setCadenceBody p ps s).state.starvation = s.starvation ∧ (setCadenceBody p ps s).state.library = s.library ∧
    (setCadenceBody p ps s).state.screens = s.screens ∧ (setCadenceBody p ps s).state.palette = s.palette ∧
    (setCadenceBody p ps s).state.ramp = s.ramp ∧ (setCadenceBody p ps s).state.rotations = s.rotations ∧
    (setCadenceBody p ps s).state.scenes = s.scenes ∧ (setCadenceBody p ps s).state.serial = s.serial ∧
    (setCadenceBody p ps s).state.job = s.job ∧ (setCadenceBody p ps s).state.cues = s.cues ∧
    (setCadenceBody p ps s).state.runners = s.runners ∧ (setCadenceBody p ps s).state.time = s.time ∧
    (setCadenceBody p ps s).state.alarms = s.alarms ∧ (setCadenceBody p ps s).state.triggers = s.triggers ∧
    (setCadenceBody p ps s).state.served = s.served ∧ (setCadenceBody p ps s).state.store = s.store ∧
    (setCadenceBody p ps s).state.freeCount = s.freeCount ∧ (setCadenceBody p ps s).state.pending = s.pending ∧
    (setCadenceBody p ps s).state.holdings = s.holdings := by
  unfold setCadenceBody
  try dsimp only
  (repeat' split) <;> simp [unchanged, State.clearCounters, modPort_holdings, modPorts_holdings]

@[simp] theorem setCadenceBody_after : (setCadenceBody p ps s).after t = t := by
  unfold setCadenceBody
  try dsimp only
  (repeat' split) <;> rfl

/-- R86: before the reply. -/
@[simp] theorem setPaletteBody_frame :
    (setPaletteBody p ps s).state.ports = s.ports ∧ (setPaletteBody p ps s).state.sources = s.sources ∧
    (setPaletteBody p ps s).state.slots = s.slots ∧ (setPaletteBody p ps s).state.stills = s.stills ∧
    (setPaletteBody p ps s).state.starvation = s.starvation ∧ (setPaletteBody p ps s).state.library = s.library ∧
    (setPaletteBody p ps s).state.screens = s.screens ∧ (setPaletteBody p ps s).state.rateA = s.rateA ∧
    (setPaletteBody p ps s).state.rateB = s.rateB ∧ (setPaletteBody p ps s).state.ramp = s.ramp ∧
    (setPaletteBody p ps s).state.rotations = s.rotations ∧ (setPaletteBody p ps s).state.scenes = s.scenes ∧
    (setPaletteBody p ps s).state.serial = s.serial ∧ (setPaletteBody p ps s).state.job = s.job ∧
    (setPaletteBody p ps s).state.cues = s.cues ∧ (setPaletteBody p ps s).state.runners = s.runners ∧
    (setPaletteBody p ps s).state.time = s.time ∧ (setPaletteBody p ps s).state.alarms = s.alarms ∧
    (setPaletteBody p ps s).state.triggers = s.triggers ∧ (setPaletteBody p ps s).state.served = s.served ∧
    (setPaletteBody p ps s).state.store = s.store ∧ (setPaletteBody p ps s).state.freeCount = s.freeCount ∧
    (setPaletteBody p ps s).state.pending = s.pending ∧ (setPaletteBody p ps s).state.holdings = s.holdings := by
  unfold setPaletteBody
  try dsimp only
  (repeat' split) <;> simp [unchanged, State.clearCounters, modPort_holdings, modPorts_holdings]

@[simp] theorem setPaletteBody_after : (setPaletteBody p ps s).after t = t := by
  unfold setPaletteBody
  try dsimp only
  (repeat' split) <;> rfl

/-- R88: before the reply. -/
@[simp] theorem freezeBody_frame :
    (freezeBody p ps s).state.sources = s.sources ∧ (freezeBody p ps s).state.slots = s.slots ∧
    (freezeBody p ps s).state.stills = s.stills ∧ (freezeBody p ps s).state.starvation = s.starvation ∧
    (freezeBody p ps s).state.library = s.library ∧ (freezeBody p ps s).state.rateA = s.rateA ∧
    (freezeBody p ps s).state.rateB = s.rateB ∧ (freezeBody p ps s).state.palette = s.palette ∧
    (freezeBody p ps s).state.ramp = s.ramp ∧ (freezeBody p ps s).state.rotations = s.rotations ∧
    (freezeBody p ps s).state.scenes = s.scenes ∧ (freezeBody p ps s).state.serial = s.serial ∧
    (freezeBody p ps s).state.job = s.job ∧ (freezeBody p ps s).state.cues = s.cues ∧
    (freezeBody p ps s).state.runners = s.runners ∧ (freezeBody p ps s).state.time = s.time ∧
    (freezeBody p ps s).state.alarms = s.alarms ∧ (freezeBody p ps s).state.triggers = s.triggers ∧
    (freezeBody p ps s).state.served = s.served ∧ (freezeBody p ps s).state.store = s.store ∧
    (freezeBody p ps s).state.freeCount = s.freeCount ∧ (freezeBody p ps s).state.pending = s.pending ∧
    (freezeBody p ps s).state.holdings = s.holdings := by
  unfold freezeBody
  try dsimp only
  (repeat' split) <;> simp [unchanged, State.clearCounters, modPort_holdings, modPorts_holdings]

@[simp] theorem freezeBody_after : (freezeBody p ps s).after t = t := by
  unfold freezeBody
  try dsimp only
  (repeat' split) <;> rfl

/-- R89: before the reply. -/
@[simp] theorem setPulseBody_frame :
    (setPulseBody p ps s).state.sources = s.sources ∧ (setPulseBody p ps s).state.slots = s.slots ∧
    (setPulseBody p ps s).state.stills = s.stills ∧ (setPulseBody p ps s).state.starvation = s.starvation ∧
    (setPulseBody p ps s).state.library = s.library ∧ (setPulseBody p ps s).state.rateA = s.rateA ∧
    (setPulseBody p ps s).state.rateB = s.rateB ∧ (setPulseBody p ps s).state.palette = s.palette ∧
    (setPulseBody p ps s).state.ramp = s.ramp ∧ (setPulseBody p ps s).state.rotations = s.rotations ∧
    (setPulseBody p ps s).state.scenes = s.scenes ∧ (setPulseBody p ps s).state.serial = s.serial ∧
    (setPulseBody p ps s).state.job = s.job ∧ (setPulseBody p ps s).state.cues = s.cues ∧
    (setPulseBody p ps s).state.runners = s.runners ∧ (setPulseBody p ps s).state.time = s.time ∧
    (setPulseBody p ps s).state.alarms = s.alarms ∧ (setPulseBody p ps s).state.triggers = s.triggers ∧
    (setPulseBody p ps s).state.served = s.served ∧ (setPulseBody p ps s).state.store = s.store ∧
    (setPulseBody p ps s).state.freeCount = s.freeCount ∧ (setPulseBody p ps s).state.pending = s.pending ∧
    (setPulseBody p ps s).state.holdings = s.holdings := by
  unfold setPulseBody
  try dsimp only
  (repeat' split) <;> simp [unchanged, State.clearCounters, modPort_holdings, modPorts_holdings]

@[simp] theorem setPulseBody_after : (setPulseBody p ps s).after t = t := by
  unfold setPulseBody
  try dsimp only
  (repeat' split) <;> rfl

@[simp] theorem readScreenBody_state : (readScreenBody p ps s).state = s := by
  unfold readScreenBody
  try dsimp only
  (repeat' split) <;> rfl

@[simp] theorem readScreenBody_after : (readScreenBody p ps s).after t = t := by
  unfold readScreenBody
  try dsimp only
  (repeat' split) <;> rfl

/-- R96: before the reply. -/
@[simp] theorem windowTakeBody_frame :
    (windowTakeBody p ps s).state.sources = s.sources ∧ (windowTakeBody p ps s).state.stills = s.stills ∧
    (windowTakeBody p ps s).state.starvation = s.starvation ∧ (windowTakeBody p ps s).state.library = s.library ∧
    (windowTakeBody p ps s).state.rateA = s.rateA ∧ (windowTakeBody p ps s).state.rateB = s.rateB ∧
    (windowTakeBody p ps s).state.palette = s.palette ∧ (windowTakeBody p ps s).state.ramp = s.ramp ∧
    (windowTakeBody p ps s).state.rotations = s.rotations ∧ (windowTakeBody p ps s).state.scenes = s.scenes ∧
    (windowTakeBody p ps s).state.serial = s.serial ∧ (windowTakeBody p ps s).state.job = s.job ∧
    (windowTakeBody p ps s).state.cues = s.cues ∧ (windowTakeBody p ps s).state.runners = s.runners ∧
    (windowTakeBody p ps s).state.time = s.time ∧ (windowTakeBody p ps s).state.alarms = s.alarms ∧
    (windowTakeBody p ps s).state.triggers = s.triggers ∧ (windowTakeBody p ps s).state.served = s.served ∧
    (windowTakeBody p ps s).state.store = s.store ∧ (windowTakeBody p ps s).state.freeCount = s.freeCount ∧
    (windowTakeBody p ps s).state.pending = s.pending ∧ (windowTakeBody p ps s).state.holdings = s.holdings := by
  unfold windowTakeBody
  try dsimp only
  (repeat' split) <;> simp [unchanged, State.clearCounters, modPort_holdings, modPorts_holdings]

@[simp] theorem windowTakeBody_after : (windowTakeBody p ps s).after t = t := by
  unfold windowTakeBody
  try dsimp only
  (repeat' split) <;> rfl

/-- R107: before the reply. -/
@[simp] theorem rotateBody_frame :
    (rotateBody p ps s).state.sources = s.sources ∧ (rotateBody p ps s).state.stills = s.stills ∧
    (rotateBody p ps s).state.starvation = s.starvation ∧ (rotateBody p ps s).state.library = s.library ∧
    (rotateBody p ps s).state.rateA = s.rateA ∧ (rotateBody p ps s).state.rateB = s.rateB ∧
    (rotateBody p ps s).state.palette = s.palette ∧ (rotateBody p ps s).state.ramp = s.ramp ∧
    (rotateBody p ps s).state.scenes = s.scenes ∧ (rotateBody p ps s).state.serial = s.serial ∧
    (rotateBody p ps s).state.job = s.job ∧ (rotateBody p ps s).state.cues = s.cues ∧
    (rotateBody p ps s).state.runners = s.runners ∧ (rotateBody p ps s).state.time = s.time ∧
    (rotateBody p ps s).state.alarms = s.alarms ∧ (rotateBody p ps s).state.triggers = s.triggers ∧
    (rotateBody p ps s).state.served = s.served ∧ (rotateBody p ps s).state.store = s.store ∧
    (rotateBody p ps s).state.freeCount = s.freeCount ∧ (rotateBody p ps s).state.pending = s.pending ∧
    (rotateBody p ps s).state.holdings = s.holdings := by
  unfold rotateBody
  try dsimp only
  (repeat' split) <;> simp [unchanged, State.clearCounters, modPort_holdings, modPorts_holdings]

@[simp] theorem rotateBody_after : (rotateBody p ps s).after t = t := by
  unfold rotateBody
  try dsimp only
  (repeat' split) <;> rfl

/-- R104: before the reply. -/
@[simp] theorem setRampBody_frame :
    (setRampBody p ps s).state.ports = s.ports ∧ (setRampBody p ps s).state.sources = s.sources ∧
    (setRampBody p ps s).state.slots = s.slots ∧ (setRampBody p ps s).state.stills = s.stills ∧
    (setRampBody p ps s).state.starvation = s.starvation ∧ (setRampBody p ps s).state.library = s.library ∧
    (setRampBody p ps s).state.screens = s.screens ∧ (setRampBody p ps s).state.rateA = s.rateA ∧
    (setRampBody p ps s).state.rateB = s.rateB ∧ (setRampBody p ps s).state.palette = s.palette ∧
    (setRampBody p ps s).state.rotations = s.rotations ∧ (setRampBody p ps s).state.scenes = s.scenes ∧
    (setRampBody p ps s).state.serial = s.serial ∧ (setRampBody p ps s).state.job = s.job ∧
    (setRampBody p ps s).state.cues = s.cues ∧ (setRampBody p ps s).state.runners = s.runners ∧
    (setRampBody p ps s).state.time = s.time ∧ (setRampBody p ps s).state.alarms = s.alarms ∧
    (setRampBody p ps s).state.triggers = s.triggers ∧ (setRampBody p ps s).state.served = s.served ∧
    (setRampBody p ps s).state.store = s.store ∧ (setRampBody p ps s).state.freeCount = s.freeCount ∧
    (setRampBody p ps s).state.pending = s.pending ∧ (setRampBody p ps s).state.holdings = s.holdings := by
  unfold setRampBody
  try dsimp only
  (repeat' split) <;> simp [unchanged, State.clearCounters, modPort_holdings, modPorts_holdings]

@[simp] theorem setRampBody_after : (setRampBody p ps s).after t = t := by
  unfold setRampBody
  try dsimp only
  (repeat' split) <;> rfl

/-- R106: before the reply. -/
@[simp] theorem loadRotationBody_frame :
    (loadRotationBody p ps s).state.ports = s.ports ∧ (loadRotationBody p ps s).state.sources = s.sources ∧
    (loadRotationBody p ps s).state.slots = s.slots ∧ (loadRotationBody p ps s).state.stills = s.stills ∧
    (loadRotationBody p ps s).state.starvation = s.starvation ∧ (loadRotationBody p ps s).state.library = s.library ∧
    (loadRotationBody p ps s).state.screens = s.screens ∧ (loadRotationBody p ps s).state.rateA = s.rateA ∧
    (loadRotationBody p ps s).state.rateB = s.rateB ∧ (loadRotationBody p ps s).state.palette = s.palette ∧
    (loadRotationBody p ps s).state.ramp = s.ramp ∧ (loadRotationBody p ps s).state.scenes = s.scenes ∧
    (loadRotationBody p ps s).state.serial = s.serial ∧ (loadRotationBody p ps s).state.job = s.job ∧
    (loadRotationBody p ps s).state.cues = s.cues ∧ (loadRotationBody p ps s).state.runners = s.runners ∧
    (loadRotationBody p ps s).state.time = s.time ∧ (loadRotationBody p ps s).state.alarms = s.alarms ∧
    (loadRotationBody p ps s).state.triggers = s.triggers ∧ (loadRotationBody p ps s).state.served = s.served ∧
    (loadRotationBody p ps s).state.store = s.store ∧ (loadRotationBody p ps s).state.freeCount = s.freeCount ∧
    (loadRotationBody p ps s).state.pending = s.pending ∧ (loadRotationBody p ps s).state.holdings = s.holdings := by
  unfold loadRotationBody
  try dsimp only
  (repeat' split) <;> simp [unchanged, State.clearCounters, modPort_holdings, modPorts_holdings]

@[simp] theorem loadRotationBody_after : (loadRotationBody p ps s).after t = t := by
  unfold loadRotationBody
  try dsimp only
  (repeat' split) <;> rfl

@[simp] theorem readRotationBody_state : (readRotationBody p ps s).state = s := by
  unfold readRotationBody
  try dsimp only
  (repeat' split) <;> rfl

@[simp] theorem readRotationBody_after : (readRotationBody p ps s).after t = t := by
  unfold readRotationBody
  try dsimp only
  (repeat' split) <;> rfl

/-- R111: before the reply. -/
@[simp] theorem loadSceneBody_frame :
    (loadSceneBody p ps s).state.ports = s.ports ∧ (loadSceneBody p ps s).state.sources = s.sources ∧
    (loadSceneBody p ps s).state.slots = s.slots ∧ (loadSceneBody p ps s).state.stills = s.stills ∧
    (loadSceneBody p ps s).state.starvation = s.starvation ∧ (loadSceneBody p ps s).state.library = s.library ∧
    (loadSceneBody p ps s).state.screens = s.screens ∧ (loadSceneBody p ps s).state.rateA = s.rateA ∧
    (loadSceneBody p ps s).state.rateB = s.rateB ∧ (loadSceneBody p ps s).state.palette = s.palette ∧
    (loadSceneBody p ps s).state.ramp = s.ramp ∧ (loadSceneBody p ps s).state.rotations = s.rotations ∧
    (loadSceneBody p ps s).state.serial = s.serial ∧ (loadSceneBody p ps s).state.job = s.job ∧
    (loadSceneBody p ps s).state.cues = s.cues ∧ (loadSceneBody p ps s).state.runners = s.runners ∧
    (loadSceneBody p ps s).state.time = s.time ∧ (loadSceneBody p ps s).state.alarms = s.alarms ∧
    (loadSceneBody p ps s).state.triggers = s.triggers ∧ (loadSceneBody p ps s).state.served = s.served ∧
    (loadSceneBody p ps s).state.store = s.store ∧ (loadSceneBody p ps s).state.freeCount = s.freeCount ∧
    (loadSceneBody p ps s).state.pending = s.pending ∧ (loadSceneBody p ps s).state.holdings = s.holdings := by
  unfold loadSceneBody
  try dsimp only
  (repeat' split) <;> simp [unchanged, State.clearCounters, modPort_holdings, modPorts_holdings]

@[simp] theorem loadSceneBody_after : (loadSceneBody p ps s).after t = t := by
  unfold loadSceneBody
  try dsimp only
  (repeat' split) <;> rfl

/-- R112: before the reply. -/
@[simp] theorem eraseSceneBody_frame :
    (eraseSceneBody p ps s).state.ports = s.ports ∧ (eraseSceneBody p ps s).state.sources = s.sources ∧
    (eraseSceneBody p ps s).state.slots = s.slots ∧ (eraseSceneBody p ps s).state.stills = s.stills ∧
    (eraseSceneBody p ps s).state.starvation = s.starvation ∧ (eraseSceneBody p ps s).state.library = s.library ∧
    (eraseSceneBody p ps s).state.screens = s.screens ∧ (eraseSceneBody p ps s).state.rateA = s.rateA ∧
    (eraseSceneBody p ps s).state.rateB = s.rateB ∧ (eraseSceneBody p ps s).state.palette = s.palette ∧
    (eraseSceneBody p ps s).state.ramp = s.ramp ∧ (eraseSceneBody p ps s).state.rotations = s.rotations ∧
    (eraseSceneBody p ps s).state.serial = s.serial ∧ (eraseSceneBody p ps s).state.job = s.job ∧
    (eraseSceneBody p ps s).state.cues = s.cues ∧ (eraseSceneBody p ps s).state.runners = s.runners ∧
    (eraseSceneBody p ps s).state.time = s.time ∧ (eraseSceneBody p ps s).state.alarms = s.alarms ∧
    (eraseSceneBody p ps s).state.triggers = s.triggers ∧ (eraseSceneBody p ps s).state.served = s.served ∧
    (eraseSceneBody p ps s).state.store = s.store ∧ (eraseSceneBody p ps s).state.freeCount = s.freeCount ∧
    (eraseSceneBody p ps s).state.pending = s.pending ∧ (eraseSceneBody p ps s).state.holdings = s.holdings := by
  unfold eraseSceneBody
  try dsimp only
  (repeat' split) <;> simp [unchanged, State.clearCounters, modPort_holdings, modPorts_holdings]

@[simp] theorem eraseSceneBody_after : (eraseSceneBody p ps s).after t = t := by
  unfold eraseSceneBody
  try dsimp only
  (repeat' split) <;> rfl

@[simp] theorem readSceneBody_state : (readSceneBody p ps s).state = s := by
  unfold readSceneBody
  try dsimp only
  (repeat' split) <;> rfl

@[simp] theorem readSceneBody_after : (readSceneBody p ps s).after t = t := by
  unfold readSceneBody
  try dsimp only
  (repeat' split) <;> rfl

/-- R114: before the reply. -/
@[simp] theorem takeSceneBody_frame :
    (takeSceneBody p ps s).state.sources = s.sources ∧ (takeSceneBody p ps s).state.slots = s.slots ∧
    (takeSceneBody p ps s).state.stills = s.stills ∧ (takeSceneBody p ps s).state.starvation = s.starvation ∧
    (takeSceneBody p ps s).state.library = s.library ∧ (takeSceneBody p ps s).state.rateA = s.rateA ∧
    (takeSceneBody p ps s).state.rateB = s.rateB ∧ (takeSceneBody p ps s).state.palette = s.palette ∧
    (takeSceneBody p ps s).state.ramp = s.ramp ∧ (takeSceneBody p ps s).state.rotations = s.rotations ∧
    (takeSceneBody p ps s).state.scenes = s.scenes ∧ (takeSceneBody p ps s).state.cues = s.cues ∧
    (takeSceneBody p ps s).state.time = s.time ∧ (takeSceneBody p ps s).state.alarms = s.alarms ∧
    (takeSceneBody p ps s).state.triggers = s.triggers ∧ (takeSceneBody p ps s).state.served = s.served ∧
    (takeSceneBody p ps s).state.store = s.store ∧ (takeSceneBody p ps s).state.pending = s.pending ∧
    (takeSceneBody p ps s).state.holdings = s.holdings := by
  unfold takeSceneBody requestTake
  try dsimp only
  (repeat' split) <;>
    first
    | (simp [unchanged]; done)
    | (next h => have k := accept_frame s _ _ _ h; simp [k])

@[simp] theorem takeSceneBody_after : (takeSceneBody p ps s).after t = t := by
  unfold takeSceneBody requestTake
  try dsimp only
  (repeat' split) <;> rfl

/-- R114: before the reply. -/
@[simp] theorem takeLayoutBody_frame :
    (takeLayoutBody p ps s).state.sources = s.sources ∧ (takeLayoutBody p ps s).state.slots = s.slots ∧
    (takeLayoutBody p ps s).state.stills = s.stills ∧ (takeLayoutBody p ps s).state.starvation = s.starvation ∧
    (takeLayoutBody p ps s).state.library = s.library ∧ (takeLayoutBody p ps s).state.rateA = s.rateA ∧
    (takeLayoutBody p ps s).state.rateB = s.rateB ∧ (takeLayoutBody p ps s).state.palette = s.palette ∧
    (takeLayoutBody p ps s).state.ramp = s.ramp ∧ (takeLayoutBody p ps s).state.rotations = s.rotations ∧
    (takeLayoutBody p ps s).state.scenes = s.scenes ∧ (takeLayoutBody p ps s).state.cues = s.cues ∧
    (takeLayoutBody p ps s).state.time = s.time ∧ (takeLayoutBody p ps s).state.alarms = s.alarms ∧
    (takeLayoutBody p ps s).state.triggers = s.triggers ∧ (takeLayoutBody p ps s).state.served = s.served ∧
    (takeLayoutBody p ps s).state.store = s.store ∧ (takeLayoutBody p ps s).state.pending = s.pending ∧
    (takeLayoutBody p ps s).state.holdings = s.holdings := by
  unfold takeLayoutBody requestTake
  try dsimp only
  (repeat' split) <;>
    first
    | (simp [unchanged]; done)
    | (next h => have k := accept_frame s _ _ _ h; simp [k])

@[simp] theorem takeLayoutBody_after : (takeLayoutBody p ps s).after t = t := by
  unfold takeLayoutBody requestTake
  try dsimp only
  (repeat' split) <;> rfl

/-- R115: before the reply. -/
@[simp] theorem revertBody_frame :
    (revertBody p ps s).state.sources = s.sources ∧ (revertBody p ps s).state.slots = s.slots ∧
    (revertBody p ps s).state.stills = s.stills ∧ (revertBody p ps s).state.starvation = s.starvation ∧
    (revertBody p ps s).state.library = s.library ∧ (revertBody p ps s).state.rateA = s.rateA ∧
    (revertBody p ps s).state.rateB = s.rateB ∧ (revertBody p ps s).state.palette = s.palette ∧
    (revertBody p ps s).state.ramp = s.ramp ∧ (revertBody p ps s).state.rotations = s.rotations ∧
    (revertBody p ps s).state.scenes = s.scenes ∧ (revertBody p ps s).state.cues = s.cues ∧
    (revertBody p ps s).state.time = s.time ∧ (revertBody p ps s).state.alarms = s.alarms ∧
    (revertBody p ps s).state.triggers = s.triggers ∧ (revertBody p ps s).state.served = s.served ∧
    (revertBody p ps s).state.store = s.store ∧ (revertBody p ps s).state.pending = s.pending ∧
    (revertBody p ps s).state.holdings = s.holdings := by
  unfold revertBody
  try dsimp only
  (repeat' split) <;> simp [unchanged, State.clearCounters, modPort_holdings, modPorts_holdings]

@[simp] theorem revertBody_after : (revertBody p ps s).after t = t := by
  unfold revertBody
  try dsimp only
  (repeat' split) <;> rfl

/-- R122: before the reply. -/
@[simp] theorem abortTakeBody_frame :
    (abortTakeBody p ps s).state.sources = s.sources ∧ (abortTakeBody p ps s).state.slots = s.slots ∧
    (abortTakeBody p ps s).state.stills = s.stills ∧ (abortTakeBody p ps s).state.starvation = s.starvation ∧
    (abortTakeBody p ps s).state.library = s.library ∧ (abortTakeBody p ps s).state.rateA = s.rateA ∧
    (abortTakeBody p ps s).state.rateB = s.rateB ∧ (abortTakeBody p ps s).state.palette = s.palette ∧
    (abortTakeBody p ps s).state.ramp = s.ramp ∧ (abortTakeBody p ps s).state.rotations = s.rotations ∧
    (abortTakeBody p ps s).state.scenes = s.scenes ∧ (abortTakeBody p ps s).state.cues = s.cues ∧
    (abortTakeBody p ps s).state.time = s.time ∧ (abortTakeBody p ps s).state.alarms = s.alarms ∧
    (abortTakeBody p ps s).state.triggers = s.triggers ∧ (abortTakeBody p ps s).state.served = s.served ∧
    (abortTakeBody p ps s).state.store = s.store ∧ (abortTakeBody p ps s).state.pending = s.pending ∧
    (abortTakeBody p ps s).state.holdings = s.holdings := by
  unfold abortTakeBody
  try dsimp only
  (repeat' split) <;> simp [unchanged, State.clearCounters, modPort_holdings, modPorts_holdings]

@[simp] theorem abortTakeBody_after : (abortTakeBody p ps s).after t = t := by
  unfold abortTakeBody
  try dsimp only
  (repeat' split) <;> rfl

/-- R128: before the reply. -/
@[simp] theorem loadCuesBody_frame :
    (loadCuesBody p ps s).state.ports = s.ports ∧ (loadCuesBody p ps s).state.sources = s.sources ∧
    (loadCuesBody p ps s).state.slots = s.slots ∧ (loadCuesBody p ps s).state.stills = s.stills ∧
    (loadCuesBody p ps s).state.starvation = s.starvation ∧ (loadCuesBody p ps s).state.library = s.library ∧
    (loadCuesBody p ps s).state.screens = s.screens ∧ (loadCuesBody p ps s).state.rateA = s.rateA ∧
    (loadCuesBody p ps s).state.rateB = s.rateB ∧ (loadCuesBody p ps s).state.palette = s.palette ∧
    (loadCuesBody p ps s).state.ramp = s.ramp ∧ (loadCuesBody p ps s).state.rotations = s.rotations ∧
    (loadCuesBody p ps s).state.scenes = s.scenes ∧ (loadCuesBody p ps s).state.serial = s.serial ∧
    (loadCuesBody p ps s).state.job = s.job ∧ (loadCuesBody p ps s).state.runners = s.runners ∧
    (loadCuesBody p ps s).state.time = s.time ∧ (loadCuesBody p ps s).state.alarms = s.alarms ∧
    (loadCuesBody p ps s).state.triggers = s.triggers ∧ (loadCuesBody p ps s).state.served = s.served ∧
    (loadCuesBody p ps s).state.store = s.store ∧ (loadCuesBody p ps s).state.freeCount = s.freeCount ∧
    (loadCuesBody p ps s).state.pending = s.pending ∧ (loadCuesBody p ps s).state.holdings = s.holdings := by
  unfold loadCuesBody
  try dsimp only
  (repeat' split) <;> simp [unchanged, State.clearCounters, modPort_holdings, modPorts_holdings]

@[simp] theorem loadCuesBody_after : (loadCuesBody p ps s).after t = t := by
  unfold loadCuesBody
  try dsimp only
  (repeat' split) <;> rfl

@[simp] theorem readCuesBody_state : (readCuesBody p ps s).state = s := by
  unfold readCuesBody
  try dsimp only
  (repeat' split) <;> rfl

@[simp] theorem readCuesBody_after : (readCuesBody p ps s).after t = t := by
  unfold readCuesBody
  try dsimp only
  (repeat' split) <;> rfl

/-- R143: before the reply. -/
@[simp] theorem startCueBody_frame :
    (startCueBody p ps s).state.sources = s.sources ∧ (startCueBody p ps s).state.slots = s.slots ∧
    (startCueBody p ps s).state.stills = s.stills ∧ (startCueBody p ps s).state.starvation = s.starvation ∧
    (startCueBody p ps s).state.library = s.library ∧ (startCueBody p ps s).state.screens = s.screens ∧
    (startCueBody p ps s).state.rateA = s.rateA ∧ (startCueBody p ps s).state.rateB = s.rateB ∧
    (startCueBody p ps s).state.palette = s.palette ∧ (startCueBody p ps s).state.ramp = s.ramp ∧
    (startCueBody p ps s).state.rotations = s.rotations ∧ (startCueBody p ps s).state.scenes = s.scenes ∧
    (startCueBody p ps s).state.serial = s.serial ∧ (startCueBody p ps s).state.job = s.job ∧
    (startCueBody p ps s).state.cues = s.cues ∧ (startCueBody p ps s).state.time = s.time ∧
    (startCueBody p ps s).state.alarms = s.alarms ∧ (startCueBody p ps s).state.triggers = s.triggers ∧
    (startCueBody p ps s).state.served = s.served ∧ (startCueBody p ps s).state.store = s.store ∧
    (startCueBody p ps s).state.freeCount = s.freeCount ∧ (startCueBody p ps s).state.pending = s.pending ∧
    (startCueBody p ps s).state.holdings = s.holdings := by
  unfold startCueBody
  try dsimp only
  (repeat' split) <;> simp [unchanged, State.clearCounters, modPort_holdings, modPorts_holdings]

@[simp] theorem startCueBody_after : (startCueBody p ps s).after t = t := by
  unfold startCueBody
  try dsimp only
  (repeat' split) <;> rfl

/-- R144: before the reply. -/
@[simp] theorem stopCueBody_frame :
    (stopCueBody p ps s).state.sources = s.sources ∧ (stopCueBody p ps s).state.slots = s.slots ∧
    (stopCueBody p ps s).state.stills = s.stills ∧ (stopCueBody p ps s).state.starvation = s.starvation ∧
    (stopCueBody p ps s).state.library = s.library ∧ (stopCueBody p ps s).state.screens = s.screens ∧
    (stopCueBody p ps s).state.rateA = s.rateA ∧ (stopCueBody p ps s).state.rateB = s.rateB ∧
    (stopCueBody p ps s).state.palette = s.palette ∧ (stopCueBody p ps s).state.ramp = s.ramp ∧
    (stopCueBody p ps s).state.rotations = s.rotations ∧ (stopCueBody p ps s).state.scenes = s.scenes ∧
    (stopCueBody p ps s).state.serial = s.serial ∧ (stopCueBody p ps s).state.job = s.job ∧
    (stopCueBody p ps s).state.cues = s.cues ∧ (stopCueBody p ps s).state.time = s.time ∧
    (stopCueBody p ps s).state.alarms = s.alarms ∧ (stopCueBody p ps s).state.triggers = s.triggers ∧
    (stopCueBody p ps s).state.served = s.served ∧ (stopCueBody p ps s).state.store = s.store ∧
    (stopCueBody p ps s).state.freeCount = s.freeCount ∧ (stopCueBody p ps s).state.pending = s.pending ∧
    (stopCueBody p ps s).state.holdings = s.holdings := by
  unfold stopCueBody
  try dsimp only
  (repeat' split) <;> simp [unchanged, State.clearCounters, modPort_holdings, modPorts_holdings]

@[simp] theorem stopCueBody_after : (stopCueBody p ps s).after t = t := by
  unfold stopCueBody
  try dsimp only
  (repeat' split) <;> rfl

/-- R145: before the reply. -/
@[simp] theorem resumeCueBody_frame :
    (resumeCueBody p ps s).state.sources = s.sources ∧ (resumeCueBody p ps s).state.slots = s.slots ∧
    (resumeCueBody p ps s).state.stills = s.stills ∧ (resumeCueBody p ps s).state.starvation = s.starvation ∧
    (resumeCueBody p ps s).state.library = s.library ∧ (resumeCueBody p ps s).state.screens = s.screens ∧
    (resumeCueBody p ps s).state.rateA = s.rateA ∧ (resumeCueBody p ps s).state.rateB = s.rateB ∧
    (resumeCueBody p ps s).state.palette = s.palette ∧ (resumeCueBody p ps s).state.ramp = s.ramp ∧
    (resumeCueBody p ps s).state.rotations = s.rotations ∧ (resumeCueBody p ps s).state.scenes = s.scenes ∧
    (resumeCueBody p ps s).state.serial = s.serial ∧ (resumeCueBody p ps s).state.job = s.job ∧
    (resumeCueBody p ps s).state.cues = s.cues ∧ (resumeCueBody p ps s).state.time = s.time ∧
    (resumeCueBody p ps s).state.alarms = s.alarms ∧ (resumeCueBody p ps s).state.triggers = s.triggers ∧
    (resumeCueBody p ps s).state.served = s.served ∧ (resumeCueBody p ps s).state.store = s.store ∧
    (resumeCueBody p ps s).state.freeCount = s.freeCount ∧ (resumeCueBody p ps s).state.pending = s.pending ∧
    (resumeCueBody p ps s).state.holdings = s.holdings := by
  unfold resumeCueBody
  try dsimp only
  (repeat' split) <;> simp [unchanged, State.clearCounters, modPort_holdings, modPorts_holdings]

@[simp] theorem resumeCueBody_after : (resumeCueBody p ps s).after t = t := by
  unfold resumeCueBody
  try dsimp only
  (repeat' split) <;> rfl

/-- R146: before the reply. -/
@[simp] theorem readRunnerBody_frame :
    (readRunnerBody p ps s).state.ports = s.ports ∧ (readRunnerBody p ps s).state.sources = s.sources ∧
    (readRunnerBody p ps s).state.slots = s.slots ∧ (readRunnerBody p ps s).state.stills = s.stills ∧
    (readRunnerBody p ps s).state.starvation = s.starvation ∧ (readRunnerBody p ps s).state.library = s.library ∧
    (readRunnerBody p ps s).state.screens = s.screens ∧ (readRunnerBody p ps s).state.rateA = s.rateA ∧
    (readRunnerBody p ps s).state.rateB = s.rateB ∧ (readRunnerBody p ps s).state.palette = s.palette ∧
    (readRunnerBody p ps s).state.ramp = s.ramp ∧ (readRunnerBody p ps s).state.rotations = s.rotations ∧
    (readRunnerBody p ps s).state.scenes = s.scenes ∧ (readRunnerBody p ps s).state.serial = s.serial ∧
    (readRunnerBody p ps s).state.job = s.job ∧ (readRunnerBody p ps s).state.cues = s.cues ∧
    (readRunnerBody p ps s).state.runners = s.runners ∧ (readRunnerBody p ps s).state.time = s.time ∧
    (readRunnerBody p ps s).state.alarms = s.alarms ∧ (readRunnerBody p ps s).state.triggers = s.triggers ∧
    (readRunnerBody p ps s).state.served = s.served ∧ (readRunnerBody p ps s).state.store = s.store ∧
    (readRunnerBody p ps s).state.pending = s.pending ∧ (readRunnerBody p ps s).state.holdings = s.holdings := by
  unfold readRunnerBody
  try dsimp only
  (repeat' split) <;> simp [unchanged, State.clearCounters, modPort_holdings, modPorts_holdings]

@[simp] theorem readRunnerBody_after : (readRunnerBody p ps s).after t = t := by
  unfold readRunnerBody
  try dsimp only
  (repeat' split) <;> rfl

/-- R149: before the reply. -/
@[simp] theorem setTimeBody_frame :
    (setTimeBody p ps s).state.ports = s.ports ∧ (setTimeBody p ps s).state.sources = s.sources ∧
    (setTimeBody p ps s).state.slots = s.slots ∧ (setTimeBody p ps s).state.stills = s.stills ∧
    (setTimeBody p ps s).state.starvation = s.starvation ∧ (setTimeBody p ps s).state.library = s.library ∧
    (setTimeBody p ps s).state.screens = s.screens ∧ (setTimeBody p ps s).state.rateA = s.rateA ∧
    (setTimeBody p ps s).state.rateB = s.rateB ∧ (setTimeBody p ps s).state.palette = s.palette ∧
    (setTimeBody p ps s).state.ramp = s.ramp ∧ (setTimeBody p ps s).state.rotations = s.rotations ∧
    (setTimeBody p ps s).state.scenes = s.scenes ∧ (setTimeBody p ps s).state.serial = s.serial ∧
    (setTimeBody p ps s).state.job = s.job ∧ (setTimeBody p ps s).state.cues = s.cues ∧
    (setTimeBody p ps s).state.runners = s.runners ∧ (setTimeBody p ps s).state.alarms = s.alarms ∧
    (setTimeBody p ps s).state.triggers = s.triggers ∧ (setTimeBody p ps s).state.served = s.served ∧
    (setTimeBody p ps s).state.store = s.store ∧ (setTimeBody p ps s).state.freeCount = s.freeCount ∧
    (setTimeBody p ps s).state.pending = s.pending ∧ (setTimeBody p ps s).state.holdings = s.holdings := by
  unfold setTimeBody
  try dsimp only
  (repeat' split) <;> simp [unchanged, State.clearCounters, modPort_holdings, modPorts_holdings]

@[simp] theorem setTimeBody_after : (setTimeBody p ps s).after t = t := by
  unfold setTimeBody
  try dsimp only
  (repeat' split) <;> rfl

/-- R152: before the reply. -/
@[simp] theorem setAlarmBody_frame :
    (setAlarmBody p ps s).state.ports = s.ports ∧ (setAlarmBody p ps s).state.sources = s.sources ∧
    (setAlarmBody p ps s).state.slots = s.slots ∧ (setAlarmBody p ps s).state.stills = s.stills ∧
    (setAlarmBody p ps s).state.starvation = s.starvation ∧ (setAlarmBody p ps s).state.library = s.library ∧
    (setAlarmBody p ps s).state.screens = s.screens ∧ (setAlarmBody p ps s).state.rateA = s.rateA ∧
    (setAlarmBody p ps s).state.rateB = s.rateB ∧ (setAlarmBody p ps s).state.palette = s.palette ∧
    (setAlarmBody p ps s).state.ramp = s.ramp ∧ (setAlarmBody p ps s).state.rotations = s.rotations ∧
    (setAlarmBody p ps s).state.scenes = s.scenes ∧ (setAlarmBody p ps s).state.serial = s.serial ∧
    (setAlarmBody p ps s).state.job = s.job ∧ (setAlarmBody p ps s).state.cues = s.cues ∧
    (setAlarmBody p ps s).state.runners = s.runners ∧ (setAlarmBody p ps s).state.time = s.time ∧
    (setAlarmBody p ps s).state.triggers = s.triggers ∧ (setAlarmBody p ps s).state.served = s.served ∧
    (setAlarmBody p ps s).state.store = s.store ∧ (setAlarmBody p ps s).state.freeCount = s.freeCount ∧
    (setAlarmBody p ps s).state.pending = s.pending ∧ (setAlarmBody p ps s).state.holdings = s.holdings := by
  unfold setAlarmBody
  try dsimp only
  (repeat' split) <;> simp [unchanged, State.clearCounters, modPort_holdings, modPorts_holdings]

@[simp] theorem setAlarmBody_after : (setAlarmBody p ps s).after t = t := by
  unfold setAlarmBody
  try dsimp only
  (repeat' split) <;> rfl

/-- R154: before the reply. -/
@[simp] theorem setTriggerBody_frame :
    (setTriggerBody p ps s).state.ports = s.ports ∧ (setTriggerBody p ps s).state.sources = s.sources ∧
    (setTriggerBody p ps s).state.slots = s.slots ∧ (setTriggerBody p ps s).state.stills = s.stills ∧
    (setTriggerBody p ps s).state.starvation = s.starvation ∧ (setTriggerBody p ps s).state.library = s.library ∧
    (setTriggerBody p ps s).state.screens = s.screens ∧ (setTriggerBody p ps s).state.rateA = s.rateA ∧
    (setTriggerBody p ps s).state.rateB = s.rateB ∧ (setTriggerBody p ps s).state.palette = s.palette ∧
    (setTriggerBody p ps s).state.ramp = s.ramp ∧ (setTriggerBody p ps s).state.rotations = s.rotations ∧
    (setTriggerBody p ps s).state.scenes = s.scenes ∧ (setTriggerBody p ps s).state.serial = s.serial ∧
    (setTriggerBody p ps s).state.job = s.job ∧ (setTriggerBody p ps s).state.cues = s.cues ∧
    (setTriggerBody p ps s).state.runners = s.runners ∧ (setTriggerBody p ps s).state.time = s.time ∧
    (setTriggerBody p ps s).state.alarms = s.alarms ∧ (setTriggerBody p ps s).state.served = s.served ∧
    (setTriggerBody p ps s).state.store = s.store ∧ (setTriggerBody p ps s).state.freeCount = s.freeCount ∧
    (setTriggerBody p ps s).state.pending = s.pending ∧ (setTriggerBody p ps s).state.holdings = s.holdings := by
  unfold setTriggerBody
  try dsimp only
  (repeat' split) <;> simp [unchanged, State.clearCounters, modPort_holdings, modPorts_holdings]

@[simp] theorem setTriggerBody_after : (setTriggerBody p ps s).after t = t := by
  unfold setTriggerBody
  try dsimp only
  (repeat' split) <;> rfl

/-- R166: before the reply. -/
@[simp] theorem setGrantBody_frame :
    (setGrantBody p ps s).state.sources = s.sources ∧ (setGrantBody p ps s).state.slots = s.slots ∧
    (setGrantBody p ps s).state.stills = s.stills ∧ (setGrantBody p ps s).state.starvation = s.starvation ∧
    (setGrantBody p ps s).state.library = s.library ∧ (setGrantBody p ps s).state.screens = s.screens ∧
    (setGrantBody p ps s).state.rateA = s.rateA ∧ (setGrantBody p ps s).state.rateB = s.rateB ∧
    (setGrantBody p ps s).state.palette = s.palette ∧ (setGrantBody p ps s).state.ramp = s.ramp ∧
    (setGrantBody p ps s).state.rotations = s.rotations ∧ (setGrantBody p ps s).state.scenes = s.scenes ∧
    (setGrantBody p ps s).state.serial = s.serial ∧ (setGrantBody p ps s).state.job = s.job ∧
    (setGrantBody p ps s).state.cues = s.cues ∧ (setGrantBody p ps s).state.runners = s.runners ∧
    (setGrantBody p ps s).state.time = s.time ∧ (setGrantBody p ps s).state.alarms = s.alarms ∧
    (setGrantBody p ps s).state.triggers = s.triggers ∧ (setGrantBody p ps s).state.served = s.served ∧
    (setGrantBody p ps s).state.store = s.store ∧ (setGrantBody p ps s).state.freeCount = s.freeCount ∧
    (setGrantBody p ps s).state.pending = s.pending := by
  unfold setGrantBody
  try dsimp only
  (repeat' split) <;> simp [unchanged, State.clearCounters, modPort_holdings, modPorts_holdings]

@[simp] theorem setGrantBody_after : (setGrantBody p ps s).after t = t := by
  unfold setGrantBody
  try dsimp only
  (repeat' split) <;> rfl

@[simp] theorem fetchConditionBody_state : (fetchConditionBody p ps s).state = s := rfl

/-- R163: after the reply. -/
@[simp] theorem fetchConditionBody_after :
    ((fetchConditionBody p ps t).after s).sources = s.sources ∧
    ((fetchConditionBody p ps t).after s).slots = s.slots ∧ ((fetchConditionBody p ps t).after s).stills = s.stills ∧
    ((fetchConditionBody p ps t).after s).starvation = s.starvation ∧
    ((fetchConditionBody p ps t).after s).library = s.library ∧
    ((fetchConditionBody p ps t).after s).screens = s.screens ∧
    ((fetchConditionBody p ps t).after s).rateA = s.rateA ∧ ((fetchConditionBody p ps t).after s).rateB = s.rateB ∧
    ((fetchConditionBody p ps t).after s).palette = s.palette ∧ ((fetchConditionBody p ps t).after s).ramp = s.ramp ∧
    ((fetchConditionBody p ps t).after s).rotations = s.rotations ∧
    ((fetchConditionBody p ps t).after s).scenes = s.scenes ∧
    ((fetchConditionBody p ps t).after s).serial = s.serial ∧ ((fetchConditionBody p ps t).after s).job = s.job ∧
    ((fetchConditionBody p ps t).after s).cues = s.cues ∧ ((fetchConditionBody p ps t).after s).runners = s.runners ∧
    ((fetchConditionBody p ps t).after s).time = s.time ∧ ((fetchConditionBody p ps t).after s).alarms = s.alarms ∧
    ((fetchConditionBody p ps t).after s).triggers = s.triggers ∧
    ((fetchConditionBody p ps t).after s).served = s.served ∧ ((fetchConditionBody p ps t).after s).store = s.store ∧
    ((fetchConditionBody p ps t).after s).freeCount = s.freeCount ∧
    ((fetchConditionBody p ps t).after s).pending = s.pending ∧
    ((fetchConditionBody p ps t).after s).holdings = s.holdings := by
  simp [fetchConditionBody]

@[simp] theorem statusBody_state : (statusBody p ps s).state = s := rfl

/-- R170: after the reply. -/
@[simp] theorem statusBody_after :
    ((statusBody p ps t).after s).sources = s.sources ∧ ((statusBody p ps t).after s).slots = s.slots ∧
    ((statusBody p ps t).after s).stills = s.stills ∧ ((statusBody p ps t).after s).starvation = s.starvation ∧
    ((statusBody p ps t).after s).library = s.library ∧ ((statusBody p ps t).after s).screens = s.screens ∧
    ((statusBody p ps t).after s).rateA = s.rateA ∧ ((statusBody p ps t).after s).rateB = s.rateB ∧
    ((statusBody p ps t).after s).palette = s.palette ∧ ((statusBody p ps t).after s).ramp = s.ramp ∧
    ((statusBody p ps t).after s).rotations = s.rotations ∧ ((statusBody p ps t).after s).scenes = s.scenes ∧
    ((statusBody p ps t).after s).serial = s.serial ∧ ((statusBody p ps t).after s).job = s.job ∧
    ((statusBody p ps t).after s).cues = s.cues ∧ ((statusBody p ps t).after s).runners = s.runners ∧
    ((statusBody p ps t).after s).time = s.time ∧ ((statusBody p ps t).after s).alarms = s.alarms ∧
    ((statusBody p ps t).after s).triggers = s.triggers ∧ ((statusBody p ps t).after s).served = s.served ∧
    ((statusBody p ps t).after s).store = s.store ∧ ((statusBody p ps t).after s).freeCount = s.freeCount ∧
    ((statusBody p ps t).after s).pending = s.pending ∧ ((statusBody p ps t).after s).holdings = s.holdings := by
  simp [statusBody]

@[simp] theorem restartBody_state : (restartBody p ps s).state = s := rfl

/-- R167: after the reply. -/
@[simp] theorem restartBody_after :
    ((restartBody p ps t).after s).starvation = s.starvation ∧ ((restartBody p ps t).after s).library = s.library ∧
    ((restartBody p ps t).after s).rateA = s.rateA ∧ ((restartBody p ps t).after s).rateB = s.rateB ∧
    ((restartBody p ps t).after s).palette = s.palette ∧ ((restartBody p ps t).after s).ramp = s.ramp ∧
    ((restartBody p ps t).after s).rotations = s.rotations ∧ ((restartBody p ps t).after s).scenes = s.scenes ∧
    ((restartBody p ps t).after s).serial = s.serial ∧ ((restartBody p ps t).after s).cues = s.cues ∧
    ((restartBody p ps t).after s).time = s.time ∧ ((restartBody p ps t).after s).alarms = s.alarms ∧
    ((restartBody p ps t).after s).triggers = s.triggers ∧ ((restartBody p ps t).after s).pending = s.pending := by
  simp [restartBody]

/-- R172: before the reply. -/
@[simp] theorem saveTablesBody_frame :
    (saveTablesBody p ps s).state.ports = s.ports ∧ (saveTablesBody p ps s).state.sources = s.sources ∧
    (saveTablesBody p ps s).state.slots = s.slots ∧ (saveTablesBody p ps s).state.stills = s.stills ∧
    (saveTablesBody p ps s).state.starvation = s.starvation ∧ (saveTablesBody p ps s).state.library = s.library ∧
    (saveTablesBody p ps s).state.screens = s.screens ∧ (saveTablesBody p ps s).state.rateA = s.rateA ∧
    (saveTablesBody p ps s).state.rateB = s.rateB ∧ (saveTablesBody p ps s).state.palette = s.palette ∧
    (saveTablesBody p ps s).state.ramp = s.ramp ∧ (saveTablesBody p ps s).state.rotations = s.rotations ∧
    (saveTablesBody p ps s).state.scenes = s.scenes ∧ (saveTablesBody p ps s).state.serial = s.serial ∧
    (saveTablesBody p ps s).state.job = s.job ∧ (saveTablesBody p ps s).state.cues = s.cues ∧
    (saveTablesBody p ps s).state.runners = s.runners ∧ (saveTablesBody p ps s).state.time = s.time ∧
    (saveTablesBody p ps s).state.alarms = s.alarms ∧ (saveTablesBody p ps s).state.triggers = s.triggers ∧
    (saveTablesBody p ps s).state.served = s.served ∧ (saveTablesBody p ps s).state.freeCount = s.freeCount ∧
    (saveTablesBody p ps s).state.pending = s.pending ∧ (saveTablesBody p ps s).state.holdings = s.holdings := by
  unfold saveTablesBody
  try dsimp only
  (repeat' split) <;> simp [unchanged, State.clearCounters, modPort_holdings, modPorts_holdings]

@[simp] theorem saveTablesBody_after : (saveTablesBody p ps s).after t = t := by
  unfold saveTablesBody
  try dsimp only
  (repeat' split) <;> rfl

end

end Sys2Proof.Machine
end

