-- ==== Sys2Proof/Laws/Marks.lean ====
section
/-! SUPPORT. States that differ in change marks at most, and the writes that mark what has changed. -/

namespace Sys2Proof.Machine

theorem SameButMarks.refl (s : State) : SameButMarks s s := rfl

theorem SameButMarks.symm {t u : State} (h : SameButMarks t u) : SameButMarks u t := Eq.symm h

theorem SameButMarks.trans {t u v : State} (h : SameButMarks t u) (k : SameButMarks u v) : SameButMarks t v := Eq.trans h k

/-- Equal states differ in nothing. -/
theorem SameButMarks.of_eq {t u : State} (h : t = u) : SameButMarks t u := h ▸ rfl

/-- Every port but for its marks. -/
theorem SameButMarks.port {t u : State} (h : SameButMarks t u) (p : Fin 16) : t.ports[p].unmarked = u.ports[p].unmarked := by
  unfold SameButMarks State.unmarked at h
  injection h with k
  have l : (mapTable Port.unmarked t.ports)[p] = (mapTable Port.unmarked u.ports)[p] := by rw [k]
  rwa [mapTable_get, mapTable_get] at l

/-- The ports pointwise and everything else together. -/
theorem sameButMarks_iff {t u : State} :
    SameButMarks t u ↔ (∀ p : Fin 16, t.ports[p].unmarked = u.ports[p].unmarked) ∧ { t with ports := u.ports } = u := by
  constructor
  · intro h
    refine ⟨h.port, ?_⟩
    unfold SameButMarks State.unmarked at h
    obtain ⟨⟩ := t
    obtain ⟨⟩ := u
    simp only [State.mk.injEq, true_and] at h ⊢
    exact h.2
  · rintro ⟨h, k⟩
    have m : mapTable Port.unmarked t.ports = mapTable Port.unmarked u.ports :=
      table_ext fun p => by rw [mapTable_get, mapTable_get, h p]
    obtain ⟨⟩ := t
    obtain ⟨⟩ := u
    unfold SameButMarks State.unmarked
    simp only [State.mk.injEq, true_and] at k m ⊢
    exact ⟨m, k⟩

/-! ### Every field of two such states -/

theorem SameButMarks.sources {t u : State} (h : SameButMarks t u) : t.sources = u.sources := by
  unfold SameButMarks State.unmarked at h; injection h
theorem SameButMarks.slots {t u : State} (h : SameButMarks t u) : t.slots = u.slots := by
  unfold SameButMarks State.unmarked at h; injection h
theorem SameButMarks.stills {t u : State} (h : SameButMarks t u) : t.stills = u.stills := by
  unfold SameButMarks State.unmarked at h; injection h
theorem SameButMarks.starvation {t u : State} (h : SameButMarks t u) : t.starvation = u.starvation := by
  unfold SameButMarks State.unmarked at h; injection h
theorem SameButMarks.library {t u : State} (h : SameButMarks t u) : t.library = u.library := by
  unfold SameButMarks State.unmarked at h; injection h
theorem SameButMarks.screens {t u : State} (h : SameButMarks t u) : t.screens = u.screens := by
  unfold SameButMarks State.unmarked at h; injection h
theorem SameButMarks.rateA {t u : State} (h : SameButMarks t u) : t.rateA = u.rateA := by
  unfold SameButMarks State.unmarked at h; injection h
theorem SameButMarks.rateB {t u : State} (h : SameButMarks t u) : t.rateB = u.rateB := by
  unfold SameButMarks State.unmarked at h; injection h
theorem SameButMarks.palette {t u : State} (h : SameButMarks t u) : t.palette = u.palette := by
  unfold SameButMarks State.unmarked at h; injection h
theorem SameButMarks.ramp {t u : State} (h : SameButMarks t u) : t.ramp = u.ramp := by
  unfold SameButMarks State.unmarked at h; injection h
theorem SameButMarks.rotations {t u : State} (h : SameButMarks t u) : t.rotations = u.rotations := by
  unfold SameButMarks State.unmarked at h; injection h
theorem SameButMarks.scenes {t u : State} (h : SameButMarks t u) : t.scenes = u.scenes := by
  unfold SameButMarks State.unmarked at h; injection h
theorem SameButMarks.serial {t u : State} (h : SameButMarks t u) : t.serial = u.serial := by
  unfold SameButMarks State.unmarked at h; injection h
theorem SameButMarks.job {t u : State} (h : SameButMarks t u) : t.job = u.job := by
  unfold SameButMarks State.unmarked at h; injection h
theorem SameButMarks.cues {t u : State} (h : SameButMarks t u) : t.cues = u.cues := by
  unfold SameButMarks State.unmarked at h; injection h
theorem SameButMarks.runners {t u : State} (h : SameButMarks t u) : t.runners = u.runners := by
  unfold SameButMarks State.unmarked at h; injection h
theorem SameButMarks.time {t u : State} (h : SameButMarks t u) : t.time = u.time := by
  unfold SameButMarks State.unmarked at h; injection h
theorem SameButMarks.alarms {t u : State} (h : SameButMarks t u) : t.alarms = u.alarms := by
  unfold SameButMarks State.unmarked at h; injection h
theorem SameButMarks.triggers {t u : State} (h : SameButMarks t u) : t.triggers = u.triggers := by
  unfold SameButMarks State.unmarked at h; injection h
theorem SameButMarks.served {t u : State} (h : SameButMarks t u) : t.served = u.served := by
  unfold SameButMarks State.unmarked at h; injection h
theorem SameButMarks.store {t u : State} (h : SameButMarks t u) : t.store = u.store := by
  unfold SameButMarks State.unmarked at h; injection h
theorem SameButMarks.freeCount {t u : State} (h : SameButMarks t u) : t.freeCount = u.freeCount := by
  unfold SameButMarks State.unmarked at h; injection h
theorem SameButMarks.pending {t u : State} (h : SameButMarks t u) : t.pending = u.pending := by
  unfold SameButMarks State.unmarked at h; injection h

theorem SameButMarks.port_link {t u : State} (h : SameButMarks t u) (p : Fin 16) : t.ports[p].link = u.ports[p].link := by
  have k := h.port p; unfold Port.unmarked at k; injection k
theorem SameButMarks.port_goodRun {t u : State} (h : SameButMarks t u) (p : Fin 16) : t.ports[p].goodRun = u.ports[p].goodRun := by
  have k := h.port p; unfold Port.unmarked at k; injection k
theorem SameButMarks.port_badRun {t u : State} (h : SameButMarks t u) (p : Fin 16) : t.ports[p].badRun = u.ports[p].badRun := by
  have k := h.port p; unfold Port.unmarked at k; injection k
theorem SameButMarks.port_silence {t u : State} (h : SameButMarks t u) (p : Fin 16) : t.ports[p].silence = u.ports[p].silence := by
  have k := h.port p; unfold Port.unmarked at k; injection k
theorem SameButMarks.port_assembly {t u : State} (h : SameButMarks t u) (p : Fin 16) : t.ports[p].assembly = u.ports[p].assembly := by
  have k := h.port p; unfold Port.unmarked at k; injection k
theorem SameButMarks.port_reference {t u : State} (h : SameButMarks t u) (p : Fin 16) : t.ports[p].reference = u.ports[p].reference := by
  have k := h.port p; unfold Port.unmarked at k; injection k
theorem SameButMarks.port_counters {t u : State} (h : SameButMarks t u) (p : Fin 16) : t.ports[p].counters = u.ports[p].counters := by
  have k := h.port p; unfold Port.unmarked at k; injection k
theorem SameButMarks.port_grant {t u : State} (h : SameButMarks t u) (p : Fin 16) : t.ports[p].grant = u.ports[p].grant := by
  have k := h.port p; unfold Port.unmarked at k; injection k
theorem SameButMarks.port_queue {t u : State} (h : SameButMarks t u) (p : Fin 16) : t.ports[p].queue = u.ports[p].queue := by
  have k := h.port p; unfold Port.unmarked at k; injection k
theorem SameButMarks.port_condition {t u : State} (h : SameButMarks t u) (p : Fin 16) : t.ports[p].condition = u.ports[p].condition := by
  have k := h.port p; unfold Port.unmarked at k; injection k
theorem SameButMarks.port_attention {t u : State} (h : SameButMarks t u) (p : Fin 16) : t.ports[p].attention = u.ports[p].attention := by
  have k := h.port p; unfold Port.unmarked at k; injection k
theorem SameButMarks.port_lane {t u : State} (h : SameButMarks t u) (p : Fin 16) : t.ports[p].lane = u.ports[p].lane := by
  have k := h.port p; unfold Port.unmarked at k; injection k

/-! ### Operations on two such states -/

/-- States whose ports agree but for the marks, and which agree in the rest. -/
theorem sameButMarks_of {t u : State} (h : ∀ p : Fin 16, t.ports[p].unmarked = u.ports[p].unmarked)
    (k : { t with ports := u.ports } = u) : SameButMarks t u := sameButMarks_iff.2 ⟨h, k⟩

/-- Everything but the ports. -/
theorem SameButMarks.rest {t u : State} (h : SameButMarks t u) (ps : Vector Port 16) :
    { t with ports := ps } = { u with ports := ps } := by
  have k := (sameButMarks_iff.1 h).2
  rw [← k]

/-- A change of one port that does not read its marks. -/
theorem SameButMarks.modPort {t u : State} (h : SameButMarks t u) (p : Fin 16) (f g : Port → Port)
    (hf : (f t.ports[p]).unmarked = (g u.ports[p]).unmarked) : SameButMarks (t.modPort p f) (u.modPort p g) := by
  refine sameButMarks_of (fun q => ?_) ?_
  · simp only [State.modPort_ports, put_get]
    split
    · exact hf
    · exact h.port q
  · unfold State.modPort
    exact h.rest _

/-- The same change of anything but the ports, made in both. -/
theorem SameButMarks.with {t u : State} (h : SameButMarks t u) (f : State → State)
    (hf : ∀ (v : State) (ps : Vector Port 16), f { v with ports := ps } = { f v with ports := ps }) :
    SameButMarks (f t) (f u) := by
  have hp : ∀ v : State, (f v).ports = v.ports := fun v => by
    have k : f v = { f v with ports := v.ports } := hf v v.ports
    rw [k]
  refine sameButMarks_of (fun p => ?_) ?_
  · rw [hp, hp]
    exact h.port p
  · rw [hp, ← hf, (sameButMarks_iff.1 h).2]

/-- A change of every port's marks. -/
theorem modPorts_same (f : Port → Port) (hf : ∀ x : Port, (f x).unmarked = x.unmarked) (s : State) :
    SameButMarks (s.modPorts f) s := by
  refine sameButMarks_of (fun p => ?_) ?_
  · rw [State.modPorts_ports, mapTable_get, hf]
  · unfold State.modPorts
    rfl

theorem markSource_same (i : Fin 16) (s : State) : SameButMarks (s.markSource i) s := by
  unfold State.markSource
  exact modPorts_same _ (fun x => by unfold Port.unmarked; rfl) s

theorem markScreen_same (c : Fin 24) (s : State) : SameButMarks (s.markScreen c) s := by
  unfold State.markScreen
  exact modPorts_same _ (fun x => by unfold Port.unmarked; rfl) s

theorem markRunner_same (r : Fin 4) (s : State) : SameButMarks (s.markRunner r) s := by
  unfold State.markRunner
  exact modPorts_same _ (fun x => by unfold Port.unmarked; rfl) s

theorem markTake_same (s : State) : SameButMarks s.markTake s := by
  unfold State.markTake
  exact modPorts_same _ (fun x => by unfold Port.unmarked; rfl) s

/-- R32: a source's state is written, and a change of it marks the source. -/
theorem setSourceState_same (i : Fin 16) (st : SourceState) (s : State) :
    SameButMarks (s.setSourceState i st) (s.withSource i { s.sources[i] with state := st }) := by
  unfold State.setSourceState
  dsimp only
  split
  · rfl
  · exact markSource_same _ _

/-- R71: a screen is written, and a change of its state or standby state marks it. -/
theorem setScreen_same (c : Fin 24) (x : Screen) (s : State) : SameButMarks (s.setScreen c x) (s.withScreen c x) := by
  unfold State.setScreen
  dsimp only
  split
  · rfl
  · exact markScreen_same _ _

/-- R138: a runner is written, and a change of its state marks it. -/
theorem setRunner_same (r : Fin 4) (x : Runner) (s : State) : SameButMarks (s.setRunner r x) (s.withRunner r x) := by
  unfold State.setRunner
  dsimp only
  split
  · rfl
  · exact markRunner_same _ _

/-- R113: the job is written, and a change of its phase or of an outcome marks the take job. -/
theorem setJob_same (j : Job) (s : State) : SameButMarks (s.setJob j) { s with job := some j } := by
  unfold State.setJob
  dsimp only
  split
  · rfl
  · exact markTake_same _

/-- A source's state that stays marks nothing. -/
theorem setSourceState_of_same {i : Fin 16} {st : SourceState} {s : State} (h : s.sources[i].state = st) :
    s.setSourceState i st = s := by
  unfold State.setSourceState
  rw [if_pos h, ← h]
  show { s with sources := put s.sources i s.sources[i] } = s
  rw [put_self]

/-- A screen whose two states stay marks nothing. -/
theorem setScreen_of_same {c : Fin 24} {x : Screen} {s : State} (h : s.screens[c].state = x.state)
    (k : s.screens[c].standby.num = x.standby.num) : s.setScreen c x = s.withScreen c x := by
  unfold State.setScreen
  rw [if_pos ⟨h, k⟩]
  rfl

/-- A runner whose state stays marks nothing. -/
theorem setRunner_of_same {r : Fin 4} {x : Runner} {s : State} (h : s.runners[r].state.num = x.state.num) :
    s.setRunner r x = s.withRunner r x := by
  unfold State.setRunner
  rw [if_pos h]
  rfl

/-- R168: the wall fault code is from 0 to 8. -/
theorem wallFault_le (s : State) : s.wallFault ≤ 8 := by
  unfold State.wallFault
  split_ifs <;> decide

end Sys2Proof.Machine
end

