-- ==== Sys2Proof/Laws/Views.lean ====
section
/-! SUPPORT. What each computed view of the state is read from: states that agree there agree in the view. -/

namespace Sys2Proof.Machine

variable {t u : State}

/-- The READY slot of a source (R38) is read from the slots. -/
theorem readySlot_congr (i : Fin 16) (a : t.slots = u.slots) : t.readySlot i = u.readySlot i := by
  unfold State.readySlot
  rw [a]

/-- The FILLING slot of a source is read from the slots. -/
theorem fillingSlot_congr (i : Fin 16) (a : t.slots = u.slots) : t.fillingSlot i = u.fillingSlot i := by
  unfold State.fillingSlot
  rw [a]

/-- The slot that a grant takes is read from the slots. -/
theorem freeSlot_congr (a : t.slots = u.slots) : t.freeSlot = u.freeSlot := by
  unfold State.freeSlot
  rw [a]

/-- The number of FREE slots is read from the slots. -/
theorem freeSlots_congr (a : t.slots = u.slots) : t.freeSlots = u.freeSlots := by
  unfold State.freeSlots
  rw [a]

/-- Eligibility (R18) is read from the sources and the slots. -/
theorem eligible_congr (i : Fin 16) (a : t.sources = u.sources) (b : t.slots = u.slots) : t.eligible i = u.eligible i := by
  unfold State.eligible
  rw [readySlot_congr i b, a]

/-- Starvation is read from its record. -/
theorem starving_congr (a : t.starvation = u.starvation) : t.starving = u.starving := by
  unfold State.starving
  rw [a]

/-- Whether the engine is BUSY is read from the job. -/
theorem engineBusy_congr (a : t.job = u.job) : t.engineBusy = u.engineBusy := by
  unfold State.engineBusy
  rw [a]

/-- The job in progress is read from the job. -/
theorem currentJob_congr (a : t.job = u.job) : t.currentJob = u.currentJob := by
  unfold State.currentJob
  rw [engineBusy_congr a, a]

/-- Membership is read from the job. -/
theorem pendingMember_congr (c : Fin 24) (a : t.job = u.job) : t.pendingMember c = u.pendingMember c := by
  unfold State.pendingMember
  rw [currentJob_congr a]

/-- The waiting set is read from the runners. -/
theorem waitingTake_congr (r : Fin 4) (a : t.runners = u.runners) : t.waitingTake r = u.waitingTake r := by
  unfold State.waitingTake
  rw [a]

/-- SAVING is read from the store. -/
theorem saving_congr (a : t.store = u.store) : t.saving = u.saving := by
  unfold State.saving
  rw [a]

/-- START-UP LOAD is read from the store. -/
theorem loading_congr (a : t.store = u.store) : t.loading = u.loading := by
  unfold State.loading
  rw [a]

/-- Whether a runner can be started is read from the runners. -/
theorem canStart_congr (r : Fin 4) (a : t.runners = u.runners) : t.canStart r = u.canStart r := by
  unfold State.canStart
  rw [a]

/-- R73: a cadence's use is read from the screens. -/
theorem cadenceInUse_congr (k : Cadence) (a : t.screens = u.screens) : t.cadenceInUse k = u.cadenceInUse k := by
  unfold State.cadenceInUse
  rw [a]

/-- A runner's entry is read from the runners and the cue store. -/
theorem entryAt_congr (r : Fin 4) (a : t.runners = u.runners) (b : t.cues = u.cues) : t.entryAt r = u.entryAt r := by
  unfold State.entryAt
  rw [a, b]

/-- R66: what holds an entry is read from the store and the job. -/
theorem entryBusy_congr (e : Fin 128) (a : t.store = u.store) (b : t.job = u.job) : t.entryBusy e = u.entryBusy e := by
  unfold State.entryBusy
  rw [saving_congr a, b]

/-- R111: what holds a scene is read from the store and the job. -/
theorem sceneBusy_congr (n : Fin 32) (a : t.store = u.store) (b : t.job = u.job) : t.sceneBusy n = u.sceneBusy n := by
  unfold State.sceneBusy
  rw [saving_congr a, b]

/-- R168: the wall fault code reads no port. -/
theorem wallFault_congr (a : t.sources = u.sources) (b : t.screens = u.screens) (c : t.starvation = u.starvation) (d : t.runners = u.runners) (e : t.job = u.job) (f : t.time = u.time) (g : t.alarms = u.alarms) (h : t.store = u.store) : t.wallFault = u.wallFault := by
  unfold State.wallFault State.starving State.shownWindows State.windowFeedIs
  rw [a, b, c, d, e, f, g, h]

/-! ### The views after a change of one port, and of two states that differ in marks -/

@[simp] theorem modPort_readySlot (s : State) (p : Fin 16) (f : Port → Port) (i : Fin 16) :
    (s.modPort p f).readySlot i = s.readySlot i := readySlot_congr i (s.modPort_slots p f)
@[simp] theorem modPort_fillingSlot (s : State) (p : Fin 16) (f : Port → Port) (i : Fin 16) :
    (s.modPort p f).fillingSlot i = s.fillingSlot i := fillingSlot_congr i (s.modPort_slots p f)
@[simp] theorem modPort_freeSlot (s : State) (p : Fin 16) (f : Port → Port) :
    (s.modPort p f).freeSlot = s.freeSlot := freeSlot_congr (s.modPort_slots p f)
@[simp] theorem modPort_freeSlots (s : State) (p : Fin 16) (f : Port → Port) :
    (s.modPort p f).freeSlots = s.freeSlots := freeSlots_congr (s.modPort_slots p f)
@[simp] theorem modPort_eligible (s : State) (p : Fin 16) (f : Port → Port) (i : Fin 16) :
    (s.modPort p f).eligible i = s.eligible i := eligible_congr i (s.modPort_sources p f) (s.modPort_slots p f)
@[simp] theorem modPort_starving (s : State) (p : Fin 16) (f : Port → Port) :
    (s.modPort p f).starving = s.starving := starving_congr (s.modPort_starvation p f)
@[simp] theorem modPort_engineBusy (s : State) (p : Fin 16) (f : Port → Port) :
    (s.modPort p f).engineBusy = s.engineBusy := engineBusy_congr (s.modPort_job p f)
@[simp] theorem modPort_currentJob (s : State) (p : Fin 16) (f : Port → Port) :
    (s.modPort p f).currentJob = s.currentJob := currentJob_congr (s.modPort_job p f)
@[simp] theorem modPort_pendingMember (s : State) (p : Fin 16) (f : Port → Port) (c : Fin 24) :
    (s.modPort p f).pendingMember c = s.pendingMember c := pendingMember_congr c (s.modPort_job p f)
@[simp] theorem modPort_waitingTake (s : State) (p : Fin 16) (f : Port → Port) (r : Fin 4) :
    (s.modPort p f).waitingTake r = s.waitingTake r := waitingTake_congr r (s.modPort_runners p f)
@[simp] theorem modPort_saving (s : State) (p : Fin 16) (f : Port → Port) :
    (s.modPort p f).saving = s.saving := saving_congr (s.modPort_store p f)
@[simp] theorem modPort_loading (s : State) (p : Fin 16) (f : Port → Port) :
    (s.modPort p f).loading = s.loading := loading_congr (s.modPort_store p f)
@[simp] theorem modPort_canStart (s : State) (p : Fin 16) (f : Port → Port) (r : Fin 4) :
    (s.modPort p f).canStart r = s.canStart r := canStart_congr r (s.modPort_runners p f)
@[simp] theorem modPort_cadenceInUse (s : State) (p : Fin 16) (f : Port → Port) (k : Cadence) :
    (s.modPort p f).cadenceInUse k = s.cadenceInUse k := cadenceInUse_congr k (s.modPort_screens p f)
@[simp] theorem modPort_entryAt (s : State) (p : Fin 16) (f : Port → Port) (r : Fin 4) :
    (s.modPort p f).entryAt r = s.entryAt r := entryAt_congr r (s.modPort_runners p f) (s.modPort_cues p f)
@[simp] theorem modPort_entryBusy (s : State) (p : Fin 16) (f : Port → Port) (e : Fin 128) :
    (s.modPort p f).entryBusy e = s.entryBusy e := entryBusy_congr e (s.modPort_store p f) (s.modPort_job p f)
@[simp] theorem modPort_sceneBusy (s : State) (p : Fin 16) (f : Port → Port) (n : Fin 32) :
    (s.modPort p f).sceneBusy n = s.sceneBusy n := sceneBusy_congr n (s.modPort_store p f) (s.modPort_job p f)
@[simp] theorem modPort_wallFault (s : State) (p : Fin 16) (f : Port → Port) :
    (s.modPort p f).wallFault = s.wallFault := wallFault_congr (s.modPort_sources p f) (s.modPort_screens p f) (s.modPort_starvation p f) (s.modPort_runners p f) (s.modPort_job p f) (s.modPort_time p f) (s.modPort_alarms p f) (s.modPort_store p f)
theorem SameButMarks.readySlot (h : SameButMarks t u) (i : Fin 16) : t.readySlot i = u.readySlot i := readySlot_congr i h.slots
theorem SameButMarks.fillingSlot (h : SameButMarks t u) (i : Fin 16) : t.fillingSlot i = u.fillingSlot i := fillingSlot_congr i h.slots
theorem SameButMarks.freeSlot (h : SameButMarks t u) : t.freeSlot = u.freeSlot := freeSlot_congr h.slots
theorem SameButMarks.freeSlots (h : SameButMarks t u) : t.freeSlots = u.freeSlots := freeSlots_congr h.slots
theorem SameButMarks.eligible (h : SameButMarks t u) (i : Fin 16) : t.eligible i = u.eligible i := eligible_congr i h.sources h.slots
theorem SameButMarks.starving (h : SameButMarks t u) : t.starving = u.starving := starving_congr h.starvation
theorem SameButMarks.engineBusy (h : SameButMarks t u) : t.engineBusy = u.engineBusy := engineBusy_congr h.job
theorem SameButMarks.currentJob (h : SameButMarks t u) : t.currentJob = u.currentJob := currentJob_congr h.job
theorem SameButMarks.pendingMember (h : SameButMarks t u) (c : Fin 24) : t.pendingMember c = u.pendingMember c := pendingMember_congr c h.job
theorem SameButMarks.waitingTake (h : SameButMarks t u) (r : Fin 4) : t.waitingTake r = u.waitingTake r := waitingTake_congr r h.runners
theorem SameButMarks.saving (h : SameButMarks t u) : t.saving = u.saving := saving_congr h.store
theorem SameButMarks.loading (h : SameButMarks t u) : t.loading = u.loading := loading_congr h.store
theorem SameButMarks.canStart (h : SameButMarks t u) (r : Fin 4) : t.canStart r = u.canStart r := canStart_congr r h.runners
theorem SameButMarks.cadenceInUse (h : SameButMarks t u) (k : Cadence) : t.cadenceInUse k = u.cadenceInUse k := cadenceInUse_congr k h.screens
theorem SameButMarks.entryAt (h : SameButMarks t u) (r : Fin 4) : t.entryAt r = u.entryAt r := entryAt_congr r h.runners h.cues
theorem SameButMarks.entryBusy (h : SameButMarks t u) (e : Fin 128) : t.entryBusy e = u.entryBusy e := entryBusy_congr e h.store h.job
theorem SameButMarks.sceneBusy (h : SameButMarks t u) (n : Fin 32) : t.sceneBusy n = u.sceneBusy n := sceneBusy_congr n h.store h.job
theorem SameButMarks.wallFault (h : SameButMarks t u) : t.wallFault = u.wallFault := wallFault_congr h.sources h.screens h.starvation h.runners h.job h.time h.alarms h.store

/-- R168: a change of a source record other than of its state leaves the wall fault code. -/
theorem modSource_wallFault (s : State) (i : Fin 16) (f : Source → Source) (h : ∀ x : Source, (f x).state = x.state) :
    (s.modSource i f).wallFault = s.wallFault := by
  have k : (s.modSource i f).windowFeedIs = s.windowFeedIs := by
    funext st w
    unfold State.windowFeedIs State.modSource
    split
    · next e =>
      rw [put_getElem]
      split
      · next j =>
        rw [h]
        simp only [← j, Fin.getElem_fin]
      · rfl
    · rfl
  unfold State.wallFault
  rw [k]
  rfl

end Sys2Proof.Machine
end

