-- ==== Sys2Proof/Laws/Requests.lean ====
section
/-! SUPPORT. The service of a request: what its beginning and its reply leave, and what the three answers of an owning
block come to. -/

namespace Sys2Proof.Machine

/-! ### Every field when a service begins (R158, R159) -/

section
variable (p : Fin 16) (s : State)

@[simp] theorem beginService_ports : (s.beginService p).ports = put s.ports p { s.ports[p] with queue := s.ports[p].queue.tail } := by
  unfold State.beginService State.modPort; rfl
@[simp] theorem beginService_sources : (s.beginService p).sources = s.sources := by
  unfold State.beginService State.modPort; rfl
@[simp] theorem beginService_slots : (s.beginService p).slots = s.slots := by
  unfold State.beginService State.modPort; rfl
@[simp] theorem beginService_stills : (s.beginService p).stills = s.stills := by
  unfold State.beginService State.modPort; rfl
@[simp] theorem beginService_starvation : (s.beginService p).starvation = s.starvation := by
  unfold State.beginService State.modPort; rfl
@[simp] theorem beginService_library : (s.beginService p).library = s.library := by
  unfold State.beginService State.modPort; rfl
@[simp] theorem beginService_screens : (s.beginService p).screens = s.screens := by
  unfold State.beginService State.modPort; rfl
@[simp] theorem beginService_rateA : (s.beginService p).rateA = s.rateA := by
  unfold State.beginService State.modPort; rfl
@[simp] theorem beginService_rateB : (s.beginService p).rateB = s.rateB := by
  unfold State.beginService State.modPort; rfl
@[simp] theorem beginService_palette : (s.beginService p).palette = s.palette := by
  unfold State.beginService State.modPort; rfl
@[simp] theorem beginService_ramp : (s.beginService p).ramp = s.ramp := by
  unfold State.beginService State.modPort; rfl
@[simp] theorem beginService_rotations : (s.beginService p).rotations = s.rotations := by
  unfold State.beginService State.modPort; rfl
@[simp] theorem beginService_scenes : (s.beginService p).scenes = s.scenes := by
  unfold State.beginService State.modPort; rfl
@[simp] theorem beginService_serial : (s.beginService p).serial = s.serial := by
  unfold State.beginService State.modPort; rfl
@[simp] theorem beginService_job : (s.beginService p).job = s.job := by
  unfold State.beginService State.modPort; rfl
@[simp] theorem beginService_cues : (s.beginService p).cues = s.cues := by
  unfold State.beginService State.modPort; rfl
@[simp] theorem beginService_runners : (s.beginService p).runners = s.runners := by
  unfold State.beginService State.modPort; rfl
@[simp] theorem beginService_time : (s.beginService p).time = s.time := by
  unfold State.beginService State.modPort; rfl
@[simp] theorem beginService_alarms : (s.beginService p).alarms = s.alarms := by
  unfold State.beginService State.modPort; rfl
@[simp] theorem beginService_triggers : (s.beginService p).triggers = s.triggers := by
  unfold State.beginService State.modPort; rfl
@[simp] theorem beginService_served : (s.beginService p).served = p := by
  unfold State.beginService State.modPort; rfl
@[simp] theorem beginService_store : (s.beginService p).store = s.store := by
  unfold State.beginService State.modPort; rfl
@[simp] theorem beginService_freeCount : (s.beginService p).freeCount = s.freeCount := by
  unfold State.beginService State.modPort; rfl
@[simp] theorem beginService_pending : (s.beginService p).pending = s.pending := by
  unfold State.beginService State.modPort; rfl

end

/-! ### Every field after a reply (R161): only the ports change -/

section
variable (p : Fin 16) (r : Request) (status : ReplyStatus) (result : List Byte) (s : State)

@[simp] theorem reply_sources : (s.reply p r status result).sources = s.sources := by
  unfold State.reply; rfl
@[simp] theorem reply_slots : (s.reply p r status result).slots = s.slots := by
  unfold State.reply; rfl
@[simp] theorem reply_stills : (s.reply p r status result).stills = s.stills := by
  unfold State.reply; rfl
@[simp] theorem reply_starvation : (s.reply p r status result).starvation = s.starvation := by
  unfold State.reply; rfl
@[simp] theorem reply_library : (s.reply p r status result).library = s.library := by
  unfold State.reply; rfl
@[simp] theorem reply_screens : (s.reply p r status result).screens = s.screens := by
  unfold State.reply; rfl
@[simp] theorem reply_rateA : (s.reply p r status result).rateA = s.rateA := by
  unfold State.reply; rfl
@[simp] theorem reply_rateB : (s.reply p r status result).rateB = s.rateB := by
  unfold State.reply; rfl
@[simp] theorem reply_palette : (s.reply p r status result).palette = s.palette := by
  unfold State.reply; rfl
@[simp] theorem reply_ramp : (s.reply p r status result).ramp = s.ramp := by
  unfold State.reply; rfl
@[simp] theorem reply_rotations : (s.reply p r status result).rotations = s.rotations := by
  unfold State.reply; rfl
@[simp] theorem reply_scenes : (s.reply p r status result).scenes = s.scenes := by
  unfold State.reply; rfl
@[simp] theorem reply_serial : (s.reply p r status result).serial = s.serial := by
  unfold State.reply; rfl
@[simp] theorem reply_job : (s.reply p r status result).job = s.job := by
  unfold State.reply; rfl
@[simp] theorem reply_cues : (s.reply p r status result).cues = s.cues := by
  unfold State.reply; rfl
@[simp] theorem reply_runners : (s.reply p r status result).runners = s.runners := by
  unfold State.reply; rfl
@[simp] theorem reply_time : (s.reply p r status result).time = s.time := by
  unfold State.reply; rfl
@[simp] theorem reply_alarms : (s.reply p r status result).alarms = s.alarms := by
  unfold State.reply; rfl
@[simp] theorem reply_triggers : (s.reply p r status result).triggers = s.triggers := by
  unfold State.reply; rfl
@[simp] theorem reply_served : (s.reply p r status result).served = s.served := by
  unfold State.reply; rfl
@[simp] theorem reply_store : (s.reply p r status result).store = s.store := by
  unfold State.reply; rfl
@[simp] theorem reply_freeCount : (s.reply p r status result).freeCount = s.freeCount := by
  unfold State.reply; rfl
@[simp] theorem reply_pending : (s.reply p r status result).pending = s.pending := by
  unfold State.reply; rfl

end

/-! ### The views of the state when a service begins -/

section
variable (p : Fin 16) (s : State)

@[simp] theorem beginService_readySlot (i : Fin 16) : (s.beginService p).readySlot i = s.readySlot i :=
  readySlot_congr i (beginService_slots p s)
@[simp] theorem beginService_fillingSlot (i : Fin 16) : (s.beginService p).fillingSlot i = s.fillingSlot i :=
  fillingSlot_congr i (beginService_slots p s)
@[simp] theorem beginService_freeSlot : (s.beginService p).freeSlot = s.freeSlot :=
  freeSlot_congr (beginService_slots p s)
@[simp] theorem beginService_freeSlots : (s.beginService p).freeSlots = s.freeSlots :=
  freeSlots_congr (beginService_slots p s)
@[simp] theorem beginService_eligible (i : Fin 16) : (s.beginService p).eligible i = s.eligible i :=
  eligible_congr i (beginService_sources p s) (beginService_slots p s)
@[simp] theorem beginService_starving : (s.beginService p).starving = s.starving :=
  starving_congr (beginService_starvation p s)
@[simp] theorem beginService_engineBusy : (s.beginService p).engineBusy = s.engineBusy :=
  engineBusy_congr (beginService_job p s)
@[simp] theorem beginService_currentJob : (s.beginService p).currentJob = s.currentJob :=
  currentJob_congr (beginService_job p s)
@[simp] theorem beginService_pendingMember (c : Fin 24) : (s.beginService p).pendingMember c = s.pendingMember c :=
  pendingMember_congr c (beginService_job p s)
@[simp] theorem beginService_waitingTake (r : Fin 4) : (s.beginService p).waitingTake r = s.waitingTake r :=
  waitingTake_congr r (beginService_runners p s)
@[simp] theorem beginService_saving : (s.beginService p).saving = s.saving :=
  saving_congr (beginService_store p s)
@[simp] theorem beginService_loading : (s.beginService p).loading = s.loading :=
  loading_congr (beginService_store p s)
@[simp] theorem beginService_canStart (r : Fin 4) : (s.beginService p).canStart r = s.canStart r :=
  canStart_congr r (beginService_runners p s)
@[simp] theorem beginService_cadenceInUse (k : Cadence) : (s.beginService p).cadenceInUse k = s.cadenceInUse k :=
  cadenceInUse_congr k (beginService_screens p s)
@[simp] theorem beginService_entryAt (r : Fin 4) : (s.beginService p).entryAt r = s.entryAt r :=
  entryAt_congr r (beginService_runners p s) (beginService_cues p s)
@[simp] theorem beginService_entryBusy (e : Fin 128) : (s.beginService p).entryBusy e = s.entryBusy e :=
  entryBusy_congr e (beginService_store p s) (beginService_job p s)
@[simp] theorem beginService_sceneBusy (n : Fin 32) : (s.beginService p).sceneBusy n = s.sceneBusy n :=
  sceneBusy_congr n (beginService_store p s) (beginService_job p s)
@[simp] theorem beginService_wallFault : (s.beginService p).wallFault = s.wallFault :=
  wallFault_congr (beginService_sources p s) (beginService_screens p s) (beginService_starvation p s) (beginService_runners p s) (beginService_job p s) (beginService_time p s) (beginService_alarms p s) (beginService_store p s)

end

/-! ### Which request is served, and how (R159, R160) -/

/-- The tests before the owning block read a port's grant and attention mark alone. -/
theorem screenRequest_congr {x y : Port} (r : Request) (hg : x.grant = y.grant) (ha : x.attention = y.attention) :
    screenRequest x r = screenRequest y r := by
  unfold screenRequest
  rw [hg, ha]

/-- The tests see the port as it was before its request left the queue. -/
theorem screenRequest_beginService (s : State) (p : Fin 16) (r : Request) :
    screenRequest (s.beginService p).ports[p] r = screenRequest s.ports[p] r := by
  rw [beginService_ports, put_same]
  exact screenRequest_congr r rfl rfl

/-- R160 step 7: a request that passes the tests is handed to its owning block. -/
theorem serve_of {s : State} {code : Nat} {p : Fin 16} {r : Request} (h : s.Serves code p r)
    (body : Fin 16 → List Byte → State → Served) :
    s.serve code body = State.finishService p r (body p r.params (s.beginService p)) := by
  unfold State.serve
  rw [h.1]
  dsimp only
  rw [if_pos h.2.1]
  unfold State.serveRequest
  rw [screenRequest_beginService, h.2.2]

/-- A request other than FETCH CONDITION that passes the tests finds no attention mark. -/
theorem attention_of_serves {s : State} {code : Nat} {p : Fin 16} {r : Request} (h : s.Serves code p r)
    (hc : code ≠ 43) : s.ports[p].attention = false := by
  have k := h.2.2
  unfold screenRequest at k
  by_contra a
  rw [Bool.not_eq_false] at a
  split at k
  · cases k
  · rw [if_pos ⟨a, by rw [h.2.1]; exact hc⟩] at k
    cases k

/-! ### Replies and conditions (R161, R162) -/

/-- One reply on a part that is as u has it with the request gone from its queue; the wall fault code is that of the part
as it stands then. -/
theorem answeredWith_of_reply {s w u : State} {p : Fin 16} {r : Request} {status : ReplyStatus} {result : List Byte}
    (h : SameButMarks w { u with served := p, ports := (s.beginService p).ports }) :
    AnsweredWith w.wallFault s (w.reply p r status result) u p r status result := by
  unfold AnsweredWith State.reply
  generalize w.wallFault = n
  refine sameButMarks_of (fun q => ?_) ?_
  · have k := h.port q
    rw [State.modPort_ports, put_get, put_get]
    dsimp only at k
    rw [beginService_ports, put_get] at k
    split
    · next e =>
      subst e
      rw [if_pos rfl] at k
      generalize w.ports[p] = x at k ⊢
      generalize s.ports[p] = y at k ⊢
      obtain ⟨⟩ := x
      obtain ⟨⟩ := y
      simp only [Port.unmarked, Port.answered, Port.mk.injEq] at k ⊢
      simp only [k, and_self]
    · next e =>
      rw [if_neg e] at k
      exact k
  · unfold State.modPort
    exact h.rest _

/-- One reply on a part that is as u has it with the request gone from its queue. -/
theorem answeredAs_of_reply {s w u : State} {p : Fin 16} {r : Request} {status : ReplyStatus} {result : List Byte}
    (h : SameButMarks w { u with served := p, ports := (s.beginService p).ports }) :
    AnsweredAs s (w.reply p r status result) u p r status result := by
  have k : w.wallFault = u.wallFault := h.wallFault
  unfold AnsweredAs
  rw [← k]
  exact answeredWith_of_reply h

/-- One REFUSED reply with the condition written before it. -/
theorem refusedAs_of {s : State} {p : Fin 16} {r : Request} {code : Code} {detail : Option Nat}
    (h : s.ports[p].attention = false) :
    RefusedAs s ((s.beginService p).answerRequest p r (.refused code detail)) p r code detail := by
  have a : (s.beginService p).ports[p].attention = false := by rw [beginService_ports, put_same]; exact h
  unfold State.answerRequest State.recordCondition
  dsimp only
  rw [a, if_neg Bool.false_ne_true]
  obtain ⟨w, hw⟩ : ∃ w, w = State.modPort p (fun x =>
      { x with condition := some ⟨code, ((s.beginService p).drawDetail detail).1, r.tag⟩ })
      ((s.beginService p).drawDetail detail).2 := ⟨_, rfl⟩
  rw [← hw]
  have hf : w.wallFault = s.wallFault := by
    subst hw
    cases detail with
    | none => simp only [State.drawDetail, modPort_wallFault]; exact beginService_wallFault p s
    | some d => simp only [State.drawDetail, modPort_wallFault, beginService_wallFault]
  refine ⟨((s.beginService p).drawDetail detail).1, ((s.beginService p).drawDetail detail).2.freeCount, ?_, ?_⟩
  · intro x hx
    subst hx
    exact ⟨rfl, beginService_freeCount p s⟩
  · unfold State.reply
    rw [hf]
    generalize s.wallFault = n
    subst hw
    refine sameButMarks_of (fun q => ?_) ?_
    · cases detail
      all_goals
        simp only [State.drawDetail, State.modPort_ports, put_put, put_get, beginService_ports]
        split <;> simp only [Port.answered, if_true]
    · cases detail
      all_goals
        simp only [State.drawDetail, State.beginService, State.modPort]

/-! ### The three answers of an owning block -/

/-- DONE, with nothing after the reply: the part is as the block left it. -/
theorem serve_done {s u : State} (w : State) {code : Nat} {p : Fin 16} {r : Request} {result : List Byte}
    {body : Fin 16 → List Byte → State → Served} (h : s.Serves code p r)
    (hb : body p r.params (s.beginService p) = ⟨w, .done result, id⟩)
    (hw : SameButMarks w { u with served := p, ports := (s.beginService p).ports }) :
    AnsweredAs s (s.serve code body) u p r .done result := by
  rw [serve_of h, hb]
  exact answeredAs_of_reply hw

/-- DONE, the part being as it was. -/
theorem serve_unchanged {s : State} {code : Nat} {p : Fin 16} {r : Request} {result : List Byte}
    {body : Fin 16 → List Byte → State → Served} (h : s.Serves code p r)
    (hb : body p r.params (s.beginService p) = unchanged (s.beginService p) (.done result)) :
    AnsweredAs s (s.serve code body) s p r .done result :=
  serve_done _ h hb (by unfold State.beginService State.modPort; rfl)

/-- BUSY: the part is as it was. -/
theorem serve_busy {s : State} {code : Nat} {p : Fin 16} {r : Request}
    {body : Fin 16 → List Byte → State → Served} (h : s.Serves code p r)
    (hb : body p r.params (s.beginService p) = unchanged (s.beginService p) .busy) :
    AnsweredAs s (s.serve code body) s p r .busy [] := by
  rw [serve_of h, hb]
  exact answeredAs_of_reply (by unfold unchanged State.beginService State.modPort; rfl)

/-- R160: a request that a test refuses. -/
theorem serve_screened {s : State} {p : Fin 16} {r : Request} {c : Code} {detail : Option Nat}
    (body : Fin 16 → List Byte → State → Served) (h : s.nextRequest = some (p, r)) (ha : s.ports[p].attention = false)
    (hs : screenRequest s.ports[p] r = .refuse c detail) :
    RefusedAs s (s.serve r.code.toNat body) p r c detail := by
  unfold State.serve
  rw [h]
  dsimp only
  rw [if_pos rfl]
  unfold State.serveRequest
  rw [screenRequest_beginService, hs]
  exact refusedAs_of ha

/-- R160 step 2: a request that the attention mark holds back. -/
theorem serve_attention {s : State} {p : Fin 16} {r : Request}
    (body : Fin 16 → List Byte → State → Served) (h : s.nextRequest = some (p, r))
    (hs : screenRequest s.ports[p] r = .attention) :
    AnsweredAs s (s.serve r.code.toNat body) s p r .refused [] := by
  unfold State.serve
  rw [h]
  dsimp only
  rw [if_pos rfl]
  unfold State.serveRequest
  rw [screenRequest_beginService, hs]
  exact answeredAs_of_reply (by unfold State.beginService State.modPort; rfl)

/-- R160 step 1: a request of a port without a grant. -/
theorem serve_discard {s : State} {p : Fin 16} {r : Request}
    (body : Fin 16 → List Byte → State → Served) (h : s.nextRequest = some (p, r))
    (hs : screenRequest s.ports[p] r = .discard) : s.serve r.code.toNat body = s.beginService p := by
  unfold State.serve
  rw [h]
  dsimp only
  rw [if_pos rfl]
  unfold State.serveRequest
  rw [screenRequest_beginService, hs]

/-- R160 step 6: a well-formed request that modifies the part, from a port of OBSERVE grant. -/
theorem screenRequest_observe {x : Port} {r : Request} (hg : x.grant = .observe) (ha : x.attention = false)
    (hk : knownCode r.code.toNat = true) (hl : requiredLength r.code.toNat r.params = some r.params.length)
    (hr : reservedOffset r.code.toNat r.params = none) (hm : modifies r.code.toNat r.params = true) :
    screenRequest x r = .refuse .observeOnly none := by
  simp [screenRequest, screenForm, hg, ha, hk, hl, hr, hm]

/-- REFUSED, with the condition in the port's record. -/
theorem serve_refused {s : State} {code : Nat} {p : Fin 16} {r : Request} {c : Code} {detail : Option Nat}
    {body : Fin 16 → List Byte → State → Served} (h : s.Serves code p r) (hc : code ≠ 43)
    (hb : body p r.params (s.beginService p) = unchanged (s.beginService p) (.refused c detail)) :
    RefusedAs s (s.serve code body) p r c detail := by
  rw [serve_of h, hb]
  exact refusedAs_of (attention_of_serves h hc)

end Sys2Proof.Machine
end

