-- ==== Sys2Proof/Laws/Operations.lean ====
section
/-! SUPPORT. What the shared operations come to, one lemma for each: runners, sources, slots, and the take engine's ends. -/

namespace Sys2Proof.Machine

/-! ### Runners (08) -/

/-- R143: a start. -/
theorem startRunner_same (r : Fin 4) (a : Nat) (c : StartCause) (s : State) :
    SameButMarks (s.startRunner r a c) (s.withRunner r (Runner.startedAt a c)) := setRunner_same _ _ _

/-- R139: an execution that goes on leaves the runner's state, and marks nothing. -/
theorem advanceRunner_eq (r : Fin 4) (s : State) : s.advanceRunner r = s.withRunner r s.runners[r].next :=
  setRunner_of_same rfl

/-- R140: the begin of a wait. -/
theorem enterWait_same (r : Fin 4) (w : Wait) (s : State) :
    SameButMarks (s.enterWait r w) (s.withRunner r (s.runners[r].waitingFor w)) := setRunner_same _ _ _

/-- The end of a wait. -/
theorem endWait_same (r : Fin 4) (s : State) : SameButMarks (s.endWait r) (s.withRunner r s.runners[r].resumed) :=
  setRunner_same _ _ _

/-- R141: a fault whose rule states its detail. -/
theorem faultRunner_same (r : Fin 4) (k : Code) (d : Nat) (s : State) :
    SameButMarks (s.faultRunner r k (some d)) (s.withRunner r (s.runners[r].faultedWith k d s.time.seconds)) :=
  setRunner_same _ _ _

/-- R141: a fault in full; a detail that no rule states is drawn (log 8). -/
theorem faultRunner_drawn (r : Fin 4) (k : Code) (detail : Option Nat) (s : State) :
    ∃ d n : Nat, (∀ x, detail = some x → d = x ∧ n = s.freeCount) ∧
      SameButMarks (s.faultRunner r k detail)
        ({ s with freeCount := n }.withRunner r (s.runners[r].faultedWith k d s.time.seconds)) := by
  cases detail with
  | some d => exact ⟨d, s.freeCount, fun x h => by cases h; exact ⟨rfl, rfl⟩, faultRunner_same r k d s⟩
  | none =>
    refine ⟨(Config.freeDetail s.freeCount).toNat, s.freeCount + 1, ⟨fun _ h => (nomatch h), ?_⟩⟩
    exact setRunner_same r _ { s with freeCount := s.freeCount + 1 }

/-- R136: a runner moved elsewhere keeps its state, and marks nothing. -/
theorem moveRunner_eq (r : Fin 4) (a : Nat) (l : List Nat) (s : State) :
    s.moveRunner r a l =
      s.withRunner r { s.runners[r] with position := a, stack := l, spin := s.runners[r].spin + 1 } := setRunner_of_same rfl

/-- R137: HALT. -/
theorem haltRunner_same (r : Fin 4) (s : State) :
    SameButMarks (s.haltRunner r) (s.withRunner r { s.runners[r] with state := .idle, stack := [] }) := setRunner_same _ _ _

/-- R144: STOP CUE. -/
theorem stopRunner_same (r : Fin 4) (s : State) :
    SameButMarks (s.stopRunner r) (s.withRunner r { s.runners[r] with state := .idle }) := setRunner_same _ _ _

/-- R139: an entry that passes the tests is executed. -/
theorem cueEvent_of {s : State} {kind : CueKind} {r : Fin 4} {e : CueEntry} (h : s.Executes kind r e) (hk : kind ≠ .empty)
    (run : CueEntry → State → State) : s.cueEvent kind run r = run e s := by
  obtain ⟨h1, h2, h3, h4, h5⟩ := h
  subst h4
  unfold State.cueEvent
  dsimp only
  rw [if_pos ⟨h1, h5⟩, if_neg (show ¬ Config.spinLimit ≤ _ from Nat.not_le.2 h2),
    if_neg (show ¬ Config.cueStoreEnd ≤ _ from Nat.not_le.2 h3), if_neg (by rw [h5]; exact hk)]

/-! ### Sources (02) -/

/-- R24: entry to ACQUIRING. -/
theorem enterAcquiring_same (i : Fin 16) (s : State) :
    SameButMarks (s.enterAcquiring i) (s.withSource i s.sources[i].acquiringFrom) := by
  unfold State.enterAcquiring State.zeroTransitions
  refine (setSourceState_same _ _ _).trans (SameButMarks.of_eq ?_)
  unfold State.withSource State.modSource
  dsimp only
  rw [put_put, put_same]
  rfl

/-! ### The picture pool (03) -/

/-- A slot that a search finds has what it looks for, and none below it does. -/
theorem find_lowest {n : Nat} {f : Fin n → Bool} {k : Fin n} :
    (List.finRange n).find? f = some k ↔ f k = true ∧ ∀ j : Fin n, j < k → f j = false := by
  rw [List.find?_eq_some_iff_getElem]
  constructor
  · rintro ⟨hk, i, hi, he, hj⟩
    simp only [List.getElem_finRange] at he hj
    have hv : i = k.val := by
      rw [← he]
      rfl
    refine ⟨hk, fun j hjk => ?_⟩
    have := hj j.val (by rw [hv]; exact hjk)
    simpa using this
  · rintro ⟨hk, hj⟩
    refine ⟨hk, k.val, by simp, by simp, fun j hjk => ?_⟩
    have := hj ⟨j, by omega⟩ hjk
    simpa using this

/-- A search that finds nothing. -/
theorem find_none {n : Nat} {f : Fin n → Bool} : (List.finRange n).find? f = none ↔ ∀ k : Fin n, f k = false := by
  simp

/-- R38: the READY slot of a source is READY, and the source owns it. -/
theorem readySlot_some {s : State} {i : Fin 16} {k : Fin 64} (h : s.readySlot i = some k) :
    s.slots[k].state = .ready ∧ s.slots[k].picture.any (·.owner = i) = true := by
  have := (find_lowest.1 h).1
  simpa using this

/-- R39: the lowest FREE slot. -/
theorem freeSlot_eq {s : State} {k : Fin 64} (h : s.slots[k].state = .free) (hl : ∀ j : Fin 64, j < k → s.slots[j].state ≠ .free) :
    s.freeSlot = some k := by
  refine find_lowest.2 ⟨by simpa using h, fun j hj => ?_⟩
  have := hl j hj
  simpa using this

/-- R48: no slot FREE. -/
theorem freeSlot_none {s : State} (h : ∀ k : Fin 64, s.slots[k].state ≠ .free) : s.freeSlot = none := by
  refine find_none.2 fun k => ?_
  have := h k
  simpa using this

/-- R45, R37, R43: a RELEASE. -/
theorem release_eq (k : Fin 64) (s : State) :
    s.release k = s.withSlot k (if s.slots[k].state = .retired ∧ s.slots[k].holds ≤ 1 then Slot.empty
      else { s.slots[k] with holds := s.slots[k].holds - 1 }) := rfl

/-- R42: every slot after a retirement. -/
theorem retire_slots (i : Fin 16) (s : State) (j : Fin 64) :
    (s.retire i).slots[j] = if s.readySlot i = some j then
      (if 0 < s.slots[j].holds then { s.slots[j] with state := .retired } else Slot.empty) else s.slots[j] := by
  unfold State.retire
  split
  · next h => rw [if_neg (by rw [h]; exact nofun)]
  · next k h =>
    rw [State.modSlot_slots, put_get, h]
    by_cases e : k = j
    · subst e
      rw [if_pos rfl, if_pos rfl]
    · rw [if_neg e, if_neg (fun x => e (Option.some.inj x))]

/-- R40: every slot after a PUBLISH. -/
theorem publish_slots (i : Fin 16) (k : Fin 64) (s : State) (j : Fin 64) :
    (s.publish i k).slots[j] = if k = j then { (s.retire i).slots[k] with state := .ready } else (s.retire i).slots[j] := by
  unfold State.publish
  rw [State.modSlot_slots, put_get]

/-! ### The take engine (07) -/

/-- A BUSY engine holds the job in progress. -/
theorem currentJob_some {s : State} {j : Job} : s.currentJob = some j ↔ s.job = some j ∧ j.phase ≠ .done := by
  unfold State.currentJob State.engineBusy
  cases s.job with
  | none => simp
  | some x =>
    simp only [Option.any_some, decide_eq_true_eq, ite_eq_iff, Option.some.injEq, reduceCtorEq, and_false, or_false]
    constructor
    · rintro ⟨h, rfl⟩
      exact ⟨rfl, h⟩
    · rintro ⟨rfl, h⟩
      exact ⟨h, rfl⟩

/-- An engine that is not BUSY has no job in progress. -/
theorem currentJob_none {s : State} (h : s.engineBusy = false) : s.currentJob = none := by
  unfold State.currentJob
  rw [h]
  rfl

/-- An engine whose job is not DONE is BUSY. -/
theorem engineBusy_of {s : State} {j : Job} (h : s.job = some j) (hp : j.phase ≠ .done) : s.engineBusy = true := by
  unfold State.engineBusy
  rw [h]
  simpa using hp

/-- R119: a job with a PENDING member goes on. -/
theorem settle_of_pending {s : State} {j : Job} (h : s.currentJob = some j) (hp : j.members.any (·.outcome = .pending) = true) :
    s.settle = s := by
  unfold State.settle
  rw [h]
  dsimp only
  rw [if_pos hp]

/-- R125: a BUSY engine is offered to nobody. -/
theorem offerTo_of_busy {s : State} (h : s.engineBusy = true) (r : Fin 4) : s.offerTo r = s := by
  unfold State.offerTo
  rw [if_pos h]

/-- R125: a runner that does not wait for the engine is offered nothing. -/
theorem offerTo_of_none {s : State} {r : Fin 4} (h : s.waitingTake r = none) : s.offerTo r = s := by
  unfold State.offerTo
  rw [h]
  split <;> rfl

/-- A fold whose steps change nothing. -/
theorem foldl_fixed {σ α : Type} {g : σ → α → σ} {s : σ} (h : ∀ a, g s a = s) (l : List α) : l.foldl g s = s := by
  induction l with
  | nil => rfl
  | cons a t ih => rw [List.foldl_cons, h, ih]

/-- R125: a BUSY engine is offered to nobody. -/
theorem offerEngine_of_busy {s : State} (h : s.engineBusy = true) : s.offerEngine = s :=
  foldl_fixed (fun r => offerTo_of_busy h r) _

/-- R125: with nobody waiting, the offer changes nothing. -/
theorem offerEngine_of_noneWaits {s : State} (h : s.NoneWaits) : s.offerEngine = s :=
  foldl_fixed (fun r => offerTo_of_none (h r)) _

end Sys2Proof.Machine
end

