-- ==== Sys2Proof/Laws/Engine.lean ====
section
/-! SUPPORT. What the take engine's operations come to, but for the change marks: the end of a job, the arming, an abort,
the begin of a load, the grant to a waiting runner. -/

namespace Sys2Proof.Machine

/-! ### Folds over a table -/

/-- Steps that each change the entry of their own index alone, taken over all indexes: every entry is changed once. P is
what the steps keep and what the change of an entry may rest on. -/
theorem foldl_entries {σ α : Type} {n : Nat} {get : σ → Vector α n} {f : Fin n → α → α} {g : σ → Fin n → σ} {P : σ → Prop}
    (hP : ∀ s i, P s → P (g s i)) (h : ∀ s i, P s → get (g s i) = put (get s) i (f i (get s)[i])) {s : σ} (hs : P s) :
    P ((List.finRange n).foldl g s) ∧ ∀ j : Fin n, (get ((List.finRange n).foldl g s))[j] = f j (get s)[j] := by
  have key : ∀ (l : List (Fin n)) (s : σ), l.Nodup → P s → P (l.foldl g s) ∧
      ∀ j : Fin n, (get (l.foldl g s))[j] = if j ∈ l then f j (get s)[j] else (get s)[j] := by
    intro l
    induction l with
    | nil => exact fun s _ hs => ⟨hs, fun j => by simp⟩
    | cons a t ih =>
      intro s hl hs
      obtain ⟨ha, ht⟩ := List.nodup_cons.1 hl
      obtain ⟨h1, h2⟩ := ih (g s a) ht (hP s a hs)
      refine ⟨h1, fun j => ?_⟩
      rw [List.foldl_cons, h2, h s a hs, put_get]
      by_cases e : a = j
      · subst e
        rw [if_neg ha, if_pos rfl, if_pos List.mem_cons_self]
      · rw [if_neg e]
        by_cases m : j ∈ t
        · rw [if_pos m, if_pos (List.mem_cons_of_mem _ m)]
        · rw [if_neg m, if_neg (by rintro (_ | ⟨_, k⟩); exacts [e rfl, m k])]
  obtain ⟨h1, h2⟩ := key _ s (List.nodup_finRange n) hs
  exact ⟨h1, fun j => by rw [h2, if_pos (List.mem_finRange j)]⟩

/-- A fold over two states that differ in marks at most. -/
theorem foldl_same {α : Type} {g h : State → α → State} (step : ∀ t u a, SameButMarks t u → SameButMarks (g t a) (h u a))
    (l : List α) {t u : State} (k : SameButMarks t u) : SameButMarks (l.foldl g t) (l.foldl h u) := by
  induction l generalizing t u with
  | nil => exact k
  | cons a l ih => exact ih (step _ _ _ k)

/-! ### One entry replaced in two such states -/

/-- A runner's record. -/
theorem SameButMarks.withRunner {t u : State} (h : SameButMarks t u) (r : Fin 4) (x : Runner) :
    SameButMarks (t.withRunner r x) (u.withRunner r x) := by
  have k := h.with (fun s => { s with runners := put u.runners r x }) fun _ _ => rfl
  unfold State.withRunner
  rw [h.runners]
  exact k

/-- A screen. -/
theorem SameButMarks.withScreen {t u : State} (h : SameButMarks t u) (c : Fin 24) (x : Screen) :
    SameButMarks (t.withScreen c x) (u.withScreen c x) := by
  have k := h.with (fun s => { s with screens := put u.screens c x }) fun _ _ => rfl
  unfold State.withScreen
  rw [h.screens]
  exact k

/-- A source record. -/
theorem SameButMarks.withSource {t u : State} (h : SameButMarks t u) (i : Fin 16) (x : Source) :
    SameButMarks (t.withSource i x) (u.withSource i x) := by
  have k := h.with (fun s => { s with sources := put u.sources i x }) fun _ _ => rfl
  unfold State.withSource
  rw [h.sources]
  exact k

/-- A screen's standby. -/
theorem setStandby_same (c : Fin 24) (b : Standby) {t u : State} (h : SameButMarks t u) :
    SameButMarks (t.setStandby c b) (u.withScreen c { u.screens[c] with standby := b }) := by
  unfold State.setStandby
  rw [h.screens]
  exact (setScreen_same _ _ _).trans (h.withScreen _ _)

/-- The job record. -/
theorem SameButMarks.withJob {t u : State} (h : SameButMarks t u) (j : Option Job) :
    SameButMarks { t with job := j } { u with job := j } := h.with (fun s => { s with job := j }) fun _ _ => rfl

/-- The screens. -/
theorem SameButMarks.withScreens {t u : State} (h : SameButMarks t u) (v : Vector Screen 24) :
    SameButMarks { t with screens := v } { u with screens := v } := h.with (fun s => { s with screens := v }) fun _ _ => rfl

/-- The runners. -/
theorem SameButMarks.withRunners {t u : State} (h : SameButMarks t u) (v : Vector Runner 4) :
    SameButMarks { t with runners := v } { u with runners := v } := h.with (fun s => { s with runners := v }) fun _ _ => rfl

/-! ### Changes of the members' screens (R115, R117, R122) -/

/-- A fold whose steps change the screen of a member, or nothing: every screen of a member that counts is changed once. -/
theorem foldl_screens {α : Type} {g : State → α → State} (screen : α → Fin 24) (counts : α → Bool) (H : Screen → Screen)
    (twice : ∀ x, H (H x) = H x)
    (step : ∀ (s : State) (a : α),
      SameButMarks (g s a) (if counts a = true then s.withScreen (screen a) (H s.screens[screen a]) else s))
    (l : List α) (s : State) : SameButMarks (l.foldl g s) { s with
      screens := Vector.ofFn fun c =>
        if l.any (fun a => screen a = c && counts a) = true then H s.screens[c] else s.screens[c] } := by
  induction l generalizing s with
  | nil =>
    refine SameButMarks.of_eq ?_
    have k : (Vector.ofFn fun c => s.screens[c]) = s.screens := table_ext fun c => ofFn_get _ c
    simp only [List.foldl_nil, List.any_nil, Bool.false_eq_true, if_false]
    rw [k]
  | cons a l ih =>
    rw [List.foldl_cons]
    refine (ih (g s a)).trans ?_
    have h := step s a
    refine ((step s a).withScreens _).trans ?_
    have e : ∀ v : Vector Screen 24, ({ (if counts a = true then s.withScreen (screen a) (H s.screens[screen a]) else s) with
        screens := v } : State) = { s with screens := v } := fun v => by split <;> rfl
    rw [e]
    refine SameButMarks.of_eq (congrArg (fun v => ({ s with screens := v } : State)) (table_ext fun c => ?_))
    rw [ofFn_get, ofFn_get, h.screens]
    by_cases k : counts a = true
    · have w : (s.withScreen (screen a) (H s.screens[screen a])).screens[c] =
          if screen a = c then H s.screens[screen a] else s.screens[c] := put_get ..
      rw [if_pos k, w]
      by_cases d : screen a = c
      · subst d
        simp [k, twice]
      · simp [d]
    · rw [if_neg k]
      simp only [Bool.not_eq_true] at k
      simp [k]

/-- R117: a screen whose standby is LOADED, armed. -/
def Screen.arm (x : Screen) : Screen :=
  match x.standby with
  | .loaded y => { x with standby := .armed y }
  | .empty => x
  | .previous _ => x
  | .armed _ => x

/-- R115: a screen whose standby is PREVIOUS, armed. -/
def Screen.rearm (x : Screen) : Screen :=
  match x.standby with
  | .previous y => { x with standby := .armed y }
  | .empty => x
  | .loaded _ => x
  | .armed _ => x

/-- R117: a LOADED standby is armed. -/
theorem Screen.arm_loaded {x : Screen} {y : Context} (h : x.standby = .loaded y) : x.arm = { x with standby := .armed y } := by
  unfold Screen.arm
  rw [h]

/-- R117: any other standby is left. -/
theorem Screen.arm_other {x : Screen} (h : ∀ y, x.standby ≠ .loaded y) : x.arm = x := by
  unfold Screen.arm
  split
  · next k => exact absurd k (h _)
  all_goals rfl

/-- R115: a PREVIOUS standby is armed. -/
theorem Screen.rearm_previous {x : Screen} {y : Context} (h : x.standby = .previous y) :
    x.rearm = { x with standby := .armed y } := by
  unfold Screen.rearm
  rw [h]

/-- R115: any other standby is left. -/
theorem Screen.rearm_other {x : Screen} (h : ∀ y, x.standby ≠ .previous y) : x.rearm = x := by
  unfold Screen.rearm
  split
  · next k => exact absurd k (h _)
  all_goals rfl

/-- A screen written as it stands. -/
theorem withScreen_self (s : State) (c : Fin 24) : s.withScreen c s.screens[c] = s := by
  unfold State.withScreen
  rw [put_self]

/-- R117: the arming of every member's LOADED standby. -/
theorem armMembers_same (ms : List Member) (s : State) : SameButMarks (ms.foldl State.armMember s)
    { s with screens := Vector.ofFn fun c => s.screens[c].armedIn (ms.map (·.screen)) c } := by
  have twice : ∀ x : Screen, x.arm.arm = x.arm := fun x => by
    obtain ⟨_, _, _, _, _, _, b, _, _⟩ := x
    cases b <;> rfl
  have step : ∀ (s : State) (m : Member), SameButMarks (s.armMember m)
      (if (fun _ : Member => true) m = true then s.withScreen m.screen s.screens[m.screen].arm else s) := fun s m => by
    rw [if_pos rfl]
    unfold State.armMember
    split
    · next h =>
      rw [Screen.arm_loaded h]
      exact setScreen_same _ _ _
    all_goals
      next h =>
      rw [Screen.arm_other (by rw [h]; exact nofun), withScreen_self]
      exact SameButMarks.refl s
  have k := foldl_screens (fun m : Member => m.screen) (fun _ => true) Screen.arm twice step ms s
  refine k.trans (SameButMarks.of_eq (congrArg (fun v => ({ s with screens := v } : State)) (table_ext fun c => ?_)))
  rw [ofFn_get, ofFn_get]
  have e : (ms.any fun a => decide (a.screen = c) && true) = true ↔ c ∈ ms.map (·.screen) := by simp
  simp only [e]
  unfold Screen.armedIn
  generalize s.screens[c] = x
  obtain ⟨_, _, _, _, _, _, b, _, _⟩ := x
  cases b <;> simp [Screen.arm]

/-- R115: the arming of every PENDING member's PREVIOUS standby. -/
theorem armPrevious_same (ms : List Member) (s : State) : SameButMarks (ms.foldl State.armPrevious s)
    { s with
      screens := Vector.ofFn fun c =>
        if ms.any (fun m => m.screen = c && m.outcome = .pending) = true then s.screens[c].rearm else s.screens[c] } := by
  have twice : ∀ x : Screen, x.rearm.rearm = x.rearm := fun x => by
    obtain ⟨_, _, _, _, _, _, b, _, _⟩ := x
    cases b <;> rfl
  have step : ∀ (s : State) (m : Member), SameButMarks (s.armPrevious m)
      (if (fun m : Member => decide (m.outcome = .pending)) m = true then s.withScreen m.screen s.screens[m.screen].rearm
        else s) := fun s m => by
    simp only [decide_eq_true_eq]
    unfold State.armPrevious
    split
    · next h =>
      rw [Screen.rearm_previous h]
      split
      · exact setScreen_same _ _ _
      · exact SameButMarks.refl s
    all_goals
      next h =>
      rw [Screen.rearm_other (by rw [h]; exact nofun), withScreen_self, ite_self]
      exact SameButMarks.refl s
  exact foldl_screens (fun m : Member => m.screen) (fun m => decide (m.outcome = .pending)) Screen.rearm twice step ms s

/-- R122: what an abort makes of the PENDING members' standbys. -/
theorem abortStandbys_same (kind : JobKind) (ms : List Member) (s : State) :
    SameButMarks (ms.foldl (State.abortStandby kind) s) { s with
      screens := Vector.ofFn fun c =>
        if ms.any (fun m => m.screen = c && m.outcome = .pending) = true then
          { s.screens[c] with standby := s.screens[c].standby.aborted kind }
        else s.screens[c] } := by
  have twice : ∀ x : Screen, ({ x with standby := (x.standby.aborted kind).aborted kind } : Screen) =
      { x with standby := x.standby.aborted kind } := fun x => by
    obtain ⟨_, _, _, _, _, _, b, _, _⟩ := x
    cases kind <;> cases b <;> rfl
  have step : ∀ (s : State) (m : Member), SameButMarks (s.abortStandby kind m)
      (if (fun m : Member => decide (m.outcome = .pending)) m = true then
        s.withScreen m.screen { s.screens[m.screen] with standby := s.screens[m.screen].standby.aborted kind }
        else s) := fun s m => by
    have kept : ∀ b : Standby, s.screens[m.screen].standby = b → b.aborted kind = b →
        s.withScreen m.screen { s.screens[m.screen] with standby := s.screens[m.screen].standby.aborted kind } = s :=
      fun b h k => by
        rw [h, k, ← h]
        exact withScreen_self s m.screen
    simp only [decide_eq_true_eq]
    unfold State.abortStandby
    split
    · split
      · next h =>
        rw [h]
        exact setScreen_same _ _ _
      · next h =>
        rw [h]
        exact setScreen_same _ _ _
      · next h =>
        rw [kept _ h rfl]
        exact SameButMarks.refl s
      · next h =>
        rw [kept _ h rfl]
        exact SameButMarks.refl s
    · exact SameButMarks.refl s
  exact foldl_screens (fun m : Member => m.screen) (fun m => decide (m.outcome = .pending))
    (fun x => { x with standby := x.standby.aborted kind }) twice step ms s

/-! ### The ports, the marks left out -/

/-- Two such states have the same ports, the marks left out. -/
theorem SameButMarks.bare {t u : State} (h : SameButMarks t u) : t.unmarked.ports = u.unmarked.ports := congrArg State.ports h

/-- The same ports. -/
theorem bare_of_ports {t u : State} (h : t.ports = u.ports) : t.unmarked.ports = u.unmarked.ports :=
  congrArg (mapTable Port.unmarked) h

/-- Ports that are the same, the marks left out, one by one. -/
theorem bare_iff {t u : State} :
    t.unmarked.ports = u.unmarked.ports ↔ ∀ p : Fin 16, t.ports[p].unmarked = u.ports[p].unmarked := by
  constructor
  · intro h p
    have k := congrArg (fun v : Vector Port 16 => v[p]) h
    simpa only [State.unmarked, mapTable_get] using k
  · exact fun h => table_ext fun p => by simpa only [State.unmarked, mapTable_get] using h p

section
variable (s : State)

/-- A runner's record is no port's. -/
@[simp] theorem setRunner_bare (r : Fin 4) (x : Runner) : (s.setRunner r x).unmarked.ports = s.unmarked.ports :=
  (setRunner_same r x s).bare

/-- A screen is no port's. -/
@[simp] theorem setScreen_bare (c : Fin 24) (x : Screen) : (s.setScreen c x).unmarked.ports = s.unmarked.ports :=
  (setScreen_same c x s).bare

/-- The job record is no port's. -/
@[simp] theorem setJob_bare (j : Job) : (s.setJob j).unmarked.ports = s.unmarked.ports :=
  (setJob_same j s).bare

/-- A drawn detail is no port's. -/
@[simp] theorem drawDetail_bare (d : Option Nat) : (s.drawDetail d).2.unmarked.ports = s.unmarked.ports := by
  cases d <;> rfl

/-- R141: a fault. -/
@[simp] theorem faultRunner_bare (r : Fin 4) (k : Code) (d : Option Nat) :
    (s.faultRunner r k d).unmarked.ports = s.unmarked.ports := by
  unfold State.faultRunner
  rw [setRunner_bare, drawDetail_bare]

/-- R119: the end of a job. -/
@[simp] theorem finishJob_bare (aborted : Bool) (j : Job) : (s.finishJob aborted j).unmarked.ports = s.unmarked.ports := by
  unfold State.finishJob State.handResult
  dsimp only
  (repeat' split) <;> simp

/-- R119. -/
@[simp] theorem settle_bare : s.settle.unmarked.ports = s.unmarked.ports := by
  unfold State.settle
  (repeat' split) <;> simp

/-- R115, R117, R122: a fold over the members' screens. -/
theorem foldl_bare {α : Type} {g : State → α → State} (h : ∀ s a, (g s a).unmarked.ports = s.unmarked.ports) (l : List α) :
    (l.foldl g s).unmarked.ports = s.unmarked.ports := foldl_keeps (fun s : State => s.unmarked.ports) g h l s

/-- R117: the arming. -/
@[simp] theorem armJob_bare (j : Job) : (s.armJob j).unmarked.ports = s.unmarked.ports := by
  unfold State.armJob
  rw [settle_bare, setJob_bare]
  refine foldl_bare s (fun s m => ?_) _
  unfold State.armMember State.setStandby
  split <;> simp

/-- R116, R117. -/
@[simp] theorem advanceLoading_bare : s.advanceLoading.unmarked.ports = s.unmarked.ports := by
  unfold State.advanceLoading
  (repeat' split) <;> simp

/-- R122: an abort. -/
@[simp] theorem abortJob_bare : s.abortJob.unmarked.ports = s.unmarked.ports := by
  unfold State.abortJob
  split
  · rfl
  · rw [finishJob_bare]
    refine foldl_bare s (fun s m => ?_) _
    unfold State.abortStandby State.setStandby
    (repeat' split) <;> simp

/-- R115: the acceptance of a REVERT. -/
@[simp] theorem acceptRevert_bare (q : Requester) (cs : List (Fin 24)) :
    (s.acceptRevert q cs).unmarked.ports = s.unmarked.ports := by
  unfold State.acceptRevert State.newJob
  dsimp only
  rw [settle_bare, setJob_bare]
  refine (foldl_bare s (fun s m => ?_) _ : State.ports (State.unmarked (List.foldl State.armPrevious s _)) = _)
  unfold State.armPrevious State.setStandby
  (repeat' split) <;> simp

/-- R114, R115, R124: the acceptance of a take. -/
theorem accept_bare {s u : State} {q : Requester} {take : Take} (h : s.accept q take = .ok u) :
    u.unmarked.ports = s.unmarked.ports := by
  have members : ∀ (kind : JobKind) (ms : Scene), s.acceptMembers kind q ms = .ok u → u.unmarked.ports = s.unmarked.ports :=
    fun kind ms k => by
      unfold State.acceptMembers at k
      split at k
      · cases k
      · cases k
        unfold State.newJob
        rw [advanceLoading_bare, setJob_bare]
        rfl
  unfold State.accept at h
  cases take with
  | scene n w =>
    dsimp only at h
    split at h
    · cases h
    · exact members _ _ h
  | layout c e w => exact members _ _ h
  | revert c w =>
    cases h
    exact acceptRevert_bare s q [c]

/-- R131: a runner's take. -/
@[simp] theorem submitTake_bare (r : Fin 4) (take : Take) (granted : Bool) :
    (s.submitTake r take granted).unmarked.ports = s.unmarked.ports := by
  unfold State.submitTake
  split
  · rw [faultRunner_bare]
  · next u h =>
    have k := accept_bare h
    unfold State.enterWait State.endWait State.advanceRunner
    (repeat' split) <;> rw [setRunner_bare, k]

/-- R125: the offer of the engine. -/
@[simp] theorem offerEngine_bare : s.offerEngine.unmarked.ports = s.unmarked.ports := by
  refine foldl_bare s (fun s r => ?_) _
  unfold State.offerTo
  (repeat' split) <;> simp

end

/-! ### The end of a job (R119) -/

/-- R119, R132: the job DONE, its result handed to the runner that waits for it. -/
theorem finishJob_same (aborted : Bool) (j : Job) (s : State) : SameButMarks (s.finishJob aborted j) { s with
    job := some { j with phase := .done, result := some (j.resultOf aborted) }
    runners := Vector.ofFn fun q => s.runners[q].handed j (j.resultOf aborted) q } := by
  have kept : ∀ v : Vector Runner 4, (∀ q : Fin 4, v[q] = s.runners[q].handed j (j.resultOf aborted) q) →
      v = Vector.ofFn fun q => s.runners[q].handed j (j.resultOf aborted) q := fun v k =>
    table_ext fun q => by rw [ofFn_get, k]
  obtain ⟨d, hd⟩ : ∃ d : Job, d = { j with phase := .done, result := some (j.resultOf aborted) } := ⟨_, rfl⟩
  have req : d.requester = j.requester := by rw [hd]
  have ser : d.serial = j.serial := by rw [hd]
  have res : d.result = some (j.resultOf aborted) := by rw [hd]
  unfold State.finishJob
  dsimp only
  rw [← hd]
  have h := setJob_same d s
  generalize s.setJob d = u at h
  unfold State.handResult
  rw [req, ser, res, h.runners]
  cases hr : j.requester with
  | port p =>
    rw [← kept s.runners fun q => by rw [Runner.handed, hr, if_neg (fun e => by cases e.1)]]
    exact h
  | runner r =>
    dsimp only
    split
    · next n w =>
      split
      · next e =>
        subst e
        refine (setRunner_same _ _ _).trans ((h.withRunner _ _).trans (SameButMarks.of_eq ?_))
        unfold State.withRunner
        dsimp only
        rw [kept (put s.runners r _) fun q => ?_]
        rw [put_get, Runner.handed, hr]
        by_cases e : r = q
        · subst e
          rw [if_pos rfl, if_pos ⟨rfl, w⟩]
        · rw [if_neg e, if_neg (fun k => e (Requester.runner.inj k.1))]
      · next e =>
        rw [← kept s.runners fun q => by
          rw [Runner.handed, hr, if_neg]
          rintro ⟨a, b⟩
          cases a
          rw [b] at w
          cases w
          exact e rfl]
        exact h
    · next w =>
      rw [← kept s.runners fun q => by
        rw [Runner.handed, hr, if_neg]
        rintro ⟨a, b⟩
        cases a
        exact w _ b]
      exact h

/-- R119: a job left with no PENDING member is DONE. -/
theorem settle_done {s : State} {j : Job} (h : s.currentJob = some j) (hp : ∀ m ∈ j.members, m.outcome ≠ .pending) :
    s.settle = s.finishJob false j := by
  unfold State.settle
  rw [h]
  dsimp only
  rw [if_neg]
  intro a
  obtain ⟨m, hm, k⟩ := List.any_eq_true.1 a
  exact hp m hm (by simpa using k)

/-- R119: the result of a job that was not aborted. -/
theorem resultOf_false (j : Job) : j.resultOf false = if ∀ m ∈ j.members, m.outcome = .swapped then .complete else .partialResult := by
  unfold Job.resultOf
  rw [if_neg Bool.false_ne_true]
  simp only [List.all_eq_true, decide_eq_true_eq]

/-- R119: a job left with no PENDING member, one of its members not SWAPPED, is DONE with the result PARTIAL. -/
theorem settle_partial {s : State} {j : Job} (h : s.currentJob = some j) (hp : ∀ m ∈ j.members, m.outcome ≠ .pending)
    (hs : ∃ m ∈ j.members, m.outcome ≠ .swapped) : SameButMarks s.settle { s with
      job := some { j with phase := .done, result := some .partialResult }
      runners := Vector.ofFn fun q => s.runners[q].handed j .partialResult q } := by
  have r : j.resultOf false = .partialResult := by
    obtain ⟨m, hm, k⟩ := hs
    rw [resultOf_false, if_neg fun a => k (a m hm)]
  have k := finishJob_same false j s
  rw [r, ← settle_done h hp] at k
  exact k

/-- R119: the end of a job leaves no runner waiting for the engine that did not wait. -/
theorem handed_waits (j : Job) (result : JobResult) (q : Fin 4) (x : Runner) (t : Take) :
    (x.handed j result q).state = .waiting (.takeGrant t) ↔ x.state = .waiting (.takeGrant t) := by
  unfold Runner.handed
  split
  · next h => simp [h.2]
  · rfl

/-- R122: an abort. -/
theorem abortJob_same {s : State} {j : Job} (h : s.currentJob = some j) : SameButMarks s.abortJob { s with
    job := some { j with members := j.members.map Member.abort, phase := .done, result := some .aborted }
    screens := Vector.ofFn fun c => { s.screens[c] with
      standby := if s.pendingMember c = true then s.screens[c].standby.aborted j.kind else s.screens[c].standby }
    runners := Vector.ofFn fun q => s.runners[q].handed j .aborted q } := by
  have screens : (Vector.ofFn fun c =>
      if (j.members.any fun m => decide (m.screen = c) && decide (m.outcome = .pending)) = true then
        { s.screens[c] with standby := s.screens[c].standby.aborted j.kind }
      else s.screens[c]) = Vector.ofFn fun c => { s.screens[c] with
      standby := if s.pendingMember c = true then s.screens[c].standby.aborted j.kind else s.screens[c].standby } := by
    refine table_ext fun c => ?_
    have k : s.pendingMember c = j.members.any fun m => decide (m.screen = c) && decide (m.outcome = .pending) := by
      unfold State.pendingMember
      rw [h]
      rfl
    rw [ofFn_get, ofFn_get, k]
    split <;> rfl
  have h1 := abortStandbys_same j.kind j.members s
  rw [screens] at h1
  unfold State.abortJob
  rw [h]
  dsimp only
  have h2 := finishJob_same true { j with members := j.members.map Member.abort } (j.members.foldl (State.abortStandby j.kind) s)
  rw [h1.runners] at h2
  exact h2.trans (h1.with (fun u => { u with
    job := some { j with members := j.members.map Member.abort, phase := .done, result := some .aborted }
    runners := Vector.ofFn fun q => s.runners[q].handed j .aborted q }) fun _ _ => rfl)

/-! ### Loading (R116, R117) -/

/-- R116: the first load that can begin. -/
theorem beginIn_first {before rest : List Member} {m : Member} (hb : ∀ y ∈ before, y.loadIs .notBegun = false)
    (hm : m.loadIs .notBegun = true) :
    beginIn (before ++ m :: rest) = some (before ++ { m with load := some .inProgress } :: rest) := by
  induction before with
  | nil => simp [beginIn, hm]
  | cons a l ih =>
    have ha := hb a List.mem_cons_self
    simp [beginIn, ha, ih fun y hy => hb y (List.mem_cons_of_mem _ hy)]

/-- R117: no load left to begin. -/
theorem beginIn_none {ms : List Member} (h : ∀ y ∈ ms, y.loadIs .notBegun = false) : beginIn ms = none := by
  induction ms with
  | nil => rfl
  | cons a l ih =>
    have ha := h a List.mem_cons_self
    simp [beginIn, ha, ih fun y hy => h y (List.mem_cons_of_mem _ hy)]

/-! ### Acceptance and the runners (R131) -/

/-- R131: the acceptance of a runner's take leaves the runners, when the runner waits for no job's end. -/
theorem accept_runners {s u : State} {r : Fin 4} {take : Take} (h : s.accept (.runner r) take = .ok u)
    (hr : ∀ n, s.runners[r].state ≠ .waiting (.takeDone n none)) : u.runners = s.runners := by
  have fin : ∀ (a : Bool) (j : Job) (v : State), j.requester = .runner r → v.runners = s.runners →
      (v.finishJob a j).runners = s.runners := by
    intro a j v hj hv
    rw [(finishJob_same a j v).runners]
    show Vector.ofFn _ = _
    rw [hv]
    refine table_ext fun q => ?_
    rw [ofFn_get]
    unfold Runner.handed
    rw [if_neg]
    rintro ⟨h1, h2⟩
    rw [hj] at h1
    cases h1
    exact hr _ h2
  have set : ∀ v : State, v.runners = s.runners → (∀ j, v.job = some j → j.requester = .runner r) →
      v.settle.runners = s.runners := by
    intro v hv hj
    unfold State.settle
    split
    · exact hv
    · next j h =>
      split
      · exact hv
      · exact fin _ _ _ (hj _ (currentJob_some.1 h).1) hv
  have adv : ∀ v : State, v.runners = s.runners → (∀ j, v.job = some j → j.requester = .runner r) →
      v.advanceLoading.runners = s.runners := by
    intro v hv hj
    unfold State.advanceLoading
    split
    · exact hv
    · next j h =>
      split
      · exact set _ hv hj
      · split
        · simp [hv]
        · unfold State.armJob
          have hw : (List.foldl State.armMember v j.members).runners = s.runners := by
            rw [(armMembers_same _ _).runners]
            exact hv
          refine set _ ((setJob_same _ _).runners.trans hw) (fun k hk => ?_)
          rw [(setJob_same _ _).job] at hk
          cases hk
          exact (hj j (currentJob_some.1 h).1 : j.requester = .runner r)
  have mem : ∀ kind ms, s.acceptMembers kind (.runner r) ms = .ok u → u.runners = s.runners := by
    intro kind ms h
    unfold State.acceptMembers at h
    split at h
    · cases h
    · cases h
      unfold State.newJob
      refine adv _ ((setJob_same _ _).runners) (fun k hk => ?_)
      rw [(setJob_same _ _).job] at hk
      cases hk
      rfl
  unfold State.accept at h
  cases take with
  | scene n w =>
    dsimp only at h
    split at h
    · cases h
    · exact mem _ _ h
  | layout c e w => exact mem _ _ h
  | revert c w =>
    cases h
    unfold State.acceptRevert State.newJob
    dsimp only
    refine set _ ((setJob_same _ _).runners.trans (armPrevious_same _ _).runners) (fun k hk => ?_)
    rw [(setJob_same _ _).job] at hk
    cases hk
    rfl

/-! ### The grant to a waiting runner (R125) -/

/-- R125: the offer of an engine that is IDLE goes to the waiting runner of the lowest number; when that runner waits for
the engine no more, the engine, where it is IDLE still, is offered on. -/
theorem offerEngine_first {s : State} {r : Fin 4} {take : Take} (hb : s.engineBusy = false) (hw : s.waitingTake r = some take)
    (hl : ∀ q : Fin 4, q < r → s.waitingTake q = none)
    (hn : ∀ q : Fin 4, q ≤ r → (s.submitTake r take true).waitingTake q = none) :
    s.offerEngine = (s.submitTake r take true).offerEngine := by
  have skip : ∀ q : Fin 4, q < r → s.offerTo q = s := fun q h => offerTo_of_none (hl q h)
  have here : s.offerTo r = s.submitTake r take true := by
    unfold State.offerTo
    rw [hb, hw]
    rfl
  have past : ∀ q : Fin 4, q ≤ r → (s.submitTake r take true).offerTo q = s.submitTake r take true := fun q h =>
    offerTo_of_none (hn q h)
  have f : List.finRange 4 = [0, 1, 2, 3] := by decide
  unfold State.offerEngine
  rw [f]
  simp only [List.foldl_cons, List.foldl_nil]
  match r, skip, here, past with
  | 0, _, here, past => rw [here, past 0 (by decide)]
  | 1, skip, here, past => rw [skip 0 (by decide), here, past 0 (by decide), past 1 (by decide)]
  | 2, skip, here, past =>
    rw [skip 0 (by decide), skip 1 (by decide), here, past 0 (by decide), past 1 (by decide), past 2 (by decide)]
  | 3, skip, here, past =>
    rw [skip 0 (by decide), skip 1 (by decide), skip 2 (by decide), here, past 0 (by decide), past 1 (by decide),
      past 2 (by decide), past 3 (by decide)]

/-- DONE, the engine offered to the waiting runners before the reply: the part is as the offer left it. -/
theorem serve_offered {s w : State} {code : Nat} {p : Fin 16} {r : Request} {result : List Byte}
    {body : Fin 16 → List Byte → State → Served} (h : s.Serves code p r)
    (hb : body p r.params (s.beginService p) = ⟨w.offerEngine, .done result, id⟩)
    (hp : w.unmarked.ports = (s.beginService p).unmarked.ports) (hs : w.served = p) :
    AnsweredAs s (s.serve code body) w.offerEngine p r .done result := by
  refine serve_done _ h hb (sameButMarks_of (bare_iff.1 ((offerEngine_bare w).trans hp)) ?_)
  have k : w.offerEngine.served = p := by simpa using hs
  dsimp only
  rw [← k]

end Sys2Proof.Machine
end

