-- ==== Sys2Proof/Laws/Exec.lean ====
section
/-! SUPPORT. What exec answers for each command, so that no proof unfolds the dispatch. -/

namespace Sys2Proof.Machine

variable (s : State)

@[simp] theorem exec_powerOn : exec .powerOn s = .next s.powerOn := rfl

@[simp] theorem exec_startUpEnd : exec .startUpEnd s = .next s.endStartUp := rfl

@[simp] theorem exec_bandCell (port : Fin 16) (cell : List Byte) :
    exec (.bandCell port cell) s = .next (s.cellArrives port cell) := rfl

@[simp] theorem exec_controlCell (port : Fin 16) (cell : List Byte) :
    exec (.controlCell port cell) s = .next (s.cellArrives port cell) := rfl

@[simp] theorem exec_idleCell (port : Fin 16) (cell : List Byte) :
    exec (.idleCell port cell) s = .next (s.cellArrives port cell) := rfl

@[simp] theorem exec_malformedCell (port : Fin 16) (cell : List Byte) :
    exec (.malformedCell port cell) s = .next (s.cellArrives port cell) := rfl

@[simp] theorem exec_silenceTimerExpiry (port : Fin 16) :
    exec (.silenceTimerExpiry port) s = .next (s.silenceExpires port) := rfl

@[simp] theorem exec_staleTimerExpiry (source : Fin 16) :
    exec (.staleTimerExpiry source) s =
      .next (if s.sources[source].stale.isSome then (s.startStale source).takeMiss source else s) := rfl

@[simp] theorem exec_cadenceTick (cadence : Cadence) :
    exec (.cadenceTick cadence) s = .next (s.deliverTick cadence) := rfl

@[simp] theorem exec_screenTick (screen : Fin 24) :
    exec (.screenTick screen) s =
      .next (if s.screens[screen].enabled ∧ 0 < s.screens[screen].ticksDue then s.takeTick screen else s) := rfl

@[simp] theorem exec_waitPicturesCountEnd (runner : Fin 4) :
    exec (.waitPicturesCountEnd runner) s = .next (s.countEnds runner) := rfl

@[simp] theorem exec_secondTick : exec .secondTick s = .next s.secondTick := rfl

@[simp] theorem exec_waitQualifiedTimerExpiry (runner : Fin 4) :
    exec (.waitQualifiedTimerExpiry runner) s = .next (s.timerExpires runner) := rfl

@[simp] theorem exec_memberLoadCompletion :
    exec .memberLoadCompletion s =
      .next (match s.loadInProgress with | none => s | some (c, e, l) => s.loadCompletes c e l) := rfl

@[simp] theorem exec_takeResultTaken (runner : Fin 4) :
    exec (.takeResultTaken runner) s = .next (s.resultTaken runner) := rfl

@[simp] theorem exec_eraseComplete : exec .eraseComplete s = .next s.eraseCompletes := rfl

@[simp] theorem exec_programComplete : exec .programComplete s = .next s.programCompletes := rfl

theorem exec_readBackComplete (differing : List Host.Cell) :
    exec (.readBackComplete differing) s = execReadBackComplete differing s := rfl

@[simp] theorem exec_flashNoAnswer : exec .flashNoAnswer s = .next s.flashUnanswered := rfl

@[simp] theorem exec_setSource : exec .setSource s = .next (s.serve 1 setSourceBody) := rfl

@[simp] theorem exec_requalify : exec .requalify s = .next (s.serve 2 requalifyBody) := rfl

@[simp] theorem exec_readSource : exec .readSource s = .next (s.serve 3 readSourceBody) := rfl

@[simp] theorem exec_capture : exec .capture s = .next (s.serve 4 captureBody) := rfl

@[simp] theorem exec_releaseStill : exec .releaseStill s = .next (s.serve 5 releaseStillBody) := rfl

@[simp] theorem exec_readPool : exec .readPool s = .next (s.serve 6 (readRequest poolReport)) := rfl

@[simp] theorem exec_loadLayout : exec .loadLayout s = .next (s.serve 7 loadLayoutBody) := rfl

@[simp] theorem exec_eraseLayout : exec .eraseLayout s = .next (s.serve 8 eraseLayoutBody) := rfl

@[simp] theorem exec_readLayout : exec .readLayout s = .next (s.serve 9 readLayoutBody) := rfl

@[simp] theorem exec_setScreen : exec .setScreen s = .next (s.serve 10 setScreenBody) := rfl

@[simp] theorem exec_setCadence : exec .setCadence s = .next (s.serve 11 setCadenceBody) := rfl

@[simp] theorem exec_setPalette : exec .setPalette s = .next (s.serve 12 setPaletteBody) := rfl

@[simp] theorem exec_freeze : exec .freeze s = .next (s.serve 13 freezeBody) := rfl

@[simp] theorem exec_setPulse : exec .setPulse s = .next (s.serve 14 setPulseBody) := rfl

@[simp] theorem exec_readScreen : exec .readScreen s = .next (s.serve 15 readScreenBody) := rfl

@[simp] theorem exec_windowTake : exec .windowTake s = .next (s.serve 16 windowTakeBody) := rfl

@[simp] theorem exec_rotate : exec .rotate s = .next (s.serve 17 rotateBody) := rfl

@[simp] theorem exec_setRamp : exec .setRamp s = .next (s.serve 18 setRampBody) := rfl

@[simp] theorem exec_loadRotation : exec .loadRotation s = .next (s.serve 19 loadRotationBody) := rfl

@[simp] theorem exec_readRamp : exec .readRamp s = .next (s.serve 20 (readRequest rampReport)) := rfl

@[simp] theorem exec_readRotation : exec .readRotation s = .next (s.serve 21 readRotationBody) := rfl

@[simp] theorem exec_loadScene : exec .loadScene s = .next (s.serve 22 loadSceneBody) := rfl

@[simp] theorem exec_eraseScene : exec .eraseScene s = .next (s.serve 23 eraseSceneBody) := rfl

@[simp] theorem exec_readScene : exec .readScene s = .next (s.serve 24 readSceneBody) := rfl

@[simp] theorem exec_takeScene : exec .takeScene s = .next (s.serve 25 takeSceneBody) := rfl

@[simp] theorem exec_takeLayout : exec .takeLayout s = .next (s.serve 26 takeLayoutBody) := rfl

@[simp] theorem exec_revert : exec .revert s = .next (s.serve 27 revertBody) := rfl

@[simp] theorem exec_abortTake : exec .abortTake s = .next (s.serve 28 abortTakeBody) := rfl

@[simp] theorem exec_readTake : exec .readTake s = .next (s.serve 29 (readRequest takeReport)) := rfl

@[simp] theorem exec_loadCues : exec .loadCues s = .next (s.serve 30 loadCuesBody) := rfl

@[simp] theorem exec_readCues : exec .readCues s = .next (s.serve 34 readCuesBody) := rfl

@[simp] theorem exec_startCue : exec .startCue s = .next (s.serve 31 startCueBody) := rfl

@[simp] theorem exec_stopCue : exec .stopCue s = .next (s.serve 32 stopCueBody) := rfl

@[simp] theorem exec_resumeCue : exec .resumeCue s = .next (s.serve 33 resumeCueBody) := rfl

@[simp] theorem exec_readRunner : exec .readRunner s = .next (s.serve 35 readRunnerBody) := rfl

@[simp] theorem exec_setTime : exec .setTime s = .next (s.serve 36 setTimeBody) := rfl

@[simp] theorem exec_setAlarm : exec .setAlarm s = .next (s.serve 37 setAlarmBody) := rfl

@[simp] theorem exec_setTrigger : exec .setTrigger s = .next (s.serve 38 setTriggerBody) := rfl

@[simp] theorem exec_readSchedule : exec .readSchedule s = .next (s.serve 39 (readRequest scheduleReport)) := rfl

@[simp] theorem exec_setGrant : exec .setGrant s = .next (s.serve 40 setGrantBody) := rfl

@[simp] theorem exec_readGrants : exec .readGrants s = .next (s.serve 41 (readRequest grantBytes)) := rfl

@[simp] theorem exec_status : exec .status s = .next (s.serve 42 statusBody) := rfl

@[simp] theorem exec_fetchCondition : exec .fetchCondition s = .next (s.serve 43 fetchConditionBody) := rfl

@[simp] theorem exec_restart : exec .restart s = .next (s.serve 44 restartBody) := rfl

@[simp] theorem exec_saveTables : exec .saveTables s = .next (s.serve 45 saveTablesBody) := rfl

@[simp] theorem exec_cueTakeScene (runner : Fin 4) :
    exec (.cueTakeScene runner) s =
      .next (s.cueEvent .takeScene (State.takeEntry (fun e => .scene (Fin.ofNat 32 e.op1) (e.op2 = 1)) runner) runner) := rfl

@[simp] theorem exec_cueTakeLayout (runner : Fin 4) :
    exec (.cueTakeLayout runner) s =
      .next (s.cueEvent .takeLayout (State.takeEntry (fun e => .layout (Fin.ofNat 24 e.op1) (Fin.ofNat 128 e.op2) (e.op3 = 1)) runner) runner) := rfl

@[simp] theorem exec_cueRevert (runner : Fin 4) :
    exec (.cueRevert runner) s =
      .next (s.cueEvent .revert (State.takeEntry (fun e => .revert (Fin.ofNat 24 e.op1) (e.op2 = 1)) runner) runner) := rfl

@[simp] theorem exec_cueWindowTake (runner : Fin 4) :
    exec (.cueWindowTake runner) s =
      .next (s.cueEvent .windowTake (State.actAs windowTakeFields runner) runner) := rfl

@[simp] theorem exec_cueFreeze (runner : Fin 4) :
    exec (.cueFreeze runner) s = .next (s.cueEvent .freeze (State.actAs freezeFields runner) runner) := rfl

@[simp] theorem exec_cueSetPulse (runner : Fin 4) :
    exec (.cueSetPulse runner) s = .next (s.cueEvent .setPulse (State.actAs setPulseFields runner) runner) := rfl

@[simp] theorem exec_cueCapture (runner : Fin 4) :
    exec (.cueCapture runner) s = .next (s.cueEvent .capture (State.actAs captureFields runner) runner) := rfl

@[simp] theorem exec_cueReleaseStill (runner : Fin 4) :
    exec (.cueReleaseStill runner) s =
      .next (s.cueEvent .releaseStill (State.actAs releaseStillFields runner) runner) := rfl

@[simp] theorem exec_cueRotate (runner : Fin 4) :
    exec (.cueRotate runner) s = .next (s.cueEvent .rotate (State.rotateEntry runner) runner) := rfl

@[simp] theorem exec_cueRequalify (runner : Fin 4) :
    exec (.cueRequalify runner) s = .next (s.cueEvent .requalify (State.actAs requalifyFields runner) runner) := rfl

@[simp] theorem exec_waitPictures (runner : Fin 4) :
    exec (.waitPictures runner) s = .next (s.cueEvent .waitPictures (State.waitPicturesEntry runner) runner) := rfl

@[simp] theorem exec_waitTime (runner : Fin 4) :
    exec (.waitTime runner) s = .next (s.cueEvent .waitTime (State.waitTimeEntry runner) runner) := rfl

@[simp] theorem exec_waitQualified (runner : Fin 4) :
    exec (.waitQualified runner) s = .next (s.cueEvent .waitQualified (State.waitQualifiedEntry runner) runner) := rfl

@[simp] theorem exec_jump (runner : Fin 4) :
    exec (.jump runner) s = .next (s.cueEvent .jump (State.jumpEntry runner) runner) := rfl

@[simp] theorem exec_call (runner : Fin 4) :
    exec (.call runner) s = .next (s.cueEvent .call (State.callEntry runner) runner) := rfl

@[simp] theorem exec_returnEntry (runner : Fin 4) :
    exec (.returnEntry runner) s = .next (s.cueEvent .ret (fun _ s => s.returnFrom runner) runner) := rfl

@[simp] theorem exec_haltEntry (runner : Fin 4) :
    exec (.haltEntry runner) s = .next (s.cueEvent .halt (fun _ s => s.haltRunner runner) runner) := rfl

@[simp] theorem exec_controlCellOutOfSync (port : Fin 16) (cell : List Byte) :
    exec (.controlCellOutOfSync port cell) s = .next (s.cellArrives port cell) := rfl

@[simp] theorem exec_emptyEntry (runner : Fin 4) :
    exec (.emptyEntry runner) s = .next (s.cueEvent .empty (fun _ s => s) runner) := rfl

@[simp] theorem exec_unknownRequest : exec .unknownRequest s = .next s.serveUnknown := rfl

end Sys2Proof.Machine
end

