-- ==== Sys2Proof/Laws/Fields.lean ====
section
/-! SUPPORT. The fields of requests: reading them from the parameters, and the range tests over them. -/

namespace Sys2Proof.Machine

/-- The number of one byte. -/
theorem beNat_single (b : Byte) : beNat [b] = b.toNat := by simp [beNat]

/-- A one-byte field is its byte, which reads as 0 where there is none. -/
theorem beNat_take_one (ps : List Byte) (i : Nat) : beNat ((ps.drop i).take 1) = (byteAt ps i).toNat := by
  unfold byteAt
  induction ps generalizing i with
  | nil => simp [beNat]
  | cons b t ih =>
    cases i with
    | zero => simp [beNat]
    | succ i => simpa using ih i

/-- A field of parameters that are all one byte wide. -/
@[simp] theorem fld_map_toNat (ps : List Byte) (i : Nat) : fld (ps.map (·.toNat)) i = (byteAt ps i).toNat := by
  unfold fld byteAt
  simp only [List.getD_eq_getElem?_getD, List.getElem?_map]
  cases ps[i]? <;> simp

/-- The first two fields when both are one byte wide. -/
theorem splitFields_one_one (ws : List Nat) (ps : List Byte) :
    splitFields (1 :: 1 :: ws) ps = (byteAt ps 0).toNat :: (byteAt ps 1).toNat :: splitFields ws (ps.drop 2) := by
  have h := beNat_take_one ps 0
  have k := beNat_take_one ps 1
  rw [List.drop_zero] at h
  simp only [splitFields, h, k, List.drop_drop]

/-- The first field when it is one byte wide. -/
theorem splitFields_one (ws : List Nat) (ps : List Byte) :
    splitFields (1 :: ws) ps = (byteAt ps 0).toNat :: splitFields ws (ps.drop 1) := by
  have h := beNat_take_one ps 0
  rw [List.drop_zero] at h
  simp only [splitFields, h]

@[simp] theorem fld_cons_zero (n : Nat) (f : List Nat) : fld (n :: f) 0 = n := rfl

@[simp] theorem fld_cons_succ (n i : Nat) (f : List Nat) : fld (n :: f) (i + 1) = fld f i := rfl

/-- Every test passes exactly where no index is found. -/
theorem firstBad_eq_none {n : Nat} {tests : List Bool} : firstBad n tests = none ↔ ∀ b ∈ tests, b = true := by
  induction tests generalizing n with
  | nil => simp [firstBad]
  | cons b t ih => cases b <;> simp [firstBad, ih]

/-- The index found is that of a test that fails, after tests that all pass. -/
theorem firstBad_eq_some {n i : Nat} {tests : List Bool} :
    firstBad n tests = some i ↔ ∃ k : Nat, i = n + k ∧ tests[k]? = some false ∧ ∀ j : Nat, j < k → tests[j]? = some true := by
  induction tests generalizing n with
  | nil => simp [firstBad]
  | cons b t ih =>
    cases b
    · simp only [firstBad, Option.some.injEq]
      constructor
      · rintro rfl
        exact ⟨0, rfl, rfl, fun j h => absurd h (Nat.not_lt_zero j)⟩
      · rintro ⟨k, rfl, -, hj⟩
        cases k with
        | zero => rfl
        | succ k => simpa using hj 0 (Nat.succ_pos k)
    · simp only [firstBad, ih]
      constructor
      · rintro ⟨k, rfl, hk, hj⟩
        refine ⟨k + 1, by omega, by simpa using hk, fun j h => ?_⟩
        cases j with
        | zero => rfl
        | succ j => simpa using hj j (by omega)
      · rintro ⟨k, rfl, hk, hj⟩
        cases k with
        | zero => simp at hk
        | succ k => exact ⟨k, by omega, by simpa using hk, fun j h => by simpa using hj (j + 1) (by omega)⟩

/-- A value within a range. -/
@[simp] theorem within_eq_true {lo hi n : Nat} : within lo hi n = true ↔ lo ≤ n ∧ n ≤ hi := by simp [within]

/-- Records cut from bytes are as many as asked for. -/
@[simp] theorem chunks_length (size n : Nat) (bs : List Byte) : (chunks size n bs).length = n := by
  induction n generalizing bs with
  | zero => rfl
  | succ n ih => simp [chunks, ih]

/-- The serialized entries of a run are as many as its count. -/
@[simp] theorem cueFields_length (n : Nat) (bs : List Byte) : (cueFields n bs).length = n := by simp [cueFields]

end Sys2Proof.Machine
end

