-- ==== Sys2Proof/Laws/Memory.lean ====
section
/-! SUPPORT. The image area of the flash: the canonical form is kept by every write, and reads find what was written. -/

namespace Sys2Proof.Machine

/-- The canonical form of a list, by its first entry and the rest. -/
theorem memWf_cons {c : Host.Cell} {m : List Host.Cell} :
    memWf (c :: m) = true ↔ c.2 ≠ Config.erasedByte ∧ (∀ d ∈ m, c.1 < d.1) ∧ memWf m = true := by
  induction m generalizing c with
  | nil => simp [memWf]
  | cons d t ih =>
    have k : memWf (c :: d :: t) = true ↔ c.2 ≠ Config.erasedByte ∧ c.1 < d.1 ∧ memWf (d :: t) = true := by
      simp [memWf, and_assoc]
    rw [k]
    constructor
    · rintro ⟨a, b, w⟩
      refine ⟨a, fun e he => ?_, w⟩
      rcases List.mem_cons.1 he with rfl | he
      · exact b
      · exact Nat.lt_trans b ((ih.1 w).2.1 e he)
    · rintro ⟨a, b, w⟩
      exact ⟨a, b d List.mem_cons_self, w⟩

/-- The entries after a write are those before it and the one written. -/
theorem mem_memWrite {m : List Host.Cell} {a : Nat} {b : Byte} {d : Host.Cell} (h : d ∈ memWrite m a b) :
    d = (a, b) ∨ d ∈ m := by
  induction m with
  | nil =>
    unfold memWrite at h
    split at h <;> simp_all
  | cons c t ih =>
    unfold memWrite at h
    split_ifs at h
    · exact .inr h
    · exact List.mem_cons.1 h
    · exact .inr (List.mem_cons_of_mem _ h)
    · rcases List.mem_cons.1 h with rfl | h
      · exact .inl rfl
      · exact .inr (List.mem_cons_of_mem _ h)
    · rcases List.mem_cons.1 h with rfl | h
      · exact .inr List.mem_cons_self
      · rcases ih h with h | h
        · exact .inl h
        · exact .inr (List.mem_cons_of_mem _ h)

/-- A write keeps the canonical form. -/
theorem memWrite_wf {m : List Host.Cell} (a : Nat) (b : Byte) (h : memWf m = true) : memWf (memWrite m a b) = true := by
  induction m with
  | nil =>
    unfold memWrite
    split
    · rfl
    · next hb => simpa [memWf] using hb
  | cons c t ih =>
    obtain ⟨hc, hl, ht⟩ := memWf_cons.1 h
    unfold memWrite
    split_ifs with h1 h2 h3 h4
    · exact h
    · refine memWf_cons.2 ⟨h2, fun d hd => ?_, h⟩
      rcases List.mem_cons.1 hd with rfl | hd
      · exact h1
      · exact Nat.lt_trans h1 (hl d hd)
    · exact ht
    · refine memWf_cons.2 ⟨h4, fun d hd => ?_, ht⟩
      rw [h3]
      exact hl d hd
    · refine memWf_cons.2 ⟨hc, fun d hd => ?_, ih ht⟩
      rcases mem_memWrite hd with rfl | hd
      · show c.1 < a
        omega
      · exact hl d hd

/-- An address below every entry reads as erased. -/
theorem memRead_below {m : List Host.Cell} {a : Nat} (h : ∀ d ∈ m, a < d.1) : memRead m a = Config.erasedByte := by
  induction m with
  | nil => rfl
  | cons c t ih =>
    unfold memRead
    rw [if_neg (Nat.ne_of_gt (h c List.mem_cons_self))]
    exact ih fun d hd => h d (List.mem_cons_of_mem _ hd)

/-- A read after a write of a canonical list. -/
theorem memRead_memWrite {m : List Host.Cell} (a : Nat) (b : Byte) (x : Nat) (h : memWf m = true) :
    memRead (memWrite m a b) x = if x = a then b else memRead m x := by
  induction m with
  | nil =>
    unfold memWrite
    by_cases hx : x = a
    · subst hx
      rw [if_pos rfl]
      split
      · next hb => rw [hb]; rfl
      · simp [memRead]
    · rw [if_neg hx]
      split
      · rfl
      · simp [memRead, Ne.symm hx]
  | cons c t ih =>
    obtain ⟨hc, hl, ht⟩ := memWf_cons.1 h
    unfold memWrite
    by_cases h1 : a < c.1
    · rw [if_pos h1]
      have hb : memRead (c :: t) a = Config.erasedByte := memRead_below fun d hd => by
        rcases List.mem_cons.1 hd with rfl | hd
        · exact h1
        · exact Nat.lt_trans h1 (hl d hd)
      by_cases hx : x = a
      · subst hx
        rw [if_pos rfl]
        split
        · next e => rw [hb, e]
        · simp [memRead]
      · rw [if_neg hx]
        split
        · rfl
        · conv_lhs => unfold memRead
          rw [if_neg (Ne.symm hx)]
    · rw [if_neg h1]
      by_cases h2 : a = c.1
      · rw [if_pos h2]
        by_cases hx : x = a
        · subst hx
          rw [if_pos rfl]
          split
          · next e =>
            rw [e]
            exact memRead_below fun d hd => by rw [h2]; exact hl d hd
          · simp [memRead]
        · rw [if_neg hx]
          have hr : memRead (c :: t) x = memRead t x := by
            conv_lhs => unfold memRead
            rw [if_neg (fun e => hx (by rw [← e, h2]))]
          rw [hr]
          split
          · rfl
          · conv_lhs => unfold memRead
            rw [if_neg (Ne.symm hx)]
      · rw [if_neg h2]
        unfold memRead
        by_cases h3 : c.1 = x
        · rw [if_pos h3, if_neg (fun e => h2 (by rw [← e, h3])), if_pos h3]
        · rw [if_neg h3, ih ht, if_neg h3]

/-- A run of writes keeps the canonical form. -/
theorem memWriteBytes_wf {m : List Host.Cell} (a : Nat) (bs : List Byte) (h : memWf m = true) :
    memWf (memWriteBytes m a bs) = true := by
  induction bs generalizing m a with
  | nil => exact h
  | cons b t ih => exact ih _ (memWrite_wf _ _ h)

/-- Single writes keep the canonical form. -/
theorem memWriteCells_wf {m : List Host.Cell} (cs : List Host.Cell) (h : memWf m = true) :
    memWf (memWriteCells m cs) = true := by
  induction cs generalizing m with
  | nil => exact h
  | cons c t ih => exact ih (memWrite_wf _ _ h)

/-- A read after a run of writes to a canonical list. -/
theorem memRead_memWriteBytes {m : List Host.Cell} (a : Nat) (bs : List Byte) (x : Nat) (h : memWf m = true) :
    memRead (memWriteBytes m a bs) x = if a ≤ x ∧ x < a + bs.length then bs.getD (x - a) 0 else memRead m x := by
  induction bs generalizing m a with
  | nil => rw [if_neg (by simp)]; rfl
  | cons b t ih =>
    unfold memWriteBytes
    rw [ih _ (memWrite_wf _ _ h), memRead_memWrite _ _ _ h, List.length_cons]
    by_cases h1 : x = a
    · subst h1
      rw [if_neg (by omega), if_pos rfl, if_pos (by omega), Nat.sub_self]
      rfl
    · by_cases h2 : a + 1 ≤ x ∧ x < a + 1 + t.length
      · rw [if_pos h2, if_pos (by omega), show x - a = (x - (a + 1)) + 1 by omega]
        rfl
      · rw [if_neg h2, if_neg h1, if_neg (by omega)]

/-- A run of bytes read one by one. -/
theorem readBytes_eq {f : Flash} {a : Nat} {bs : List Byte} :
    f.readBytes a bs.length = bs ↔ ∀ i : Nat, i < bs.length → f.read (a + i) = bs.getD i 0 := by
  induction bs generalizing a with
  | nil => simp [Flash.readBytes]
  | cons b t ih =>
    simp only [List.length_cons, Flash.readBytes, List.cons.injEq, ih]
    constructor
    · rintro ⟨h, k⟩ i hi
      cases i with
      | zero => exact h
      | succ i =>
        have := k i (by omega)
        rwa [show a + 1 + i = a + (i + 1) by omega] at this
    · intro h
      refine ⟨h 0 (by omega), fun i hi => ?_⟩
      have := h (i + 1) (by omega)
      rwa [show a + (i + 1) = a + 1 + i by omega] at this

end Sys2Proof.Machine
end

