-- ==== Sys2Proof/Laws/Image.lean ====
section
/-! SUPPORT. The image of the stored tables, written and read back: its header, its sections, and the validity of an image
that stands in the flash. -/

namespace Sys2Proof.Machine

/-! ### Numbers -/

/-- A two-byte field read back. -/
theorem beNat_byte2 {n : Nat} (h : n < 65536) : beNat (byte2 n) = n := by
  simp [beNat, byte2, beBytes]
  omega

/-- A four-byte field read back. -/
theorem beNat_byte4 {n : Nat} (h : n < 4294967296) : beNat (byte4 n) = n := by
  simp [beNat, byte4, beBytes]
  omega

/-- The length of a field. -/
@[simp] theorem beBytes_length (k n : Nat) : (beBytes k n).length = k := by
  induction k with
  | zero => rfl
  | succ k ih => simp [beBytes, ih]

@[simp] theorem byte1_length (n : Nat) : (byte1 n).length = 1 := beBytes_length 1 n

@[simp] theorem byte2_length (n : Nat) : (byte2 n).length = 2 := beBytes_length 2 n

@[simp] theorem byte4_length (n : Nat) : (byte4 n).length = 4 := beBytes_length 4 n

@[simp] theorem flag_length (b : Bool) : (flag b).length = 1 := byte1_length _

/-- Records of one size, joined. -/
theorem flatMap_length {α : Type} {f : α → List Byte} {size : Nat} (h : ∀ x, (f x).length = size) (l : List α) :
    (l.flatMap f).length = size * l.length := by
  induction l with
  | nil => simp
  | cons a t ih => rw [List.flatMap_cons, List.length_append, ih, h, List.length_cons, Nat.mul_succ, Nat.add_comm]

/-! ### The sections (12 section 12.5) -/

/-- The sections joined read as they were. -/
theorem splitSections_joinSections (bodies : List (List Byte)) (k : Nat) (hb : ∀ b ∈ bodies, b.length < 4294967296)
    (hk : k + bodies.length ≤ 256) : splitSections bodies.length k (joinSections k bodies) = some bodies := by
  induction bodies generalizing k with
  | nil => rfl
  | cons b rest ih =>
    have hl := hb b List.mem_cons_self
    simp only [List.length_cons] at hk
    obtain ⟨p, q, r, t, e⟩ : ∃ p q r t, byte4 b.length = [p, q, r, t] := ⟨_, _, _, _, rfl⟩
    have n : beNat [p, q, r, t] = b.length := by rw [← e]; exact beNat_byte4 hl
    have f : (byteAt (byte1 k) 0).toNat = k := by
      simp [byte1, beBytes, byteAt]
      omega
    have i := ih (k + 1) (fun x hx => hb x (List.mem_cons_of_mem _ hx)) (by omega)
    obtain ⟨z, ez⟩ : ∃ z, byte1 k = [z] := ⟨_, rfl⟩
    rw [ez] at f
    have j : joinSections k (b :: rest) = z :: 0 :: p :: q :: r :: t :: (b ++ joinSections (k + 1) rest) := by
      simp [joinSections, sectionBytes, e, ez]
    rw [j]
    simp only [List.length_cons, splitSections, List.drop_succ_cons, List.drop_zero, List.take_succ_cons, List.take_zero, n]
    rw [if_neg]
    · rw [show 6 + b.length = b.length + 6 by omega]
      simp [i]
    · rw [show byteAt (z :: 0 :: p :: q :: r :: t :: (b ++ joinSections (k + 1) rest)) 0 = byteAt [z] 0 from rfl, f]
      simp only [List.length_append]
      omega

/-! ### An image in the flash (R175) -/

/-- A run of bytes of a flash. -/
theorem readBytes_append (f : Flash) (a m n : Nat) : f.readBytes a (m + n) = f.readBytes a m ++ f.readBytes (a + m) n := by
  induction m generalizing a with
  | zero => simp [Flash.readBytes]
  | succ m ih => rw [Nat.succ_add, Flash.readBytes, ih, Flash.readBytes, List.cons_append, Nat.add_assoc, Nat.add_comm 1 m]

/-- A content that stands in the flash after its header is valid when it can be cut at its places. -/
theorem validImage_of {f : Flash} {content : List Byte} (hc : f.crcFails = false) (hl : 16 + content.length ≤ 262144)
    (hr : f.readBytes 0 (16 + content.length) = imageHeader content ++ content) :
    validImage true f = parseContent content := by
  have hh : (imageHeader content).length = 16 := by simp [imageHeader]
  rw [readBytes_append] at hr
  have len : ∀ a n, (f.readBytes a n).length = n := fun a n => by
    induction n generalizing a with
    | zero => rfl
    | succ n ih => simp [Flash.readBytes, ih]
  obtain ⟨h1, h2⟩ := List.append_inj hr (by rw [len, hh])
  have b1 : beNat ((imageHeader content).take 2) = 1 := rfl
  have b2 : beNat (((imageHeader content).drop 2).take 4) = content.length := by
    rw [show ((imageHeader content).drop 2).take 4 = byte4 content.length from rfl]
    exact beNat_byte4 (by omega)
  have b3 : beNat (((imageHeader content).drop 6).take 4) = (crc32 content).toNat := by
    rw [show ((imageHeader content).drop 6).take 4 = byte4 (crc32 content).toNat from rfl]
    exact beNat_byte4 (crc32 content).isLt
  unfold validImage
  dsimp only
  rw [h1, b1, b2, b3, hc]
  have c : (true && !false && (1 : Nat) == Config.imageFormat && decide (16 + content.length ≤ Config.imageArea)) = true :=
    Bool.and_eq_true_iff.2 ⟨rfl, decide_eq_true hl⟩
  rw [if_pos c]
  rw [Nat.zero_add] at h2
  rw [h2, if_pos rfl]

/-- A flash programmed with an image (R173) holds it. -/
theorem readBytes_programmed (image : List Byte) (crcFails : Bool) :
    (Flash.mk (memWriteBytes [] 0 image) none crcFails).readBytes 0 image.length = image := by
  refine readBytes_eq.2 fun i hi => ?_
  show memRead (memWriteBytes [] 0 image) (0 + i) = _
  rw [memRead_memWriteBytes _ _ _ rfl, if_pos (by omega)]
  congr 1
  omega

end Sys2Proof.Machine
end

