-- ==== Sys2Proof/Laws/Keeps.lean ====
section
/-! SUPPORT. What a service, an execution and a step keep: a property of the state is kept when each of their parts
keeps it. -/

namespace Sys2Proof.Machine

/-- A service keeps what its beginning, its replies, and the owning block's two parts keep. -/
theorem serve_keeps {I : State → Prop} {code : Nat} {body : Fin 16 → List Byte → State → Served} {s : State}
    (hb : ∀ p s, I s → I (s.beginService p)) (hr : ∀ p r s, I s → I (s.reply p r .refused []))
    (ha : ∀ p r a s, I s → I (s.answerRequest p r a)) (hbody : ∀ p ps s, I s → I (body p ps s).state)
    (hafter : ∀ p ps s t, I t → I ((body p ps s).after t)) (h : I s) : I (s.serve code body) := by
  unfold State.serve
  split
  · exact h
  · split
    · unfold State.serveRequest
      split
      · exact hb _ _ h
      · exact hr _ _ _ (hb _ _ h)
      · exact ha _ _ _ _ (hb _ _ h)
      · exact hafter _ _ _ _ (ha _ _ _ _ (hbody _ _ _ (hb _ _ h)))
    · exact h

/-- The service of an unknown code keeps what its beginning and its replies keep. -/
theorem serveUnknown_keeps {I : State → Prop} {s : State} (hb : ∀ p s, I s → I (s.beginService p))
    (hr : ∀ p r s, I s → I (s.reply p r .refused [])) (ha : ∀ p r a s, I s → I (s.answerRequest p r a)) (h : I s) :
    I s.serveUnknown := by
  unfold State.serveUnknown
  split
  · exact h
  · split
    · exact h
    · unfold State.serveRequest
      split
      · exact hb _ _ h
      · exact hr _ _ _ (hb _ _ h)
      · exact ha _ _ _ _ (hb _ _ h)
      · exact ha _ _ (.refused .unknownRequest (some 0)) _ (hb _ _ h)

/-- R139: an execution keeps what a fault and the entry's own effect keep; the effect meets a runner that has passed
the tests. -/
theorem cueEvent_keeps {I : State → Prop} {kind : CueKind} {run : CueEntry → State → State} {r : Fin 4} {s : State}
    (hf : ∀ k d s, I s → I (s.faultRunner r k d))
    (hr : s.runners[r].state = .running → s.runners[r].spin < 64 → s.runners[r].position < 1024 →
      (s.entryAt r).kind = kind → I s → I (run (s.entryAt r) s))
    (h : I s) : I (s.cueEvent kind run r) := by
  unfold State.cueEvent
  dsimp only
  split
  · next hk =>
    split
    · exact hf _ _ _ h
    · next h1 =>
      split
      · exact hf _ _ _ h
      · next h2 =>
        split
        · exact hf _ _ _ h
        · exact hr hk.1 (Nat.not_le.1 h1) (Nat.not_le.1 h2) hk.2 h
  · exact h

/-- R130: what follows an entry that acts as a request keeps what a fault and the next position keep. -/
theorem followRequest_keeps {I : State → Prop} {r : Fin 4} {x : State × Answer} (hf : ∀ k d s, I s → I (s.faultRunner r k d))
    (hn : I x.1 → I (x.1.advanceRunner r)) (h : I x.1) : I (State.followRequest r x) := by
  unfold State.followRequest
  split
  · exact hn h
  · exact hf _ _ _ h
  · exact h

/-- A step keeps what every command keeps. -/
theorem step_keeps {I : State → Prop} (hq : ∀ (s : State) (l : List Instr), I s → I { s with pending := l })
    (hx : ∀ (c : Instr) (s t : State), I s → exec c s = .next t → I t) (s t : State) (h : I s) (hs : step s = .next t) :
    I t := by
  unfold step at hs
  split at hs
  · cases hs
    exact h
  · exact hx _ _ _ (hq s _ h) hs

end Sys2Proof.Machine
end

