-- ==== Sys2Proof/Laws/Marked.lean ====
section
/-! SUPPORT. The change marks (R169): what each operation changes is marked, and a mark that was set stays set. Each lemma
carries `Marked` past one operation. -/

namespace Sys2Proof.Machine

set_option linter.unusedSimpArgs false
set_option linter.unnecessarySeqFocus false

/-! ### The relation -/

theorem Marked.refl (s : State) : Marked s s := fun _ =>
  ⟨fun _ h => h.elim id fun k => absurd rfl k, fun _ h => h.elim id fun k => k.elim (absurd rfl) (absurd rfl),
    fun _ h => h.elim id fun k => absurd rfl k, fun h => h.elim id fun k => absurd rfl k⟩

theorem Marked.trans {s t u : State} (h : Marked s t) (k : Marked t u) : Marked s u := by
  intro q
  obtain ⟨h1, h2, h3, h4⟩ := h q
  obtain ⟨k1, k2, k3, k4⟩ := k q
  refine ⟨fun i m => k1 i ?_, fun c m => k2 c ?_, fun r m => k3 r ?_, fun m => k4 ?_⟩
  · by_cases e : t.sources[i].state = s.sources[i].state
    · rw [e]
      exact m.imp_left fun n => h1 i (.inl n)
    · exact .inl (h1 i (.inr e))
  · by_cases e : t.screens[c].state = s.screens[c].state
    · by_cases f : t.screens[c].standby.num = s.screens[c].standby.num
      · rw [e, f]
        exact m.imp_left fun n => h2 c (.inl n)
      · exact .inl (h2 c (.inr (.inr f)))
    · exact .inl (h2 c (.inr (.inl e)))
  · by_cases e : t.runners[r].state.num = s.runners[r].state.num
    · rw [e]
      exact m.imp_left fun n => h3 r (.inl n)
    · exact .inl (h3 r (.inr e))
  · by_cases e : t.jobView = s.jobView
    · rw [e]
      exact m.imp_left fun n => h4 (.inl n)
    · exact .inl (h4 (.inr e))

/-- Where nothing that is marked has changed, and no mark is lost. -/
theorem marked_of_kept {s t : State} (hm : ∀ q : Fin 16, t.ports[q].marks = s.ports[q].marks)
    (h1 : ∀ i : Fin 16, t.sources[i].state = s.sources[i].state)
    (h2 : ∀ c : Fin 24, t.screens[c].state = s.screens[c].state ∧ t.screens[c].standby.num = s.screens[c].standby.num)
    (h3 : ∀ r : Fin 4, t.runners[r].state.num = s.runners[r].state.num) (h4 : t.jobView = s.jobView) : Marked s t := by
  intro q
  rw [hm q]
  exact ⟨fun i h => h.elim id fun k => absurd (h1 i) k,
    fun c h => h.elim id fun k => k.elim (absurd (h2 c).1) (absurd (h2 c).2), fun r h => h.elim id fun k => absurd (h3 r) k,
    fun h => h.elim id fun k => absurd h4 k⟩

/-- What is marked of the take job is read from the job alone. -/
theorem jobView_congr {s t : State} (h : t.job = s.job) : t.jobView = s.jobView := by
  unfold State.jobView
  rw [h]

section
variable {s t : State}

/-! ### The named updates -/

/-- A write of what is not marked. -/
@[simp] theorem mk_marked {a1 a2 a3 a4 a5 a6 a7 a8 a9 a10 a11 a12 a13 a14 a15 a16 a17 a18 a19} (h : Marked s t) :
    Marked s (State.mk t.ports t.sources a1 a2 a3 a4 t.screens a5 a6 a7 a8 a9 a10 a11 t.job a12 t.runners a13 a14 a15 a16 a17
      a18 a19) := h

@[simp] theorem modPort_marked (p : Fin 16) (f : Port → Port) (hf : ∀ x : Port, (f x).marks = x.marks) (h : Marked s t) :
    Marked s (t.modPort p f) := by
  refine h.trans (marked_of_kept (fun q => ?_) (fun _ => rfl) (fun _ => ⟨rfl, rfl⟩) (fun _ => rfl) (jobView_congr rfl))
  rw [State.modPort_ports, put_get]
  split
  · next e => rw [hf, e]
  · rfl

@[simp] theorem modSource_marked (i : Fin 16) (f : Source → Source) (hf : ∀ x : Source, (f x).state = x.state)
    (h : Marked s t) : Marked s (t.modSource i f) := by
  refine h.trans (marked_of_kept (fun _ => rfl) (fun j => ?_) (fun _ => ⟨rfl, rfl⟩) (fun _ => rfl) (jobView_congr rfl))
  rw [State.modSource_sources, put_get]
  split
  · next e => rw [hf, e]
  · rfl


@[simp] theorem modPorts_marked (f : Port → Port) (hf : ∀ x : Port, (f x).marks = x.marks) (h : Marked s t) :
    Marked s (t.modPorts f) := by
  refine h.trans (marked_of_kept (fun q => ?_) (fun i => ?_) (fun c => ?_) (fun r => ?_) (jobView_congr ?_))
  · rw [State.modPorts_ports, mapTable_get, hf]
  · rw [State.modPorts_sources]
  · rw [State.modPorts_screens]
    exact ⟨rfl, rfl⟩
  · rw [State.modPorts_runners]
  · rw [State.modPorts_job]

@[simp] theorem modCounters_marked (p : Fin 16) (f : PortCounters → PortCounters) (h : Marked s t) :
    Marked s (t.modCounters p f) := by
  unfold State.modCounters
  exact modPort_marked _ _ (fun _ => rfl) h

@[simp] theorem modSlot_marked (k : Fin 64) (f : Slot → Slot) (h : Marked s t) : Marked s (t.modSlot k f) := h
@[simp] theorem modAlarm_marked (n : Fin 16) (f : Alarm → Alarm) (h : Marked s t) : Marked s (t.modAlarm n f) := h
@[simp] theorem modTrigger_marked (n : Fin 16) (f : Trigger → Trigger) (h : Marked s t) : Marked s (t.modTrigger n f) := h
@[simp] theorem modFlash_marked (f : Flash → Flash) (h : Marked s t) : Marked s (t.modFlash f) := h

/-- A fold of operations that mark what they change. -/
theorem foldl_marked {α : Type} (g : State → α → State) (hg : ∀ (u : State) (a : α), Marked s u → Marked s (g u a)) (l : List α)
    (h : Marked s t) : Marked s (l.foldl g t) := by
  induction l generalizing t with
  | nil => exact h
  | cons a l ih => exact ih (hg t a h)

/-! ### The writes that mark -/

/-- R32: a source's state is written; a change of it sets the source's mark on every port, and no other mark. -/
theorem setSourceState_ports (i : Fin 16) (st : SourceState) (s : State) (q : Fin 16) :
    (s.setSourceState i st).ports[q] = if s.sources[i].state = st then s.ports[q] else
      { s.ports[q] with marks := { s.ports[q].marks with sources := put s.ports[q].marks.sources i true } } := by
  unfold State.setSourceState State.markSource
  dsimp only
  by_cases h : s.sources[i].state = st
  · rw [if_pos h, if_pos h]
    rfl
  · rw [if_neg h, if_neg h, State.modPorts_ports, mapTable_get]
    rfl

/-- R71: a screen is written; a change of its state or standby state sets the screen's mark on every port, and no other. -/
theorem setScreen_ports (c : Fin 24) (x : Screen) (s : State) (q : Fin 16) :
    (s.setScreen c x).ports[q] = if s.screens[c].state = x.state ∧ s.screens[c].standby.num = x.standby.num then s.ports[q]
      else { s.ports[q] with marks := { s.ports[q].marks with screens := put s.ports[q].marks.screens c true } } := by
  unfold State.setScreen State.markScreen
  dsimp only
  by_cases h : s.screens[c].state = x.state ∧ s.screens[c].standby.num = x.standby.num
  · rw [if_pos h, if_pos h]
  · rw [if_neg h, if_neg h, State.modPorts_ports, mapTable_get]

/-- R138: a runner is written; a change of its state sets the runner's mark on every port, and no other. -/
theorem setRunner_ports (r : Fin 4) (x : Runner) (s : State) (q : Fin 16) :
    (s.setRunner r x).ports[q] = if s.runners[r].state.num = x.state.num then s.ports[q] else
      { s.ports[q] with marks := { s.ports[q].marks with runners := put s.ports[q].marks.runners r true } } := by
  unfold State.setRunner State.markRunner
  dsimp only
  by_cases h : s.runners[r].state.num = x.state.num
  · rw [if_pos h, if_pos h]
  · rw [if_neg h, if_neg h, State.modPorts_ports, mapTable_get]

/-- R113: the job is written; another job, or a change of the phase or of an outcome, sets the take job's mark on every
port, and no other. -/
theorem setJob_ports (j : Job) (s : State) (q : Fin 16) :
    (s.setJob j).ports[q] = if ∃ old : Job, s.job = some old ∧ old.serial = j.serial ∧ old.phase = j.phase ∧
        old.members.map (·.outcome) = j.members.map (·.outcome) then s.ports[q]
      else { s.ports[q] with marks := { s.ports[q].marks with take := true } } := by
  unfold State.setJob State.markTake
  cases hj : s.job with
  | none => simp
  | some old =>
    simp only [Option.any_some, Option.some.injEq, exists_eq_left', Bool.and_eq_true, decide_eq_true_eq, and_assoc]
    by_cases h : old.serial = j.serial ∧ old.phase = j.phase ∧ old.members.map (·.outcome) = j.members.map (·.outcome)
    · simp only [if_pos h]
    · simp only [if_neg h, State.modPorts_ports, mapTable_get]

@[simp] theorem setSourceState_marked (i : Fin 16) (st : SourceState) (h : Marked s t) : Marked s (t.setSourceState i st) := by
  refine h.trans fun q => ?_
  have hs := (setSourceState_same i st t).sources
  have hc := (setSourceState_same i st t).screens
  have hr := (setSourceState_same i st t).runners
  have hj := (setSourceState_same i st t).job
  unfold State.jobView
  rw [setSourceState_ports, hs, hc, hr, hj]
  unfold State.withSource
  dsimp only
  split
  · next e =>
    refine ⟨fun j m => m.elim id fun n => absurd ?_ n, by simp, by simp, by simp⟩
    rw [put_get]
    split
    · next k => subst k; exact e.symm
    · rfl
  · refine ⟨fun j m => ?_, by simp, by simp, by simp⟩
    rw [put_get] at m ⊢
    split
    · rfl
    · next k =>
      rw [if_neg k] at m
      exact m.elim id fun n => absurd rfl n

@[simp] theorem setScreen_marked (c : Fin 24) (x : Screen) (h : Marked s t) : Marked s (t.setScreen c x) := by
  refine h.trans fun q => ?_
  have hs := (setScreen_same c x t).sources
  have hc := (setScreen_same c x t).screens
  have hr := (setScreen_same c x t).runners
  have hj := (setScreen_same c x t).job
  unfold State.jobView
  rw [setScreen_ports, hs, hc, hr, hj]
  unfold State.withScreen
  dsimp only
  split
  · next e =>
    refine ⟨by simp, fun j m => m.elim id fun n => absurd n (not_or.2 ⟨not_not.2 ?_, not_not.2 ?_⟩), by simp, by simp⟩
    all_goals
      rw [put_get]
      split
      · next k => subst k; first | exact e.1.symm | exact e.2.symm
      · rfl
  · refine ⟨by simp, fun j m => ?_, by simp, by simp⟩
    rw [put_get] at m ⊢
    split
    · rfl
    · next k =>
      rw [if_neg k] at m
      exact m.elim id fun n => n.elim (absurd rfl) (absurd rfl)

@[simp] theorem setRunner_marked (r : Fin 4) (x : Runner) (h : Marked s t) : Marked s (t.setRunner r x) := by
  refine h.trans fun q => ?_
  have hs := (setRunner_same r x t).sources
  have hc := (setRunner_same r x t).screens
  have hr := (setRunner_same r x t).runners
  have hj := (setRunner_same r x t).job
  unfold State.jobView
  rw [setRunner_ports, hs, hc, hr, hj]
  unfold State.withRunner
  dsimp only
  split
  · next e =>
    refine ⟨by simp, by simp, fun j m => m.elim id fun n => absurd ?_ n, by simp⟩
    rw [put_get]
    split
    · next k => subst k; exact e.symm
    · rfl
  · refine ⟨by simp, by simp, fun j m => ?_, by simp⟩
    rw [put_get] at m ⊢
    split
    · rfl
    · next k =>
      rw [if_neg k] at m
      exact m.elim id fun n => absurd rfl n

@[simp] theorem setJob_marked (j : Job) (h : Marked s t) : Marked s (t.setJob j) := by
  refine h.trans fun q => ?_
  have hs := (setJob_same j t).sources
  have hc := (setJob_same j t).screens
  have hr := (setJob_same j t).runners
  have hj := (setJob_same j t).job
  unfold State.jobView
  rw [setJob_ports, hs, hc, hr, hj]
  dsimp only
  split
  · next e =>
    obtain ⟨old, e1, _, e2, e3⟩ := e
    refine ⟨by simp, by simp, by simp, fun m => m.elim id fun n => absurd ?_ n⟩
    rw [e1, Option.map_some, Option.map_some, e2, e3]
  · exact ⟨by simp, by simp, by simp, fun _ => rfl⟩

/-! ### The shared operations -/

@[simp] theorem drawDetail_marked (d : Option Nat) (h : Marked s t) : Marked s ((t.drawDetail d).2) := by
  cases d
  all_goals exact h

@[simp] theorem loseImageArea_marked (b : Bool) (h : Marked s t) : Marked s (t.loseImageArea b) := by
  unfold State.loseImageArea
  try dsimp only
  (repeat' split) <;> simp (maxDischargeDepth := 40) [h, *]

@[simp] theorem grant_marked (i : Fin 16) (n : Byte) (f : Format) (h : Marked s t) : Marked s ((t.grant i n f).2) := by
  unfold State.grant
  split
  all_goals exact h

@[simp] theorem writeBand_marked (k : Fin 64) (l : List Byte) (h : Marked s t) : Marked s (t.writeBand k l) := by
  unfold State.writeBand
  try dsimp only
  (repeat' split) <;> simp (maxDischargeDepth := 40) [h, *]

@[simp] theorem retire_marked (i : Fin 16) (h : Marked s t) : Marked s (t.retire i) := by
  unfold State.retire
  try dsimp only
  (repeat' split) <;> simp (maxDischargeDepth := 40) [h, *]

@[simp] theorem publish_marked (i : Fin 16) (k : Fin 64) (h : Marked s t) : Marked s (t.publish i k) := by
  unfold State.publish
  try dsimp only
  (repeat' split) <;> simp (maxDischargeDepth := 40) [h, *]

@[simp] theorem abandon_marked (k : Fin 64) (h : Marked s t) : Marked s (t.abandon k) := by
  unfold State.abandon
  try dsimp only
  (repeat' split) <;> simp (maxDischargeDepth := 40) [h, *]

@[simp] theorem latch_marked (k : Fin 64) (h : Marked s t) : Marked s (t.latch k) := by
  unfold State.latch
  try dsimp only
  (repeat' split) <;> simp (maxDischargeDepth := 40) [h, *]

@[simp] theorem release_marked (k : Fin 64) (h : Marked s t) : Marked s (t.release k) := by
  unfold State.release
  try dsimp only
  (repeat' split) <;> simp (maxDischargeDepth := 40) [h, *]

@[simp] theorem releaseOpt_marked (k : Option (Fin 64)) (h : Marked s t) : Marked s (t.releaseOpt k) := by
  cases k
  · exact h
  · exact release_marked _ h

@[simp] theorem releaseWindows_marked (ws : List LiveWindow) (h : Marked s t) : Marked s (t.releaseWindows ws) := by
  induction ws generalizing t with
  | nil => exact h
  | cons w rest ih => exact ih (by simp [h])

@[simp] theorem startRunner_marked (r : Fin 4) (a : Nat) (c : StartCause) (h : Marked s t) : Marked s (t.startRunner r a c) := by
  unfold State.startRunner
  try dsimp only
  (repeat' split) <;> simp (maxDischargeDepth := 40) [h, *]

@[simp] theorem advanceRunner_marked (r : Fin 4) (h : Marked s t) : Marked s (t.advanceRunner r) := by
  unfold State.advanceRunner
  try dsimp only
  (repeat' split) <;> simp (maxDischargeDepth := 40) [h, *]

@[simp] theorem enterWait_marked (r : Fin 4) (w : Wait) (h : Marked s t) : Marked s (t.enterWait r w) := by
  unfold State.enterWait
  try dsimp only
  (repeat' split) <;> simp (maxDischargeDepth := 40) [h, *]

@[simp] theorem endWait_marked (r : Fin 4) (h : Marked s t) : Marked s (t.endWait r) := by
  unfold State.endWait
  try dsimp only
  (repeat' split) <;> simp (maxDischargeDepth := 40) [h, *]

@[simp] theorem faultRunner_marked (r : Fin 4) (k : Code) (d : Option Nat) (h : Marked s t) : Marked s (t.faultRunner r k d) := by
  unfold State.faultRunner
  exact setRunner_marked _ _ (drawDetail_marked d h)

@[simp] theorem endQualifiedWait_marked (i : Fin 16) (r : Fin 4) (h : Marked s t) : Marked s (State.endQualifiedWait i t r) := by
  unfold State.endQualifiedWait
  try dsimp only
  (repeat' split) <;> simp (maxDischargeDepth := 40) [h, *]

@[simp] theorem endQualifiedWaits_marked (i : Fin 16) (h : Marked s t) : Marked s (t.endQualifiedWaits i) := by
  unfold State.endQualifiedWaits
  exact foldl_marked _ (fun _ _ k => by simp [k]) _ h

@[simp] theorem triggerMeets_marked (i : Fin 16) (e : SourceEvent) (n : Fin 16) (h : Marked s t) : Marked s (State.triggerMeets i e t n) := by
  unfold State.triggerMeets
  try dsimp only
  (repeat' split) <;> simp (maxDischargeDepth := 40) [h, *]

@[simp] theorem raiseEvent_marked (i : Fin 16) (e : SourceEvent) (h : Marked s t) : Marked s (t.raiseEvent i e) := by
  unfold State.raiseEvent
  exact foldl_marked _ (fun _ _ k => by simp [k]) _ h

/-! ### Sources -/

@[simp] theorem zeroTransitions_marked (i : Fin 16) (h : Marked s t) : Marked s (t.zeroTransitions i) := by
  unfold State.zeroTransitions
  try dsimp only
  (repeat' split) <;> simp (maxDischargeDepth := 40) [h, *]

@[simp] theorem enterAcquiring_marked (i : Fin 16) (h : Marked s t) : Marked s (t.enterAcquiring i) := by
  unfold State.enterAcquiring
  try dsimp only
  (repeat' split) <;> simp (maxDischargeDepth := 40) [h, *]

@[simp] theorem startStale_marked (i : Fin 16) (h : Marked s t) : Marked s (t.startStale i) := by
  unfold State.startStale
  try dsimp only
  (repeat' split) <;> simp (maxDischargeDepth := 40) [h, *]

@[simp] theorem qualify_marked (i : Fin 16) (h : Marked s t) : Marked s (t.qualify i) := by
  unfold State.qualify
  try dsimp only
  (repeat' split) <;> simp (maxDischargeDepth := 40) [h, *]

@[simp] theorem failSource_marked (i : Fin 16) (h : Marked s t) : Marked s (t.failSource i) := by
  unfold State.failSource
  try dsimp only
  (repeat' split) <;> simp (maxDischargeDepth := 40) [h, *]

@[simp] theorem testAcquiring_marked (i : Fin 16) (h : Marked s t) : Marked s (t.testAcquiring i) := by
  unfold State.testAcquiring
  try dsimp only
  (repeat' split) <;> simp (maxDischargeDepth := 40) [h, *]

@[simp] theorem countClean_marked (i : Fin 16) (h : Marked s t) : Marked s (t.countClean i) := by
  unfold State.countClean
  try dsimp only
  (repeat' split) <;> simp (maxDischargeDepth := 40) [h, *]

@[simp] theorem cleanWhileSuspect_marked (i : Fin 16) (h : Marked s t) : Marked s (t.cleanWhileSuspect i) := by
  unfold State.cleanWhileSuspect
  try dsimp only
  (repeat' split) <;> simp (maxDischargeDepth := 40) [h, *]

@[simp] theorem takeClean_marked (i : Fin 16) (b : Bool) (h : Marked s t) : Marked s (t.takeClean i b) := by
  unfold State.takeClean
  try dsimp only
  (repeat' split) <;> simp (maxDischargeDepth := 40) [h, *]

@[simp] theorem reportClean_marked (i : Fin 16) (f : Format) (n : Nat) (h : Marked s t) : Marked s (t.reportClean i f n) := by
  unfold State.reportClean
  try dsimp only
  (repeat' split) <;> simp (maxDischargeDepth := 40) [h, *]

@[simp] theorem takeMiss_marked (i : Fin 16) (h : Marked s t) : Marked s (t.takeMiss i) := by
  unfold State.takeMiss
  try dsimp only
  (repeat' split) <;> simp (maxDischargeDepth := 40) [h, *]

@[simp] theorem reportErrored_marked (i : Fin 16) (n : Nat) (h : Marked s t) : Marked s (t.reportErrored i n) := by
  unfold State.reportErrored
  try dsimp only
  (repeat' split) <;> simp (maxDischargeDepth := 40) [h, *]

@[simp] theorem reportStarved_marked (i : Fin 16) (h : Marked s t) : Marked s (t.reportStarved i) := by
  unfold State.reportStarved
  try dsimp only
  (repeat' split) <;> simp (maxDischargeDepth := 40) [h, *]

@[simp] theorem syncGained_marked (i : Fin 16) (h : Marked s t) : Marked s (t.syncGained i) := by
  unfold State.syncGained
  try dsimp only
  (repeat' split) <;> simp (maxDischargeDepth := 40) [h, *]

@[simp] theorem syncLost_marked (i : Fin 16) (h : Marked s t) : Marked s (t.syncLost i) := by
  unfold State.syncLost
  try dsimp only
  (repeat' split) <;> simp (maxDischargeDepth := 40) [h, *]

@[simp] theorem dropAssembly_marked (i : Fin 16) (h : Marked s t) : Marked s (t.dropAssembly i) := by
  unfold State.dropAssembly
  try dsimp only
  (repeat' split) <;> simp (maxDischargeDepth := 40) [h, *]

@[simp] theorem disableSource_marked (i : Fin 16) (h : Marked s t) : Marked s (t.disableSource i) := by
  unfold State.disableSource
  try dsimp only
  (repeat' split) <;> simp (maxDischargeDepth := 40) [h, *]

@[simp] theorem enableSource_marked (i : Fin 16) (h : Marked s t) : Marked s (t.enableSource i) := by
  unfold State.enableSource
  try dsimp only
  (repeat' split) <;> simp (maxDischargeDepth := 40) [h, *]

@[simp] theorem requalify_marked (i : Fin 16) (h : Marked s t) : Marked s (t.requalify i) := by
  unfold State.requalify
  try dsimp only
  (repeat' split) <;> simp (maxDischargeDepth := 40) [h, *]

@[simp] theorem clearCounters_marked (i : Fin 16) (h : Marked s t) : Marked s (t.clearCounters i) := by
  unfold State.clearCounters
  try dsimp only
  (repeat' split) <;> simp (maxDischargeDepth := 40) [h, *]

/-! ### Feed ports -/

@[simp] theorem discardFrom_marked (p : Fin 16) (h : Marked s t) : Marked s (t.discardFrom p) := by
  unfold State.discardFrom
  try dsimp only
  (repeat' split) <;> simp (maxDischargeDepth := 40) [h, *]

@[simp] theorem gapPicture_marked (p : Fin 16) (h : Marked s t) : Marked s (t.gapPicture p) := by
  unfold State.gapPicture
  try dsimp only
  (repeat' split) <;> simp (maxDischargeDepth := 40) [h, *]

@[simp] theorem writeChecked_marked (p : Fin 16) (k : Fin 64) (b : BandCell) (f : Bool) (h : Marked s t) : Marked s (t.writeChecked p k b f) := by
  unfold State.writeChecked
  try dsimp only
  (repeat' split) <;> simp (maxDischargeDepth := 40) [h, *]

@[simp] theorem firstBand_marked (p : Fin 16) (b : BandCell) (f : Format) (h : Marked s t) : Marked s (t.firstBand p b f) := by
  unfold State.firstBand
  split
  · simp [h]
  · have g := grant_marked p b.number f h
    split
    all_goals
      next e =>
      rw [e] at g
      simp (maxDischargeDepth := 40) at g ⊢
      simp (maxDischargeDepth := 40) [g]

@[simp] theorem completePicture_marked (p : Fin 16) (k : Fin 64) (n : Byte) (f : Format) (e : Bool) (h : Marked s t) : Marked s (t.completePicture p k n f e) := by
  unfold State.completePicture
  try dsimp only
  (repeat' split) <;> simp (maxDischargeDepth := 40) [h, *]

@[simp] theorem laterBand_marked (p : Fin 16) (b : BandCell) (k : Fin 64) (n : Byte) (f : Format) (x : Nat) (e : Bool) (h : Marked s t) : Marked s (t.laterBand p b k n f x e) := by
  unfold State.laterBand
  try dsimp only
  (repeat' split) <;> simp (maxDischargeDepth := 40) [h, *]

@[simp] theorem reply_marked (p : Fin 16) (r : Request) (st : ReplyStatus) (l : List Byte) (h : Marked s t) : Marked s (t.reply p r st l) := by
  unfold State.reply
  try dsimp only
  (repeat' split) <;> simp (maxDischargeDepth := 40) [h, *]

@[simp] theorem recordCondition_marked (p : Fin 16) (r : Request) (c : Code) (d : Option Nat) (h : Marked s t) : Marked s (t.recordCondition p r c d) := by
  unfold State.recordCondition
  split
  · exact h
  · exact modPort_marked _ _ (fun _ => rfl) (drawDetail_marked d h)

@[simp] theorem answerRequest_marked (p : Fin 16) (r : Request) (a : Answer) (h : Marked s t) : Marked s (t.answerRequest p r a) := by
  unfold State.answerRequest
  try dsimp only
  (repeat' split) <;> simp (maxDischargeDepth := 40) [h, *]

@[simp] theorem requestArrives_marked (p : Fin 16) (r : Request) (h : Marked s t) : Marked s (t.requestArrives p r) := by
  unfold State.requestArrives
  try dsimp only
  (repeat' split) <;> simp (maxDischargeDepth := 40) [h, *]

@[simp] theorem beginService_marked (p : Fin 16) (h : Marked s t) : Marked s (t.beginService p) := by
  unfold State.beginService
  exact mk_marked (modPort_marked p (fun x => { x with queue := x.queue.tail }) (fun _ => rfl) h)

@[simp] theorem assemble_marked (p : Fin 16) (b : BandCell) (h : Marked s t) : Marked s (t.assemble p b) := by
  unfold State.assemble
  try dsimp only
  (repeat' split) <;> simp (maxDischargeDepth := 40) [h, *]

@[simp] theorem sortCell_marked (p : Fin 16) (c : Cell) (h : Marked s t) : Marked s (t.sortCell p c) := by
  unfold State.sortCell
  try dsimp only
  (repeat' split) <;> simp (maxDischargeDepth := 40) [h, *]

@[simp] theorem loseSync_marked (p : Fin 16) (h : Marked s t) : Marked s (t.loseSync p) := by
  unfold State.loseSync
  try dsimp only
  (repeat' split) <;> simp (maxDischargeDepth := 40) [h, *]

@[simp] theorem gainSync_marked (p : Fin 16) (h : Marked s t) : Marked s (t.gainSync p) := by
  unfold State.gainSync
  try dsimp only
  (repeat' split) <;> simp (maxDischargeDepth := 40) [h, *]

@[simp] theorem malformedArrives_marked (p : Fin 16) (h : Marked s t) : Marked s (t.malformedArrives p) := by
  unfold State.malformedArrives
  try dsimp only
  (repeat' split) <;> simp (maxDischargeDepth := 40) [h, *]

@[simp] theorem wellFormedArrives_marked (p : Fin 16) (c : Cell) (h : Marked s t) : Marked s (t.wellFormedArrives p c) := by
  unfold State.wellFormedArrives
  try dsimp only
  (repeat' split) <;> simp (maxDischargeDepth := 40) [h, *]

@[simp] theorem cellArrives_marked (p : Fin 16) (c : List Byte) (h : Marked s t) : Marked s (t.cellArrives p c) := by
  unfold State.cellArrives
  try dsimp only
  (repeat' split) <;> simp (maxDischargeDepth := 40) [h, *]

@[simp] theorem silenceExpires_marked (p : Fin 16) (h : Marked s t) : Marked s (t.silenceExpires p) := by
  unfold State.silenceExpires
  try dsimp only
  (repeat' split) <;> simp (maxDischargeDepth := 40) [h, *]

/-! ### The take engine -/

@[simp] theorem setStandby_marked (c : Fin 24) (b : Standby) (h : Marked s t) : Marked s (t.setStandby c b) := by
  unfold State.setStandby
  try dsimp only
  (repeat' split) <;> simp (maxDischargeDepth := 40) [h, *]

@[simp] theorem handResult_marked (j : Job) (h : Marked s t) : Marked s (t.handResult j) := by
  unfold State.handResult
  try dsimp only
  (repeat' split) <;> simp (maxDischargeDepth := 40) [h, *]

@[simp] theorem finishJob_marked (b : Bool) (j : Job) (h : Marked s t) : Marked s (t.finishJob b j) := by
  unfold State.finishJob
  try dsimp only
  (repeat' split) <;> simp (maxDischargeDepth := 40) [h, *]

@[simp] theorem settle_marked  (h : Marked s t) : Marked s (t.settle) := by
  unfold State.settle
  try dsimp only
  (repeat' split) <;> simp (maxDischargeDepth := 40) [h, *]

@[simp] theorem armMember_marked (m : Member) (h : Marked s t) : Marked s (t.armMember m) := by
  unfold State.armMember
  try dsimp only
  (repeat' split) <;> simp (maxDischargeDepth := 40) [h, *]

@[simp] theorem armJob_marked (j : Job) (h : Marked s t) : Marked s (t.armJob j) := by
  unfold State.armJob
  exact settle_marked (setJob_marked _ (foldl_marked _ (fun _ _ k => by simp [k]) _ h))

@[simp] theorem advanceLoading_marked  (h : Marked s t) : Marked s (t.advanceLoading) := by
  unfold State.advanceLoading
  try dsimp only
  (repeat' split) <;> simp (maxDischargeDepth := 40) [h, *]

@[simp] theorem newJob_marked (k : JobKind) (r : Requester) (f : Phase) (l : List Member) (h : Marked s t) : Marked s (t.newJob k r f l) := by
  unfold State.newJob
  try dsimp only
  (repeat' split) <;> simp (maxDischargeDepth := 40) [h, *]

@[simp] theorem armPrevious_marked (m : Member) (h : Marked s t) : Marked s (t.armPrevious m) := by
  unfold State.armPrevious
  try dsimp only
  (repeat' split) <;> simp (maxDischargeDepth := 40) [h, *]

@[simp] theorem acceptRevert_marked (r : Requester) (l : List (Fin 24)) (h : Marked s t) : Marked s (t.acceptRevert r l) := by
  unfold State.acceptRevert
  exact settle_marked (newJob_marked _ _ _ _ (foldl_marked _ (fun _ _ k => by simp [k]) _ h))

/-- R114, R115: an accepted take. -/
theorem accept_marked {q : Requester} {x : Take} {u : State} (e : t.accept q x = .ok u) (h : Marked s t) : Marked s u := by
  have key : ∀ (k : JobKind) (ms : Scene), t.acceptMembers k q ms = .ok u → Marked s u := by
    intro k ms e
    unfold State.acceptMembers at e
    split at e
    · cases e
    · cases e
      simp [h]
  unfold State.accept at e
  split at e
  · split at e
    · cases e
    · exact key _ _ e
  · exact key _ _ e
  · cases e
    simp [h]

@[simp] theorem submitTake_marked (r : Fin 4) (x : Take) (b : Bool) (h : Marked s t) : Marked s (t.submitTake r x b) := by
  unfold State.submitTake
  split
  · simp [h]
  · next e =>
    have k := accept_marked e h
    (repeat' split) <;> simp [k]

@[simp] theorem offerTo_marked (r : Fin 4) (h : Marked s t) : Marked s (t.offerTo r) := by
  unfold State.offerTo
  try dsimp only
  (repeat' split) <;> simp (maxDischargeDepth := 40) [h, *]

@[simp] theorem offerEngine_marked  (h : Marked s t) : Marked s (t.offerEngine) := by
  unfold State.offerEngine
  exact foldl_marked _ (fun _ _ k => by simp [k]) _ h

@[simp] theorem memberDisabled_marked (c : Fin 24) (h : Marked s t) : Marked s (t.memberDisabled c) := by
  unfold State.memberDisabled
  split
  · exact h
  · split
    · refine offerEngine_marked (advanceLoading_marked ?_)
      split <;> simp (maxDischargeDepth := 40) [h]
    · exact h

@[simp] theorem memberSwapped_marked (c : Fin 24) (h : Marked s t) : Marked s (t.memberSwapped c) := by
  unfold State.memberSwapped
  try dsimp only
  (repeat' split) <;> simp (maxDischargeDepth := 40) [h, *]

@[simp] theorem abortStandby_marked (k : JobKind) (m : Member) (h : Marked s t) : Marked s (State.abortStandby k t m) := by
  unfold State.abortStandby
  try dsimp only
  (repeat' split) <;> simp (maxDischargeDepth := 40) [h, *]

@[simp] theorem abortJob_marked  (h : Marked s t) : Marked s (t.abortJob) := by
  unfold State.abortJob
  split
  · exact h
  · exact finishJob_marked _ _ (foldl_marked _ (fun _ _ k => by simp [k]) _ h)

@[simp] theorem completeLoad_marked (o : MemberOutcome) (h : Marked s t) : Marked s (t.completeLoad o) := by
  unfold State.completeLoad
  try dsimp only
  (repeat' split) <;> simp (maxDischargeDepth := 40) [h, *]

@[simp] theorem loadCompletes_marked (c : Fin 24) (e : Fin 128) (l : Layout) (h : Marked s t) : Marked s (t.loadCompletes c e l) := by
  unfold State.loadCompletes
  try dsimp only
  (repeat' split) <;> simp (maxDischargeDepth := 40) [h, *]

@[simp] theorem setScene_marked (n : Fin 32) (x : Option Scene) (h : Marked s t) : Marked s (t.setScene n x) := by
  unfold State.setScene
  try dsimp only
  (repeat' split) <;> simp (maxDischargeDepth := 40) [h, *]

/-! ### Screens and windows -/

@[simp] theorem moveLatch_marked (a b : Option (Fin 64)) (h : Marked s t) : Marked s (State.moveLatch a b t) := by
  unfold State.moveLatch
  try dsimp only
  (repeat' split) <;> simp (maxDischargeDepth := 40) [h, *]

@[simp] theorem moveWindow_marked (x : LiveWindow × LiveWindow) (h : Marked s t) : Marked s (t.moveWindow x) := by
  unfold State.moveWindow
  try dsimp only
  (repeat' split) <;> simp (maxDischargeDepth := 40) [h, *]

@[simp] theorem swapContexts_marked (c : Fin 24) (x : Context) (h : Marked s t) : Marked s (t.swapContexts c x) := by
  unfold State.swapContexts
  try dsimp only
  (repeat' split) <;> simp (maxDischargeDepth := 40) [h, *]

@[simp] theorem swapStage_marked (c : Fin 24) (h : Marked s t) : Marked s (t.swapStage c) := by
  unfold State.swapStage
  try dsimp only
  (repeat' split) <;> simp (maxDischargeDepth := 40) [h, *]

@[simp] theorem releaseEnded_marked (w : LiveWindow) (h : Marked s t) : Marked s (t.releaseEnded w) := by
  unfold State.releaseEnded
  try dsimp only
  (repeat' split) <;> simp (maxDischargeDepth := 40) [h, *]

@[simp] theorem composeStages_marked (c : Fin 24) (x : Context) (h : Marked s t) : Marked s (t.composeStages c x) := by
  unfold State.composeStages
  exact setScreen_marked _ _ (foldl_marked _ (fun _ _ k => by simp [k]) _ (foldl_marked _ (fun _ _ k => by simp [k]) _ h))

@[simp] theorem emitFrame_marked (c : Fin 24) (h : Marked s t) : Marked s (t.emitFrame c) := by
  unfold State.emitFrame
  try dsimp only
  (repeat' split) <;> simp (maxDischargeDepth := 40) [h, *]

@[simp] theorem takeTick_marked (c : Fin 24) (h : Marked s t) : Marked s (t.takeTick c) := by
  unfold State.takeTick
  dsimp only
  refine emitFrame_marked _ ?_
  split <;> simp (maxDischargeDepth := 40) [h]

@[simp] theorem disableScreen_marked (c : Fin 24) (h : Marked s t) : Marked s (t.disableScreen c) := by
  unfold State.disableScreen
  dsimp only
  refine memberDisabled_marked _ (setScreen_marked _ _ ?_)
  split <;> simp [h]

@[simp] theorem applySettings_marked (c : Fin 24) (x : Screen) (h : Marked s t) : Marked s (t.applySettings c x) := by
  unfold State.applySettings
  dsimp only
  (repeat' split) <;> simp (maxDischargeDepth := 40) [h]

@[simp] theorem setRate_marked (k : Cadence) (n : Nat) (h : Marked s t) : Marked s (t.setRate k n) := by
  unfold State.setRate
  try dsimp only
  (repeat' split) <;> simp (maxDischargeDepth := 40) [h, *]

@[simp] theorem modWindow_marked (c : Fin 24) (n : Nat) (f : LiveWindow → LiveWindow) (h : Marked s t) : Marked s (t.modWindow c n f) := by
  unfold State.modWindow
  try dsimp only
  (repeat' split) <;> simp (maxDischargeDepth := 40) [h, *]

@[simp] theorem setEntry_marked (e : Fin 128) (l : Option Layout) (h : Marked s t) : Marked s (t.setEntry e l) := by
  unfold State.setEntry
  try dsimp only
  (repeat' split) <;> simp (maxDischargeDepth := 40) [h, *]

@[simp] theorem setRotation_marked (k : Fin 8) (l : Rotation) (h : Marked s t) : Marked s (t.setRotation k l) := by
  unfold State.setRotation
  try dsimp only
  (repeat' split) <;> simp (maxDischargeDepth := 40) [h, *]

@[simp] theorem repin_marked (k : Fin 4) (l : Fin 64) (h : Marked s t) : Marked s (t.repin k l) := by
  unfold State.repin
  try dsimp only
  (repeat' split) <;> simp (maxDischargeDepth := 40) [h, *]

@[simp] theorem unpin_marked (k : Fin 4) (l : Fin 64) (h : Marked s t) : Marked s (t.unpin k l) := by
  unfold State.unpin
  try dsimp only
  (repeat' split) <;> simp (maxDischargeDepth := 40) [h, *]

/-- R133: a counted tick leaves a runner's state, as it is marked. -/
theorem deliver_num (k : Cadence) (x : Runner) : (Runner.deliver k x).state.num = x.state.num := by
  unfold Runner.deliver
  (repeat' split) <;> simp [*, RunnerState.num]

@[simp] theorem deliverTick_marked (k : Cadence) (h : Marked s t) : Marked s (t.deliverTick k) := by
  unfold State.deliverTick
  refine h.trans (marked_of_kept (fun _ => rfl) (fun _ => rfl) (fun c => ?_) (fun r => ?_) (jobView_congr rfl))
  · dsimp only
    rw [mapTable_get]
    unfold Screen.deliver
    split <;> exact ⟨rfl, rfl⟩
  · dsimp only
    rw [mapTable_get, deliver_num]

/-! ### Entries and waits -/

/-- R87: what a test of the screen and the window leads to. -/
theorem onWindow_marked (c : Fin 24) (n : Nat) (act : Context → LiveWindow → State × Answer)
    (ha : ∀ (x : Context) (w : LiveWindow), Marked s (act x w).1) (h : Marked s t) : Marked s (t.onWindow c n act).1 := by
  unfold State.onWindow
  (repeat' split) <;> simp [h, ha]

@[simp] theorem takeWindow_marked (c : Fin 24) (x : Context) (w : LiveWindow) (n : Nat) (y : Transition) (h : Marked s t) :
    Marked s (takeWindow c x w n y t).state := by
  unfold takeWindow
  dsimp only
  (repeat' split) <;> simp (maxDischargeDepth := 40) [h]

@[simp] theorem freezeFields_marked (f : List Nat) (h : Marked s t) : Marked s ((freezeFields f t).1) := by
  unfold freezeFields
  try dsimp only
  split
  · exact h
  · exact onWindow_marked _ _ _ (fun _ _ => by simp [h]) h

@[simp] theorem setPulseFields_marked (f : List Nat) (h : Marked s t) : Marked s ((setPulseFields f t).1) := by
  unfold setPulseFields
  try dsimp only
  split
  · exact h
  · exact onWindow_marked _ _ _ (fun _ _ => by split <;> simp [h]) h

@[simp] theorem windowTakeFields_marked (f : List Nat) (h : Marked s t) : Marked s ((windowTakeFields f t).1) := by
  unfold windowTakeFields
  try dsimp only
  split
  · exact h
  · exact onWindow_marked _ _ _ (fun _ _ => by simp [h]) h

@[simp] theorem rotateFields_marked (f : List Nat) (h : Marked s t) : Marked s ((rotateFields f t).1) := by
  unfold rotateFields
  try dsimp only
  split
  · exact h
  · exact onWindow_marked _ _ _ (fun _ _ => by split <;> simp [h]) h

@[simp] theorem requalifyFields_marked (f : List Nat) (h : Marked s t) : Marked s ((requalifyFields f t).1) := by
  unfold requalifyFields
  try dsimp only
  (repeat' split) <;> simp (maxDischargeDepth := 40) [h, *]

@[simp] theorem captureFields_marked (f : List Nat) (h : Marked s t) : Marked s ((captureFields f t).1) := by
  unfold captureFields
  try dsimp only
  (repeat' split) <;> simp (maxDischargeDepth := 40) [h, *]

@[simp] theorem releaseStillFields_marked (f : List Nat) (h : Marked s t) : Marked s ((releaseStillFields f t).1) := by
  unfold releaseStillFields
  try dsimp only
  (repeat' split) <;> simp (maxDischargeDepth := 40) [h, *]

@[simp] theorem moveRunner_marked (r : Fin 4) (a : Nat) (l : List Nat) (h : Marked s t) : Marked s (t.moveRunner r a l) := by
  unfold State.moveRunner
  try dsimp only
  (repeat' split) <;> simp (maxDischargeDepth := 40) [h, *]

@[simp] theorem returnFrom_marked (r : Fin 4) (h : Marked s t) : Marked s (t.returnFrom r) := by
  unfold State.returnFrom
  try dsimp only
  (repeat' split) <;> simp (maxDischargeDepth := 40) [h, *]

@[simp] theorem haltRunner_marked (r : Fin 4) (h : Marked s t) : Marked s (t.haltRunner r) := by
  unfold State.haltRunner
  try dsimp only
  (repeat' split) <;> simp (maxDischargeDepth := 40) [h, *]

@[simp] theorem countEnds_marked (r : Fin 4) (h : Marked s t) : Marked s (t.countEnds r) := by
  unfold State.countEnds
  try dsimp only
  (repeat' split) <;> simp (maxDischargeDepth := 40) [h, *]

@[simp] theorem timerExpires_marked (r : Fin 4) (h : Marked s t) : Marked s (t.timerExpires r) := by
  unfold State.timerExpires
  try dsimp only
  (repeat' split) <;> simp (maxDischargeDepth := 40) [h, *]

@[simp] theorem resultTaken_marked (r : Fin 4) (h : Marked s t) : Marked s (t.resultTaken r) := by
  unfold State.resultTaken
  try dsimp only
  (repeat' split) <;> simp (maxDischargeDepth := 40) [h, *]

@[simp] theorem stopRunner_marked (r : Fin 4) (h : Marked s t) : Marked s (t.stopRunner r) := by
  unfold State.stopRunner
  try dsimp only
  (repeat' split) <;> simp (maxDischargeDepth := 40) [h, *]

@[simp] theorem resumeRunner_marked (r : Fin 4) (b : Bool) (h : Marked s t) : Marked s (t.resumeRunner r b) := by
  unfold State.resumeRunner
  try dsimp only
  (repeat' split) <;> simp (maxDischargeDepth := 40) [h, *]

@[simp] theorem writeCues_marked (a : Nat) (l : List CueEntry) (h : Marked s t) : Marked s (State.writeCues a l t) := by
  induction l generalizing a t with
  | nil => exact h
  | cons e rest ih => exact ih _ (by simp [h])

@[simp] theorem followRequest_marked (r : Fin 4) (x : State × Answer) (h : Marked s x.1) : Marked s (State.followRequest r x) := by
  unfold State.followRequest
  try dsimp only
  (repeat' split) <;> simp (maxDischargeDepth := 40) [h, *]

@[simp] theorem waitPicturesEntry_marked (r : Fin 4) (e : CueEntry) (h : Marked s t) : Marked s (State.waitPicturesEntry r e t) := by
  unfold State.waitPicturesEntry
  try dsimp only
  (repeat' split) <;> simp (maxDischargeDepth := 40) [h, *]

@[simp] theorem waitTimeEntry_marked (r : Fin 4) (e : CueEntry) (h : Marked s t) : Marked s (State.waitTimeEntry r e t) := by
  unfold State.waitTimeEntry
  try dsimp only
  (repeat' split) <;> simp (maxDischargeDepth := 40) [h, *]

@[simp] theorem waitQualifiedEntry_marked (r : Fin 4) (e : CueEntry) (h : Marked s t) : Marked s (State.waitQualifiedEntry r e t) := by
  unfold State.waitQualifiedEntry
  try dsimp only
  (repeat' split) <;> simp (maxDischargeDepth := 40) [h, *]

@[simp] theorem jumpEntry_marked (r : Fin 4) (e : CueEntry) (h : Marked s t) : Marked s (State.jumpEntry r e t) := by
  unfold State.jumpEntry
  try dsimp only
  (repeat' split) <;> simp (maxDischargeDepth := 40) [h, *]

@[simp] theorem callEntry_marked (r : Fin 4) (e : CueEntry) (h : Marked s t) : Marked s (State.callEntry r e t) := by
  unfold State.callEntry
  try dsimp only
  (repeat' split) <;> simp (maxDischargeDepth := 40) [h, *]

@[simp] theorem takeEntry_marked (f : CueEntry → Take) (r : Fin 4) (e : CueEntry) (h : Marked s t) : Marked s (State.takeEntry f r e t) := by
  unfold State.takeEntry
  try dsimp only
  (repeat' split) <;> simp (maxDischargeDepth := 40) [h, *]

@[simp] theorem rotateEntry_marked (r : Fin 4) (e : CueEntry) (h : Marked s t) : Marked s (State.rotateEntry r e t) := by
  unfold State.rotateEntry
  try dsimp only
  (repeat' split) <;> simp (maxDischargeDepth := 40) [h, *]

/-! ### The schedule, the store and RESTART -/

@[simp] theorem alarmMeets_marked (n : Fin 16) (h : Marked s t) : Marked s (t.alarmMeets n) := by
  unfold State.alarmMeets
  try dsimp only
  (repeat' split) <;> simp (maxDischargeDepth := 40) [h, *]

@[simp] theorem matchAlarms_marked  (h : Marked s t) : Marked s (t.matchAlarms) := by
  unfold State.matchAlarms
  split
  · exact foldl_marked _ (fun _ _ k => by simp [k]) _ h
  · exact h

@[simp] theorem timeMeets_marked (r : Fin 4) (h : Marked s t) : Marked s (t.timeMeets r) := by
  unfold State.timeMeets
  try dsimp only
  (repeat' split) <;> simp (maxDischargeDepth := 40) [h, *]

@[simp] theorem moveDrops_marked  (h : Marked s t) : Marked s (t.moveDrops) := by
  unfold State.moveDrops
  try dsimp only
  (repeat' split) <;> simp (maxDischargeDepth := 40) [h, *]

@[simp] theorem secondTick_marked  (h : Marked s t) : Marked s (t.secondTick) := by
  unfold State.secondTick
  exact matchAlarms_marked (foldl_marked _ (fun _ _ k => by simp [k]) _ (moveDrops_marked h))

@[simp] theorem raiseAttention_marked (c : Code) (d : Nat) (h : Marked s t) : Marked s (t.raiseAttention c d) := by
  unfold State.raiseAttention
  try dsimp only
  (repeat' split) <;> simp (maxDischargeDepth := 40) [h, *]

@[simp] theorem clearCondition_marked (p : Fin 16) (h : Marked s t) : Marked s (t.clearCondition p) := by
  unfold State.clearCondition
  try dsimp only
  (repeat' split) <;> simp (maxDischargeDepth := 40) [h, *]

@[simp] theorem abandonSave_marked  (h : Marked s t) : Marked s (t.abandonSave) := by
  unfold State.abandonSave
  try dsimp only
  (repeat' split) <;> simp (maxDischargeDepth := 40) [h, *]

@[simp] theorem eraseCompletes_marked  (h : Marked s t) : Marked s (t.eraseCompletes) := by
  unfold State.eraseCompletes
  try dsimp only
  (repeat' split) <;> simp (maxDischargeDepth := 40) [h, *]

@[simp] theorem programCompletes_marked  (h : Marked s t) : Marked s (t.programCompletes) := by
  unfold State.programCompletes
  try dsimp only
  (repeat' split) <;> simp (maxDischargeDepth := 40) [h, *]

@[simp] theorem readBackCompletes_marked (l : List Host.Cell) (h : Marked s t) : Marked s (t.readBackCompletes l) := by
  unfold State.readBackCompletes
  try dsimp only
  (repeat' split) <;> simp (maxDischargeDepth := 40) [h, *]

@[simp] theorem saveUnanswered_marked  (h : Marked s t) : Marked s (t.saveUnanswered) := by
  unfold State.saveUnanswered
  try dsimp only
  (repeat' split) <;> simp (maxDischargeDepth := 40) [h, *]

@[simp] theorem flashUnanswered_marked  (h : Marked s t) : Marked s (t.flashUnanswered) := by
  unfold State.flashUnanswered
  try dsimp only
  (repeat' split) <;> simp (maxDischargeDepth := 40) [h, *]

@[simp] theorem restoreScreen_marked (im : Image) (c : Fin 24) (h : Marked s t) : Marked s (State.restoreScreen im t c) := by
  unfold State.restoreScreen
  try dsimp only
  (repeat' split) <;> simp (maxDischargeDepth := 40) [h, *]

@[simp] theorem restoreTables_marked (im : Image) (h : Marked s t) : Marked s (t.restoreTables im) := by
  unfold State.restoreTables
  refine foldl_marked _ (fun _ _ k => by simp [k]) _ (h.trans ?_)
  exact marked_of_kept (fun _ => by simp) (fun _ => by simp) (fun _ => ⟨rfl, rfl⟩) (fun _ => rfl) (jobView_congr rfl)

@[simp] theorem startSource_marked (i : Fin 16) (h : Marked s t) : Marked s (t.startSource i) := by
  unfold State.startSource
  try dsimp only
  (repeat' split) <;> simp (maxDischargeDepth := 40) [h, *]

@[simp] theorem startScreen_marked (c : Fin 24) (h : Marked s t) : Marked s (t.startScreen c) := by
  unfold State.startScreen
  try dsimp only
  (repeat' split) <;> simp (maxDischargeDepth := 40) [h, *]

@[simp] theorem settleStart_marked (c : Code) (h : Marked s t) : Marked s (t.settleStart c) := by
  unfold State.settleStart
  dsimp only
  refine mk_marked (t := State.raiseAttention c 0 _) ?_
  exact raiseAttention_marked _ _ (foldl_marked _ (fun _ _ k => by simp [k]) _ (foldl_marked _ (fun _ _ k => by simp [k]) _ h))

@[simp] theorem endStartUp_marked  (h : Marked s t) : Marked s (t.endStartUp) := by
  unfold State.endStartUp
  try dsimp only
  (repeat' split) <;> simp (maxDischargeDepth := 40) [h, *]

/-- Every mark is set. -/
theorem marked_of_all (h : ∀ q : Fin 16, t.ports[q].marks = .all) : Marked s t := by
  intro q
  rw [h q]
  simp [ChangeMarks.all]

theorem powerOn_marked (s : State) : Marked s s.powerOn := marked_of_all fun _ => by
  simp [State.powerOn, State.reset, Port.powerOn]

theorem restartBlocks_marked (p : Fin 16) (t : State) : Marked s (t.restartBlocks p) := marked_of_all fun _ => by
  unfold State.restartBlocks State.raiseAttention State.abandonSave
  dsimp only
  split <;> simp [Port.restart, State.loseImageArea]

/-! ### Services and executions -/

/-- A service marks what the owning block's two parts mark. -/
theorem serve_marked {code : Nat} {body : Fin 16 → List Byte → State → Served}
    (h1 : ∀ (p : Fin 16) (ps : List Byte) (u : State), Marked s u → Marked s (body p ps u).state)
    (h2 : ∀ (p : Fin 16) (ps : List Byte) (u v : State), Marked s v → Marked s ((body p ps u).after v)) :
    Marked s (s.serve code body) :=
  serve_keeps (fun _ _ h => by simp [h]) (fun _ _ _ h => by simp [h]) (fun _ _ _ _ h => by simp [h]) h1 h2 (Marked.refl s)

/-- The service of an unknown code. -/
theorem serveUnknown_marked (s : State) : Marked s s.serveUnknown :=
  serveUnknown_keeps (fun _ _ h => by simp [h]) (fun _ _ _ h => by simp [h]) (fun _ _ _ _ h => by simp [h]) (Marked.refl s)

/-- An execution marks what the entry's own effect marks. -/
theorem cueEvent_marked {kind : CueKind} {r : Fin 4} {run : CueEntry → State → State}
    (h : ∀ (e : CueEntry) (u : State), Marked s u → Marked s (run e u)) : Marked s (s.cueEvent kind run r) :=
  cueEvent_keeps (fun _ _ _ h => by simp [h]) (fun _ _ _ _ k => h _ _ k) (Marked.refl s)

/-- An entry that acts as a request marks what the request marks. -/
theorem actAs_marked {r : Fin 4} {f : List Nat → State → State × Answer}
    (h : ∀ (l : List Nat) (u : State), Marked s u → Marked s (f l u).1) (e : CueEntry) (u : State) (k : Marked s u) :
    Marked s (State.actAs f r e u) := by
  unfold State.actAs
  exact followRequest_marked _ _ (h _ _ k)

/-- R114: a take that a request submits; nothing is done after its reply. -/
theorem requestTake_marked (p : Fin 16) (x : Take) (h : Marked s t) :
    Marked s (requestTake p x t).state ∧ (requestTake p x t).after = id := by
  unfold requestTake
  split
  · exact ⟨h, rfl⟩
  · split
    · exact ⟨h, rfl⟩
    · next e => exact ⟨offerEngine_marked (accept_marked e h), rfl⟩

/-- A read marks nothing. -/
theorem serve_readRequest_marked (code : Nat) (result : State → List Byte) (s : State) :
    Marked s (s.serve code (readRequest result)) := serve_marked (fun _ _ _ k => k) (fun _ _ _ _ k => k)

/-! ### The services, but for STATUS -/

theorem serve_setTimeBody_marked (s : State) : Marked s (s.serve 36 setTimeBody) := by
  refine serve_marked (fun p ps u k => ?_) (fun p ps u v k => ?_)
  all_goals
    unfold setTimeBody
    try dsimp only
    (repeat' split) <;> simp (maxDischargeDepth := 40) [k, unchanged]

theorem serve_setAlarmBody_marked (s : State) : Marked s (s.serve 37 setAlarmBody) := by
  refine serve_marked (fun p ps u k => ?_) (fun p ps u v k => ?_)
  all_goals
    unfold setAlarmBody
    try dsimp only
    (repeat' split) <;> simp (maxDischargeDepth := 40) [k, unchanged]

theorem serve_setTriggerBody_marked (s : State) : Marked s (s.serve 38 setTriggerBody) := by
  refine serve_marked (fun p ps u k => ?_) (fun p ps u v k => ?_)
  all_goals
    unfold setTriggerBody
    try dsimp only
    (repeat' split) <;> simp (maxDischargeDepth := 40) [k, unchanged]

theorem serve_setScreenBody_marked (s : State) : Marked s (s.serve 10 setScreenBody) := by
  refine serve_marked (fun p ps u k => ?_) (fun p ps u v k => ?_)
  all_goals
    unfold setScreenBody
    try dsimp only
    (repeat' split) <;> simp (maxDischargeDepth := 40) [k, unchanged]

theorem serve_setCadenceBody_marked (s : State) : Marked s (s.serve 11 setCadenceBody) := by
  refine serve_marked (fun p ps u k => ?_) (fun p ps u v k => ?_)
  all_goals
    unfold setCadenceBody
    try dsimp only
    (repeat' split) <;> simp (maxDischargeDepth := 40) [k, unchanged]

theorem serve_setPaletteBody_marked (s : State) : Marked s (s.serve 12 setPaletteBody) := by
  refine serve_marked (fun p ps u k => ?_) (fun p ps u v k => ?_)
  all_goals
    unfold setPaletteBody
    try dsimp only
    (repeat' split) <;> simp (maxDischargeDepth := 40) [k, unchanged]

theorem serve_freezeBody_marked (s : State) : Marked s (s.serve 13 freezeBody) := by
  refine serve_marked (fun p ps u k => ?_) (fun p ps u v k => ?_)
  all_goals
    unfold freezeBody
    try dsimp only
    (repeat' split) <;> simp (maxDischargeDepth := 40) [k, unchanged]

theorem serve_setPulseBody_marked (s : State) : Marked s (s.serve 14 setPulseBody) := by
  refine serve_marked (fun p ps u k => ?_) (fun p ps u v k => ?_)
  all_goals
    unfold setPulseBody
    try dsimp only
    (repeat' split) <;> simp (maxDischargeDepth := 40) [k, unchanged]

theorem serve_readScreenBody_marked (s : State) : Marked s (s.serve 15 readScreenBody) := by
  refine serve_marked (fun p ps u k => ?_) (fun p ps u v k => ?_)
  all_goals
    unfold readScreenBody
    try dsimp only
    (repeat' split) <;> simp (maxDischargeDepth := 40) [k, unchanged]

theorem serve_windowTakeBody_marked (s : State) : Marked s (s.serve 16 windowTakeBody) := by
  refine serve_marked (fun p ps u k => ?_) (fun p ps u v k => ?_)
  all_goals
    unfold windowTakeBody
    try dsimp only
    (repeat' split) <;> simp (maxDischargeDepth := 40) [k, unchanged]

theorem serve_rotateBody_marked (s : State) : Marked s (s.serve 17 rotateBody) := by
  refine serve_marked (fun p ps u k => ?_) (fun p ps u v k => ?_)
  all_goals
    unfold rotateBody
    try dsimp only
    (repeat' split) <;> simp (maxDischargeDepth := 40) [k, unchanged]

theorem serve_setRampBody_marked (s : State) : Marked s (s.serve 18 setRampBody) := by
  refine serve_marked (fun p ps u k => ?_) (fun p ps u v k => ?_)
  all_goals
    unfold setRampBody
    try dsimp only
    (repeat' split) <;> simp (maxDischargeDepth := 40) [k, unchanged]

theorem serve_loadRotationBody_marked (s : State) : Marked s (s.serve 19 loadRotationBody) := by
  refine serve_marked (fun p ps u k => ?_) (fun p ps u v k => ?_)
  all_goals
    unfold loadRotationBody
    try dsimp only
    (repeat' split) <;> simp (maxDischargeDepth := 40) [k, unchanged]

theorem serve_readRotationBody_marked (s : State) : Marked s (s.serve 21 readRotationBody) := by
  refine serve_marked (fun p ps u k => ?_) (fun p ps u v k => ?_)
  all_goals
    unfold readRotationBody
    try dsimp only
    (repeat' split) <;> simp (maxDischargeDepth := 40) [k, unchanged]

theorem serve_loadCuesBody_marked (s : State) : Marked s (s.serve 30 loadCuesBody) := by
  refine serve_marked (fun p ps u k => ?_) (fun p ps u v k => ?_)
  all_goals
    unfold loadCuesBody
    try dsimp only
    (repeat' split) <;> simp (maxDischargeDepth := 40) [k, unchanged]

theorem serve_startCueBody_marked (s : State) : Marked s (s.serve 31 startCueBody) := by
  refine serve_marked (fun p ps u k => ?_) (fun p ps u v k => ?_)
  all_goals
    unfold startCueBody
    try dsimp only
    (repeat' split) <;> simp (maxDischargeDepth := 40) [k, unchanged]

theorem serve_stopCueBody_marked (s : State) : Marked s (s.serve 32 stopCueBody) := by
  refine serve_marked (fun p ps u k => ?_) (fun p ps u v k => ?_)
  all_goals
    unfold stopCueBody
    try dsimp only
    (repeat' split) <;> simp (maxDischargeDepth := 40) [k, unchanged]

theorem serve_resumeCueBody_marked (s : State) : Marked s (s.serve 33 resumeCueBody) := by
  refine serve_marked (fun p ps u k => ?_) (fun p ps u v k => ?_)
  all_goals
    unfold resumeCueBody
    try dsimp only
    (repeat' split) <;> simp (maxDischargeDepth := 40) [k, unchanged]

theorem serve_readCuesBody_marked (s : State) : Marked s (s.serve 34 readCuesBody) := by
  refine serve_marked (fun p ps u k => ?_) (fun p ps u v k => ?_)
  all_goals
    unfold readCuesBody
    try dsimp only
    (repeat' split) <;> simp (maxDischargeDepth := 40) [k, unchanged]

theorem serve_readRunnerBody_marked (s : State) : Marked s (s.serve 35 readRunnerBody) := by
  refine serve_marked (fun p ps u k => ?_) (fun p ps u v k => ?_)
  all_goals
    unfold readRunnerBody
    try dsimp only
    (repeat' split) <;> simp (maxDischargeDepth := 40) [k, unchanged]

theorem serve_setSourceBody_marked (s : State) : Marked s (s.serve 1 setSourceBody) := by
  refine serve_marked (fun p ps u k => ?_) (fun p ps u v k => ?_)
  all_goals
    unfold setSourceBody
    try dsimp only
    (repeat' split) <;> simp (maxDischargeDepth := 40) [k, unchanged]

theorem serve_requalifyBody_marked (s : State) : Marked s (s.serve 2 requalifyBody) := by
  refine serve_marked (fun p ps u k => ?_) (fun p ps u v k => ?_)
  all_goals
    unfold requalifyBody
    try dsimp only
    (repeat' split) <;> simp (maxDischargeDepth := 40) [k, unchanged]

theorem serve_readSourceBody_marked (s : State) : Marked s (s.serve 3 readSourceBody) := by
  refine serve_marked (fun p ps u k => ?_) (fun p ps u v k => ?_)
  all_goals
    unfold readSourceBody
    try dsimp only
    (repeat' split) <;> simp (maxDischargeDepth := 40) [k, unchanged]

theorem serve_captureBody_marked (s : State) : Marked s (s.serve 4 captureBody) := by
  refine serve_marked (fun p ps u k => ?_) (fun p ps u v k => ?_)
  all_goals
    unfold captureBody
    try dsimp only
    (repeat' split) <;> simp (maxDischargeDepth := 40) [k, unchanged]

theorem serve_releaseStillBody_marked (s : State) : Marked s (s.serve 5 releaseStillBody) := by
  refine serve_marked (fun p ps u k => ?_) (fun p ps u v k => ?_)
  all_goals
    unfold releaseStillBody
    try dsimp only
    (repeat' split) <;> simp (maxDischargeDepth := 40) [k, unchanged]

theorem serve_loadSceneBody_marked (s : State) : Marked s (s.serve 22 loadSceneBody) := by
  refine serve_marked (fun p ps u k => ?_) (fun p ps u v k => ?_)
  all_goals
    unfold loadSceneBody
    try dsimp only
    (repeat' split) <;> simp (maxDischargeDepth := 40) [k, unchanged]

theorem serve_eraseSceneBody_marked (s : State) : Marked s (s.serve 23 eraseSceneBody) := by
  refine serve_marked (fun p ps u k => ?_) (fun p ps u v k => ?_)
  all_goals
    unfold eraseSceneBody
    try dsimp only
    (repeat' split) <;> simp (maxDischargeDepth := 40) [k, unchanged]

theorem serve_readSceneBody_marked (s : State) : Marked s (s.serve 24 readSceneBody) := by
  refine serve_marked (fun p ps u k => ?_) (fun p ps u v k => ?_)
  all_goals
    unfold readSceneBody
    try dsimp only
    (repeat' split) <;> simp (maxDischargeDepth := 40) [k, unchanged]

theorem serve_takeSceneBody_marked (s : State) : Marked s (s.serve 25 takeSceneBody) := by
  refine serve_marked (fun p ps u k => ?_) (fun p ps u v k => ?_)
  all_goals
    unfold takeSceneBody
    try dsimp only
    split
    · exact k
    · first
        | exact (requestTake_marked p _ k).1
        | rw [(requestTake_marked p _ (Marked.refl u)).2]; exact k

theorem serve_takeLayoutBody_marked (s : State) : Marked s (s.serve 26 takeLayoutBody) := by
  refine serve_marked (fun p ps u k => ?_) (fun p ps u v k => ?_)
  all_goals
    unfold takeLayoutBody
    try dsimp only
    split
    · exact k
    · first
        | exact (requestTake_marked p _ k).1
        | rw [(requestTake_marked p _ (Marked.refl u)).2]; exact k

theorem serve_revertBody_marked (s : State) : Marked s (s.serve 27 revertBody) := by
  refine serve_marked (fun p ps u k => ?_) (fun p ps u v k => ?_)
  all_goals
    unfold revertBody
    try dsimp only
    (repeat' split) <;> simp (maxDischargeDepth := 40) [k, unchanged]

theorem serve_abortTakeBody_marked (s : State) : Marked s (s.serve 28 abortTakeBody) := by
  refine serve_marked (fun p ps u k => ?_) (fun p ps u v k => ?_)
  all_goals
    unfold abortTakeBody
    try dsimp only
    (repeat' split) <;> simp (maxDischargeDepth := 40) [k, unchanged]

theorem serve_loadLayoutBody_marked (s : State) : Marked s (s.serve 7 loadLayoutBody) := by
  refine serve_marked (fun p ps u k => ?_) (fun p ps u v k => ?_)
  all_goals
    unfold loadLayoutBody
    try dsimp only
    (repeat' split) <;> simp (maxDischargeDepth := 40) [k, unchanged]

theorem serve_eraseLayoutBody_marked (s : State) : Marked s (s.serve 8 eraseLayoutBody) := by
  refine serve_marked (fun p ps u k => ?_) (fun p ps u v k => ?_)
  all_goals
    unfold eraseLayoutBody
    try dsimp only
    (repeat' split) <;> simp (maxDischargeDepth := 40) [k, unchanged]

theorem serve_readLayoutBody_marked (s : State) : Marked s (s.serve 9 readLayoutBody) := by
  refine serve_marked (fun p ps u k => ?_) (fun p ps u v k => ?_)
  all_goals
    unfold readLayoutBody
    try dsimp only
    (repeat' split) <;> simp (maxDischargeDepth := 40) [k, unchanged]

theorem serve_setGrantBody_marked (s : State) : Marked s (s.serve 40 setGrantBody) := by
  refine serve_marked (fun p ps u k => ?_) (fun p ps u v k => ?_)
  all_goals
    unfold setGrantBody
    try dsimp only
    (repeat' split) <;> simp (maxDischargeDepth := 40) [k, unchanged]

theorem serve_fetchConditionBody_marked (s : State) : Marked s (s.serve 43 fetchConditionBody) := by
  refine serve_marked (fun p ps u k => ?_) (fun p ps u v k => ?_)
  all_goals
    unfold fetchConditionBody
    try dsimp only
    (repeat' split) <;> simp (maxDischargeDepth := 40) [k, unchanged]

theorem serve_restartBody_marked (s : State) : Marked s (s.serve 44 restartBody) := by
  refine serve_marked (fun p ps u k => ?_) (fun p ps u v k => ?_)
  · exact k
  · exact k.trans (restartBlocks_marked p v)

theorem serve_saveTablesBody_marked (s : State) : Marked s (s.serve 45 saveTablesBody) := by
  refine serve_marked (fun p ps u k => ?_) (fun p ps u v k => ?_)
  all_goals
    unfold saveTablesBody
    try dsimp only
    (repeat' split) <;> simp (maxDischargeDepth := 40) [k, unchanged]

end

end Sys2Proof.Machine
end

