-- ==== Sys2Proof/Laws/Picture.lean ====
section
/-! SUPPORT. The output picture (R85): what a leg, a window and a frame show at a pixel. -/

namespace Sys2Proof.Machine

/-! ### Pixels -/

/-- The three components of a pixel that is written as them. -/
theorem components (x : BitVec 5) (y : BitVec 6) (z : BitVec 5) :
    (x ++ y ++ z).extractLsb' 11 5 = x ∧ (x ++ y ++ z).extractLsb' 5 6 = y ∧ (x ++ y ++ z).extractLsb' 0 5 = z := by
  refine ⟨?_, ?_, ?_⟩
  all_goals
    ext i hi
    simp [BitVec.getElem_append]
    try omega
    try grind

/-- R85: a blended pixel. -/
theorem blendPixel_blended (r : Nat) (a b : Word16) : Blended r a b (blendPixel r a b) := components _ _ _

/-- R85: a leg's pixel. -/
theorem paint_pixel (s : State) (w : LiveWindow) (latch : Option (Fin 64)) (x y : Nat) :
    (s.paint w latch).pixel w.copy.width w.copy.height x y = s.legPixel w.copy latch x y := by
  unfold State.paint State.legPixel
  cases latch with
  | none => rfl
  | some k =>
    dsimp only [Option.bind_some]
    cases h : s.slots[k].picture with
    | none => rfl
    | some t => rfl

/-! ### Windows -/

/-- R85: a window without a dissolve shows its main leg. -/
theorem painted_content_main (s : State) {w : LiveWindow} (x y : Nat) (h : w.dissolve = none) :
    (s.painted w).content x y = s.legPixel w.copy w.latch x y := by
  unfold Painted.content State.painted
  simp only [h, Option.map_none]
  exact paint_pixel s w w.latch x y

/-- R85: a window with a dissolve shows its two legs blended. -/
theorem painted_content_blended (s : State) {w : LiveWindow} {d : Dissolve} (x y : Nat) (h : w.dissolve = some d) :
    (s.painted w).content x y = blendPixel s.ramp[Fin.ofNat 16 (min d.step 15)] (s.legPixel w.copy w.latch x y)
      (s.legPixel w.copy d.latch x y) := by
  unfold Painted.content State.painted
  simp only [h, Option.map_some]
  rw [paint_pixel, paint_pixel]

/-- R85: the frame of 4 pixels along the edges. -/
theorem onBorder_iff (width height x y : Nat) :
    onBorder width height x y = true ↔ x < 4 ∨ y < 4 ∨ 8 * width ≤ x + 4 ∨ 16 * height ≤ y + 4 := by
  unfold onBorder
  simp [or_assoc]

/-- R85: a window's pixel where its border is drawn. -/
theorem painted_pixel_border (s : State) {w : LiveWindow} {b : Nat} {x y : Nat} (hb : w.copy.border = some b)
    (hl : ∀ q : Pulse, w.pulse = some q → q.phase < q.onCount) (he : onBorder w.copy.width w.copy.height x y = true) :
    (s.painted w).pixel x y = s.palette[Fin.ofNat 16 b].pixel := by
  have k : s.drawnBorder w = some s.palette[Fin.ofNat 16 b].pixel := by
    unfold State.drawnBorder
    rw [if_pos, hb]
    · rfl
    · cases hp : w.pulse with
      | none => rfl
      | some q => exact decide_eq_true (hl q hp)
  unfold Painted.pixel
  rw [show (s.painted w).border = s.drawnBorder w from rfl, k]
  exact if_pos he

/-- R85: a window's pixel where no border is drawn. -/
theorem painted_pixel_content (s : State) {w : LiveWindow} {x y : Nat}
    (h : w.copy.border = none ∨ (∃ q : Pulse, w.pulse = some q ∧ q.onCount ≤ q.phase) ∨
      onBorder w.copy.width w.copy.height x y = false) : (s.painted w).pixel x y = (s.painted w).content x y := by
  unfold Painted.pixel
  rw [show (s.painted w).border = s.drawnBorder w from rfl]
  unfold State.drawnBorder
  rcases h with h | ⟨q, h, k⟩ | h
  · rw [h]
    split <;> simp_all
  · rw [if_neg]
    rw [h]
    simpa using k
  · split
    · rfl
    · exact if_neg (by rw [show (s.painted w).width = w.copy.width from rfl,
        show (s.painted w).height = w.copy.height from rfl, h]; decide)

/-- A window's rectangle. -/
theorem painted_covers (s : State) (w : LiveWindow) (x y : Nat) : (s.painted w).covers x y = true ↔ w.copy.Covers x y := by
  unfold Painted.covers Window.Covers State.painted
  simp [and_assoc]

/-! ### Layers -/

/-- The windows in ascending order of layer are the windows of layers 0 to 3. -/
theorem mem_inLayers {ws : List LiveWindow} {w : LiveWindow} : w ∈ inLayers ws ↔ w ∈ ws ∧ w.copy.layer < 4 := by
  unfold inLayers
  simp only [List.mem_flatMap, List.mem_range, List.mem_filter, decide_eq_true_eq]
  constructor
  · rintro ⟨l, h, h1, h2⟩
    exact ⟨h1, by omega⟩
  · rintro ⟨h1, h2⟩
    exact ⟨_, h2, h1, rfl⟩

/-- Their layers ascend. -/
theorem inLayers_sorted (ws : List LiveWindow) : (inLayers ws).Pairwise fun a b => a.copy.layer ≤ b.copy.layer := by
  unfold inLayers
  rw [List.pairwise_flatMap]
  refine ⟨fun l _ => ?_, ?_⟩
  · refine List.Pairwise.imp_of_mem (R := fun _ _ => True) ?_ (List.pairwise_of_forall fun _ _ => trivial)
    intro a b ha hb _
    simp only [List.mem_filter, decide_eq_true_eq] at ha hb
    omega
  · refine List.Pairwise.imp ?_ (List.pairwise_lt_range (n := 4))
    intro a b hab x hx y hy
    simp only [List.mem_filter, decide_eq_true_eq] at hx hy
    omega

/-! ### Painting -/

/-- Windows that do not cover a pixel leave what was painted there. -/
theorem paintOver_none (l : List Painted) (x y : Nat) (b : Word16) (h : ∀ w ∈ l, w.covers x y = false) :
    l.foldl (fun below w => if w.covers x y then w.pixel (x - 8 * w.left) (y - 16 * w.top) else below) b = b := by
  induction l generalizing b with
  | nil => rfl
  | cons a l ih =>
    rw [List.foldl_cons, h a List.mem_cons_self, if_neg Bool.false_ne_true]
    exact ih _ fun w hw => h w (List.mem_cons_of_mem _ hw)

/-- R85: over windows in ascending order of layer, the one of the highest layer that covers a pixel is seen there. -/
theorem paintOver_top (s : State) {w : LiveWindow} {i j : Nat} (hw : w.copy.Covers i j) (l : List LiveWindow) (b : Word16)
    (hm : w ∈ l) (hs : l.Pairwise fun a b => a.copy.layer ≤ b.copy.layer)
    (ht : ∀ v ∈ l, v.copy.Covers i j → v = w ∨ v.copy.layer < w.copy.layer) :
    (l.map s.painted).foldl
        (fun below w => if w.covers i j then w.pixel (i - 8 * w.left) (j - 16 * w.top) else below) b =
      (s.painted w).pixel (i - 8 * w.copy.left) (j - 16 * w.copy.top) := by
  induction l generalizing b with
  | nil => cases hm
  | cons a l ih =>
    rw [List.pairwise_cons] at hs
    rw [List.map_cons, List.foldl_cons]
    by_cases h : w ∈ l
    · exact ih _ h hs.2 fun v hv => ht v (List.mem_cons_of_mem _ hv)
    · obtain rfl : w = a := (List.mem_cons.1 hm).resolve_right h
      rw [if_pos ((painted_covers s w i j).2 hw), paintOver_none]
      · rfl
      · intro p hp
        obtain ⟨v, hv, rfl⟩ := List.mem_map.1 hp
        by_contra hc
        rw [Bool.not_eq_false, painted_covers] at hc
        rcases ht v (List.mem_cons_of_mem _ hv) hc with e | e
        · subst e
          exact h hv
        · exact absurd (hs.1 v hv) (Nat.not_le.2 e)

end Sys2Proof.Machine
end

