-- ==== Sys2Proof/Laws/Records.lean ====
section
/-! SUPPORT. Every record of the image, written and read back: a table entry that passes its owner's checks is given back by
the function that takes it from its stored bytes (R34, R69, R72, R86, R94, R103, R105, R110, R127, R156, R165). -/

namespace Sys2Proof.Machine

/-! ### Fields (R177) -/

/-- The number of bytes with one more in front. -/
theorem beNat_cons (b : Byte) (bs : List Byte) : beNat (b :: bs) = b.toNat * 256 ^ bs.length + beNat bs := by
  have key : ∀ (bs : List Byte) (n : Nat),
      bs.foldl (fun n b => n * 256 + b.toNat) n = n * 256 ^ bs.length + bs.foldl (fun n b => n * 256 + b.toNat) 0 := by
    intro bs
    induction bs with
    | nil => simp
    | cons c t ih =>
      intro n
      rw [List.foldl_cons, ih, List.foldl_cons, ih (0 * 256 + c.toNat), List.length_cons, Nat.pow_succ, Nat.zero_mul,
        Nat.zero_add, Nat.add_mul, Nat.mul_assoc, Nat.mul_comm 256, Nat.add_assoc]
  unfold beNat
  rw [List.foldl_cons, key, Nat.zero_mul, Nat.zero_add]

/-- A field of so many bytes read back. -/
theorem beNat_beBytes (k n : Nat) : beNat (beBytes k n) = n % 256 ^ k := by
  induction k with
  | zero => simp [beBytes, beNat, Nat.mod_one]
  | succ k ih =>
    rw [beBytes, beNat_cons, ih, beBytes_length, BitVec.toNat_ofNat, show n % 256 ^ (k + 1) = n % (256 ^ k * 256) from rfl,
      Nat.mod_mul, Nat.add_comm, Nat.mul_comm _ (256 ^ k)]

/-- The first field, when it is in front. -/
theorem splitFields_beBytes {w n : Nat} (ws : List Nat) (rest : List Byte) (h : n < 256 ^ w) :
    splitFields (w :: ws) (beBytes w n ++ rest) = n :: splitFields ws rest := by
  rw [splitFields, List.take_left' (beBytes_length w n), List.drop_left' (beBytes_length w n), beNat_beBytes,
    Nat.mod_eq_of_lt h]

theorem splitFields_byte1 {n : Nat} (ws : List Nat) (rest : List Byte) (h : n < 256) :
    splitFields (1 :: ws) (byte1 n ++ rest) = n :: splitFields ws rest := splitFields_beBytes ws rest h

theorem splitFields_byte2 {n : Nat} (ws : List Nat) (rest : List Byte) (h : n < 65536) :
    splitFields (2 :: ws) (byte2 n ++ rest) = n :: splitFields ws rest := splitFields_beBytes ws rest h

theorem splitFields_byte4 {n : Nat} (ws : List Nat) (rest : List Byte) (h : n < 4294967296) :
    splitFields (4 :: ws) (byte4 n ++ rest) = n :: splitFields ws rest := splitFields_beBytes ws rest h

theorem splitFields_flag (b : Bool) (ws : List Nat) (rest : List Byte) :
    splitFields (1 :: ws) (flag b ++ rest) = (if b then 1 else 0) :: splitFields ws rest :=
  splitFields_byte1 ws rest (by split <;> decide)

/-- A one-byte field is the byte of its number. -/
theorem byte1_eq (n : Nat) : byte1 n = [BitVec.ofNat 8 n] := by simp [byte1, beBytes]

theorem flag_eq (b : Bool) : flag b = [if b then 1 else 0] := by cases b <;> rfl

/-- A byte is the field of its number. -/
theorem byte1_toNat (b : Byte) : byte1 b.toNat = [b] := by rw [byte1_eq, BitVec.ofNat_toNat, BitVec.setWidth_eq]

/-- Two bytes are the field of their number. -/
theorem byte2_beNat (a b : Byte) : byte2 (beNat [a, b]) = [a, b] := by
  have ha := a.isLt
  have hb := b.isLt
  have e : beNat [a, b] = a.toNat * 256 + b.toNat := by simp [beNat]
  rw [e]
  simp only [byte2, beBytes, List.cons.injEq, and_true]
  constructor
  · apply BitVec.eq_of_toNat_eq
    rw [BitVec.toNat_ofNat]
    omega
  · apply BitVec.eq_of_toNat_eq
    rw [BitVec.toNat_ofNat]
    omega

/-! ### Records of one size -/

/-- A record of records of one size. -/
theorem recordAt_flatMap {α : Type} {f : α → List Byte} {size : Nat} (h : ∀ x, (f x).length = size) (l : List α)
    (rest : List Byte) (i : Nat) (hi : i < l.length) : recordAt size (l.flatMap f ++ rest) i = f l[i] := by
  induction l generalizing i with
  | nil => simp at hi
  | cons a t ih =>
    unfold recordAt
    rw [List.flatMap_cons, List.append_assoc]
    cases i with
    | zero => rw [Nat.mul_zero, List.drop_zero, List.take_left' (h a), List.getElem_cons_zero]
    | succ i =>
      rw [Nat.mul_succ, Nat.add_comm, ← List.drop_drop, List.drop_left' (h a), List.getElem_cons_succ]
      exact ih i (by simpa using hi)

/-- A record of a whole table. -/
theorem recordAt_table {α : Type} {n : Nat} {f : α → List Byte} {size : Nat} (h : ∀ x, (f x).length = size) (t : Vector α n)
    (rest : List Byte) (i : Fin n) : recordAt size (t.toList.flatMap f ++ rest) i.val = f t[i] := by
  rw [recordAt_flatMap h _ _ _ (by simp)]
  simp

/-- The bytes of a table of one-byte fields. -/
theorem byteAt_flatMap {α : Type} {n : Nat} {f : α → Byte} (t : Vector α n) (i : Fin n) (rest : List Byte) :
    byteAt (t.toList.flatMap (fun x => [f x]) ++ rest) i.val = f t[i] := by
  have h := recordAt_table (f := fun x => [f x]) (size := 1) (fun _ => rfl) t rest i
  unfold recordAt at h
  unfold byteAt
  rw [Nat.one_mul] at h
  rw [List.getD_eq_getElem?_getD, ← List.head?_drop]
  cases e : (t.toList.flatMap (fun x => [f x]) ++ rest).drop i.val with
  | nil =>
    rw [e] at h
    simp at h
  | cons b r =>
    rw [e] at h
    simp only [List.take_succ_cons, List.take_zero, List.cons.injEq, and_true] at h
    rw [List.head?_cons, Option.getD_some, h]

/-! ### Cue entries (R127, R128) -/

theorem CueKind.ofNum_num (k : CueKind) : CueKind.ofNum k.num = k := by cases k <;> rfl

/-- The operands of an entry that passes its tests fit their fields. -/
theorem operands_fit {e : CueEntry} (h : firstBad 0 (entryTests (e.kind.num :: e.operands)) = none) :
    e.op1 < 4294967296 ∧ e.op2 < 65536 ∧ e.op3 < 65536 ∧ e.op4 < 65536 ∧ e.op5 < 65536 ∧ e.op6 < 65536 := by
  rw [firstBad_eq_none] at h
  obtain ⟨k, a, b, c, d, f, g⟩ := e
  cases k <;>
    simp [entryTests, operandTests, CueKind.num, CueKind.ofNum, CueEntry.operands, fld, windowTakeTests, freezeTests,
      setPulseTests, captureTests, rotateTests] at h ⊢ <;>
    (repeat' split at h) <;> simp_all <;> omega

/-- R127: an entry that passes its tests is given back. -/
theorem storedCue_bytes {e : CueEntry} (h : firstBad 0 (entryTests (e.kind.num :: e.operands)) = none) :
    storedCue e.bytes = e := by
  obtain ⟨h1, h2, h3, h4, h5, h6⟩ := operands_fit h
  have f : splitFields cueWidths e.bytes = e.kind.num :: e.operands := by
    unfold CueEntry.bytes cueWidths CueEntry.operands
    simp only [List.append_assoc]
    rw [splitFields_byte1 _ _ (by cases e.kind <;> decide), splitFields_byte4 _ _ h1, splitFields_byte2 _ _ h2,
      splitFields_byte2 _ _ h3, splitFields_byte2 _ _ h4, splitFields_byte2 _ _ h5, ← List.append_nil (byte2 e.op6),
      splitFields_byte2 _ _ h6, splitFields]
  unfold storedCue
  dsimp only
  rw [f, h]
  unfold entryOfFields CueEntry.operands
  simp only [fld, List.getD_cons_zero, List.getD_cons_succ, CueKind.ofNum_num, Option.isNone_none, if_true]

/-- The 15 bytes of an entry. -/
theorem CueEntry.bytes_length (e : CueEntry) : e.bytes.length = 15 := by simp [CueEntry.bytes]

/-! ### Alarms and triggers (R156) -/

theorem Alarm.settingBytes_length (a : Alarm) : a.settingBytes.length = 9 := by simp [Alarm.settingBytes]

theorem Trigger.settingBytes_length (g : Trigger) : g.settingBytes.length = 7 := by simp [Trigger.settingBytes]

theorem SourceEvent.ofNum_num (e : SourceEvent) : SourceEvent.ofNum e.num = e := by cases e <;> rfl

/-- R156: an alarm that passes its checks is given back, but for its last outcome and last acted time. -/
theorem storedAlarm_bytes {a : Alarm} (hs : a.seconds ≤ 86399) (ha : a.address ≤ 1023)
    (hw : a.enabled = true → a.weekdays ≠ 0) :
    storedAlarm a.settingBytes = { a with outcome := .none, lastActed := none } := by
  have hr := a.runner.isLt
  have hd := a.weekdays.isLt
  have f : splitFields [1, 4, 1, 1, 2] a.settingBytes =
      [if a.enabled then 1 else 0, a.seconds, a.weekdays.toNat, a.runner.val, a.address] := by
    unfold Alarm.settingBytes
    simp only [List.append_assoc]
    rw [splitFields_flag, splitFields_byte4 _ _ (by omega), splitFields_byte1 _ _ (by omega),
      splitFields_byte1 _ _ (by omega), ← List.append_nil (byte2 a.address), splitFields_byte2 _ _ (by omega), splitFields]
  unfold storedAlarm
  dsimp only
  rw [f]
  have t : alarmBad [0, if a.enabled then 1 else 0, a.seconds, a.weekdays.toNat, a.runner.val, a.address] = none := by
    have n : firstBad 0 (alarmTests [0, if a.enabled then 1 else 0, a.seconds, a.weekdays.toNat, a.runner.val, a.address])
        = none := by
      rw [firstBad_eq_none]
      simp [alarmTests, fld]
      refine ⟨by split <;> omega, hs, by omega, by omega, ha⟩
    unfold alarmBad
    rw [n]
    dsimp only
    rw [if_neg]
    simp only [fld, List.getD_cons_zero, List.getD_cons_succ]
    rintro ⟨h1, h2⟩
    split at h1
    · next e => exact hw e (BitVec.eq_of_toNat_eq (by rw [h2]; rfl))
    · cases h1
  rw [t]
  obtain ⟨b, sec, w, r, ad, o, l⟩ := a
  unfold alarmOf
  simp only [fld, List.getD_cons_zero, List.getD_cons_succ, Option.isNone_none, if_true, Alarm.mk.injEq, and_true, true_and]
  refine ⟨by cases b <;> rfl, by simp, Fin.ext (Nat.mod_eq_of_lt hr)⟩

/-- R156: a trigger that passes its checks is given back, but for its last outcome and last acted time. -/
theorem storedTrigger_bytes {g : Trigger} (ha : g.address ≤ 1023) :
    storedTrigger g.settingBytes = { g with outcome := .none, lastActed := none } := by
  have hr := g.runner.isLt
  have hi := g.source.isLt
  have he : g.event.num ≤ 2 := by cases g.event <;> decide
  have f : splitFields [1, 1, 1, 1, 2, 1] g.settingBytes =
      [if g.enabled then 1 else 0, g.source.val, g.event.num, g.runner.val, g.address, if g.once then 1 else 0] := by
    unfold Trigger.settingBytes
    simp only [List.append_assoc]
    rw [splitFields_flag, splitFields_byte1 _ _ (by omega), splitFields_byte1 _ _ (by omega),
      splitFields_byte1 _ _ (by omega), splitFields_byte2 _ _ (by omega), ← List.append_nil (flag g.once),
      splitFields_flag, splitFields]
  unfold storedTrigger
  dsimp only
  rw [f]
  have t : firstBad 0 (triggerTests
      [0, if g.enabled then 1 else 0, g.source.val, g.event.num, g.runner.val, g.address, if g.once then 1 else 0]) = none := by
    rw [firstBad_eq_none]
    simp [triggerTests, fld]
    refine ⟨by split <;> omega, by omega, he, by omega, ha, by split <;> omega⟩
  rw [t]
  obtain ⟨b, i, e, r, ad, once, o, l⟩ := g
  unfold triggerOf
  simp only [fld, List.getD_cons_zero, List.getD_cons_succ, Option.isNone_none, if_true, Trigger.mk.injEq, and_true, true_and]
  refine ⟨by cases b <;> rfl, Fin.ext (Nat.mod_eq_of_lt hi), SourceEvent.ofNum_num e, Fin.ext (Nat.mod_eq_of_lt hr),
    by cases once <;> rfl⟩

/-! ### Parameters, settings, rates, grants, colours, the ramp -/

theorem SourceParams.bytes_length (x : SourceParams) : x.bytes.length = 7 := by simp [SourceParams.bytes]

/-- R34: parameters that pass their checks are given back. -/
theorem storedParams_bytes {x : SourceParams} (h : 1 ≤ x.passRun ∧ x.passRun ≤ 4 ∧ x.minPictures ≤ 15 ∧ 1 ≤ x.maxPictures ∧
    x.maxPictures ≤ 63 ∧ x.minPictures ≤ x.maxPictures ∧ 1 ≤ x.suspectLimit ∧ x.suspectLimit ≤ 15 ∧ 20 ≤ x.staleLimit ∧
    x.staleLimit ≤ 2000) : storedParams x.bytes = x := by
  have f : splitFields [1, 1, 1, 1, 1, 2] x.bytes =
      [if x.enable then 1 else 0, x.passRun, x.minPictures, x.maxPictures, x.suspectLimit, x.staleLimit] := by
    unfold SourceParams.bytes
    simp only [List.append_assoc]
    rw [splitFields_flag, splitFields_byte1 _ _ (by omega), splitFields_byte1 _ _ (by omega),
      splitFields_byte1 _ _ (by omega), splitFields_byte1 _ _ (by omega), ← List.append_nil (byte2 x.staleLimit),
      splitFields_byte2 _ _ (by omega), splitFields]
  unfold storedParams
  dsimp only
  rw [f]
  have t : sourceBad [0, if x.enable then 1 else 0, x.passRun, x.minPictures, x.maxPictures, x.suspectLimit, x.staleLimit] =
      none := by
    have n : firstBad 0 (sourceTests
        [0, if x.enable then 1 else 0, x.passRun, x.minPictures, x.maxPictures, x.suspectLimit, x.staleLimit]) = none := by
      rw [firstBad_eq_none]
      simp [sourceTests, fld]
      refine ⟨by split <;> omega, by omega, by omega, by omega, by omega, by omega⟩
    unfold sourceBad
    rw [n]
    simp only [fld, List.getD_cons_zero, List.getD_cons_succ]
    rw [if_neg (by omega)]
  rw [t]
  obtain ⟨b, p1, p2, p3, p4, p5⟩ := x
  unfold paramsOf
  simp only [fld, List.getD_cons_zero, List.getD_cons_succ, Option.isNone_none, if_true, SourceParams.mk.injEq, and_true]
  cases b <;> rfl

/-- The number of a byte that a number below 256 gives. -/
theorem byteOf_toNat {n : Nat} (h : n < 256) : (BitVec.ofNat 8 n).toNat = n := by
  rw [BitVec.toNat_ofNat]
  exact Nat.mod_eq_of_lt h

theorem Screen.settingsBytes_length (x : Screen) : x.settingsBytes.length = 6 := by
  unfold Screen.settingsBytes
  cases x.start <;> simp [present]

/-- The four settings of a screen, and the enabled one. -/
def Screen.settings (x : Screen) : ScreenSettings := ⟨x.enabled, x.cadence, x.width, x.height, x.start⟩

/-- R94: settings that pass their checks are given back. -/
theorem storedSettings_bytes {x : Screen} (h : 40 ≤ x.width ∧ x.width ≤ 240 ∧ 12 ≤ x.height ∧ x.height ≤ 68) :
    storedSettings x.settingsBytes = x.settings := by
  have f : x.settingsBytes.map (·.toNat) = [if x.enabled then 1 else 0, cadenceNum x.cadence, x.width, x.height,
      if x.start.isSome then 1 else 0, (x.start.map (·.val)).getD 0] := by
    unfold Screen.settingsBytes
    rw [byte1_eq, byte1_eq, byte1_eq, flag_eq]
    have e1 : (if x.enabled then (1 : Byte) else 0).toNat = if x.enabled then 1 else 0 := by split <;> rfl
    have e2 : (BitVec.ofNat 8 (cadenceNum x.cadence)).toNat = cadenceNum x.cadence := by cases x.cadence <;> rfl
    have e5 : (present 1 (x.start.map fun e => byte1 e.val)).map (·.toNat) =
        [if x.start.isSome then 1 else 0, (x.start.map (·.val)).getD 0] := by
      cases x.start with
      | none => rfl
      | some e => simp [present, byte1_eq]; omega
    simp only [List.map_append, List.map_cons, List.map_nil, e1, e2, byteOf_toNat (show x.width < 256 by omega),
      byteOf_toNat (show x.height < 256 by omega), e5]
    rfl
  unfold storedSettings
  dsimp only
  rw [f]
  have t : firstBad 0 (screenTests (0 :: [if x.enabled then 1 else 0, cadenceNum x.cadence, x.width, x.height,
      if x.start.isSome then 1 else 0, (x.start.map (·.val)).getD 0])) = none := by
    rw [firstBad_eq_none]
    have hc : cadenceNum x.cadence ≤ 1 := by cases x.cadence <;> decide
    cases hs : x.start with
    | none =>
      simp [screenTests, fld]
      refine ⟨by split <;> omega, hc, by omega, by omega⟩
    | some e =>
      simp [screenTests, fld]
      refine ⟨by split <;> omega, hc, by omega, by omega, by omega⟩
  rw [t]
  unfold settingsOf Screen.settings
  simp only [fld, List.getD_cons_zero, List.getD_cons_succ, Option.isNone_none, if_true, ScreenSettings.mk.injEq,
    true_and]
  refine ⟨by cases x.enabled <;> rfl, by cases x.cadence <;> rfl, ?_⟩
  cases x.start with
  | none => rfl
  | some e => exact congrArg some (Fin.ext (Nat.mod_eq_of_lt e.isLt))

/-- R72: a rate that a generator can have is given back. -/
theorem storedRate_of {n p : Nat} (h : n ∈ [24, 25, 30, 50, 60]) : storedRate n p = n := by
  unfold storedRate
  rw [if_pos (List.contains_iff_mem.2 h)]

theorem Grant.ofNum_num (g : Grant) : Grant.ofNum g.num = g := by cases g <;> rfl

/-- A byte of the grants. -/
theorem grantBytes_byteAt (s : State) (p : Fin 16) : (byteAt (grantBytes s) p.val).toNat = s.ports[p].grant.num := by
  have h := byteAt_flatMap (f := fun x : Port => BitVec.ofNat 8 x.grant.num) s.ports p []
  rw [List.append_nil] at h
  have e : grantBytes s = s.ports.toList.flatMap fun x => [BitVec.ofNat 8 x.grant.num] := by
    unfold grantBytes
    simp only [byte1_eq]
  rw [e, h]
  cases s.ports[p].grant <;> rfl

/-- R165: grants of which one is FULL are given back. -/
theorem storedGrant_bytes {s : State} (h : s.GrantLaw) (p : Fin 16) : storedGrant (grantBytes s) p = s.ports[p].grant := by
  unfold storedGrant
  rw [if_neg, grantBytes_byteAt, Grant.ofNum_num]
  rintro ⟨-, k⟩
  obtain ⟨q, hq⟩ := h
  have m : ((List.range 16).any fun i => (byteAt (grantBytes s) i).toNat = 2) = true :=
    List.any_eq_true.2 ⟨q.val, List.mem_range.2 q.isLt, decide_eq_true (by rw [grantBytes_byteAt, hq]; rfl)⟩
  rw [m] at k
  cases k

theorem Colour.bytes_length (x : Colour) : x.bytes.length = 3 := rfl

/-- A byte of a record. -/
theorem recordAt_byteAt {size i j : Nat} (bs : List Byte) (h : j < size) :
    byteAt (recordAt size bs i) j = byteAt bs (size * i + j) := by
  unfold byteAt recordAt
  simp only [List.getD_eq_getElem?_getD]
  rw [List.getElem?_take_of_lt h, List.getElem?_drop]

/-- R86: the palette is given back. -/
theorem paletteOf_bytes (t : Vector Colour 16) (rest : List Byte) :
    paletteOf (t.toList.flatMap Colour.bytes ++ rest) = t := by
  refine table_ext fun i => ?_
  unfold paletteOf
  rw [ofFn_get]
  have h := recordAt_table Colour.bytes_length t rest i
  have e0 := recordAt_byteAt (i := i.val) (t.toList.flatMap Colour.bytes ++ rest) (show 0 < 3 by decide)
  have e1 := recordAt_byteAt (i := i.val) (t.toList.flatMap Colour.bytes ++ rest) (show 1 < 3 by decide)
  have e2 := recordAt_byteAt (i := i.val) (t.toList.flatMap Colour.bytes ++ rest) (show 2 < 3 by decide)
  rw [h] at e0 e1 e2
  rw [← Nat.add_zero (3 * i.val), ← e0, Nat.add_zero, ← e1, ← e2]
  rfl

/-- R103: a ramp of which no entry is above 32 is given back. -/
theorem storedRamp_bytes {t : Vector Nat 16} (h : ∀ i : Fin 16, t[i] ≤ 32) : storedRamp (t.toList.flatMap byte1) = t := by
  have b : ∀ n ∈ t.toList, n ≤ 32 := by
    intro n hn
    obtain ⟨i, hi, rfl⟩ := List.getElem_of_mem hn
    have := h ⟨i, by simpa using hi⟩
    simpa using this
  have f : (t.toList.flatMap byte1).map (·.toNat) = t.toList := by
    generalize t.toList = l at b
    induction l with
    | nil => rfl
    | cons a r ih =>
      have ha := b a List.mem_cons_self
      rw [List.flatMap_cons, List.map_append, ih fun n hn => b n (List.mem_cons_of_mem _ hn), byte1_eq, List.map_cons,
        byteOf_toNat (by omega)]
      rfl
  unfold storedRamp
  dsimp only
  rw [f]
  have z : firstBad 0 (t.toList.map (within 0 32)) = none := by
    rw [firstBad_eq_none]
    intro x hx
    obtain ⟨n, hn, rfl⟩ := List.mem_map.1 hx
    exact within_eq_true.2 ⟨Nat.zero_le _, b n hn⟩
  rw [z]
  refine table_ext fun i => ?_
  show (rampOf t.toList)[i] = t[i]
  unfold rampOf
  rw [ofFn_get]
  simp [fld]

/-! ### Rotation lists (R105) -/

/-- Fields of which none repeats. -/
theorem firstRepeat_none {n : Nat} {seen l : List Nat} : firstRepeat n seen l = none ↔ l.Nodup ∧ ∀ x ∈ l, x ∉ seen := by
  induction l generalizing n seen with
  | nil => simp [firstRepeat]
  | cons a t ih =>
    unfold firstRepeat
    by_cases h : seen.contains a = true
    · rw [if_pos h]
      have m : a ∈ seen := List.contains_iff_mem.1 h
      simp [m]
    · rw [if_neg h, ih]
      have m : a ∉ seen := fun k => h (List.contains_iff_mem.2 k)
      simp only [List.nodup_cons, List.mem_cons, not_or, forall_eq_or_imp]
      constructor
      · rintro ⟨h1, h2⟩
        exact ⟨⟨fun k => (h2 a k).1 rfl, h1⟩, m, fun x hx => (h2 x hx).2⟩
      · rintro ⟨⟨h1, h2⟩, -, h3⟩
        exact ⟨h2, fun x hx => ⟨fun e => h1 (e ▸ hx), h3 x hx⟩⟩

theorem Rotation.image_length (x : Rotation) : x.image.length = 17 := by
  unfold Rotation.image
  rw [List.length_append, flatMap_length (fun _ => byte1_length _)]
  simp

/-- R105: a list that passes its checks is given back, its position 0. -/
theorem storedRotation_image {x : Rotation} (hl : x.entries.length ≤ 16) (hd : x.entries.Nodup) :
    storedRotation x.image = { x with position := 0 } := by
  obtain ⟨l, pos⟩ := x
  dsimp only at hl hd ⊢
  have e0 : (byteAt (Rotation.mk l pos).image 0).toNat = l.length := by
    unfold Rotation.image
    rw [byte1_eq]
    exact byteOf_toNat (show l.length < 256 by omega)
  have e1 : (((Rotation.mk l pos).image.drop 1).take l.length).map (·.toNat) = l.map (·.val) := by
    unfold Rotation.image
    rw [byte1_eq, List.singleton_append, List.drop_one, List.tail_cons]
    dsimp only
    apply List.ext_getElem?
    intro i
    simp only [byte1_eq, List.getElem?_map]
    by_cases hi : i < l.length
    · have k : ((List.range 16).flatMap fun j => [BitVec.ofNat 8 ((l[j]?.map (·.val)).getD 0)]) =
          (List.range 16).map fun j => BitVec.ofNat 8 ((l[j]?.map (·.val)).getD 0) := by
        rw [List.map_eq_flatMap]
      rw [k, List.getElem?_take_of_lt hi, List.getElem?_map, List.getElem?_range (by omega)]
      simp only [Option.map_some, List.getElem?_eq_getElem hi, Option.getD_some]
      rw [byteOf_toNat (by omega)]
    · rw [List.getElem?_eq_none (by rw [List.length_take]; omega), List.getElem?_eq_none (by omega)]
      rfl
  unfold storedRotation
  dsimp only
  rw [e0, e1]
  by_cases z : l = []
  · subst z
    rfl
  · have p : 0 < l.length := List.length_pos_of_ne_nil z
    have n : rotationBad l.length (l.map (·.val)) = none := by
      unfold rotationBad
      have n : firstBad 1 (within 1 16 l.length :: (l.map (·.val)).map (within 0 15)) = none := by
        rw [firstBad_eq_none]
        simp
        exact ⟨⟨p, hl⟩, fun a _ => by omega⟩
      rw [n]
      exact firstRepeat_none.2 ⟨(List.nodup_map_iff Fin.val_injective).2 hd, fun _ _ => List.not_mem_nil⟩
    rw [n]
    have m : (l.map (·.val)).map (Fin.ofNat 16) = l := by
      rw [List.map_map]
      exact (List.map_congr_left fun a _ => Fin.ext (Nat.mod_eq_of_lt a.isLt)).trans (List.map_id l)
    rw [m]
    rfl

/-! ### Scenes (R110) -/

/-- The fields of a scene's members. -/
def memberFields (x : Scene) : List Nat := x.flatMap fun m => [m.1.val, m.2.val]

theorem membersOf_memberFields (x : Scene) : membersOf (memberFields x) = x := by
  induction x with
  | nil => rfl
  | cons m t ih =>
    have e : memberFields (m :: t) = m.1.val :: m.2.val :: memberFields t := rfl
    rw [e, membersOf, ih]
    simp

/-- The members of a scene are in range. -/
theorem memberTests_memberFields (x : Scene) : ∀ b ∈ memberTests (memberFields x), b = true := by
  induction x with
  | nil => intro b hb; cases hb
  | cons m t ih =>
    have e : memberFields (m :: t) = m.1.val :: m.2.val :: memberFields t := rfl
    rw [e, memberTests]
    have h1 := m.1.isLt
    have h2 := m.2.isLt
    intro b hb
    rcases List.mem_cons.1 hb with rfl | hb
    · rw [within_eq_true]; omega
    · rcases List.mem_cons.1 hb with rfl | hb
      · rw [within_eq_true]; omega
      · exact ih b hb

/-- The bytes of a scene's members, as fields. -/
theorem memberBytes_fields (x : Scene) :
    (x.flatMap fun m => byte1 m.1.val ++ byte1 m.2.val).map (·.toNat) = memberFields x := by
  induction x with
  | nil => rfl
  | cons m t ih =>
    have h1 := m.1.isLt
    have h2 := m.2.isLt
    rw [List.flatMap_cons, List.map_append, ih, byte1_eq, byte1_eq]
    simp only [List.map_cons, List.map_nil, List.singleton_append, byteOf_toNat (show m.1.val < 256 by omega),
      byteOf_toNat (show m.2.val < 256 by omega)]
    rfl

/-- R110: a scene that passes its checks, or none, is given back. -/
theorem storedScene_image {x : Option Scene}
    (h : ∀ y, x = some y → 1 ≤ y.length ∧ y.length ≤ 24 ∧ (y.map (·.1)).Nodup) : storedScene (sceneImage x) = x := by
  cases x with
  | none => rfl
  | some y =>
    obtain ⟨h1, h2, h3⟩ := h y rfl
    have e : sceneImage (some y) = BitVec.ofNat 8 y.length :: y.flatMap fun m => byte1 m.1.val ++ byte1 m.2.val := by
      show sceneBytes y = _
      unfold sceneBytes
      rw [byte1_eq]
      rfl
    unfold storedScene
    dsimp only
    rw [e, List.drop_one, List.tail_cons, memberBytes_fields]
    have c : (byteAt (BitVec.ofNat 8 y.length :: y.flatMap fun m => byte1 m.1.val ++ byte1 m.2.val) 0).toNat = y.length :=
      byteOf_toNat (by omega)
    rw [c]
    have n : sceneBad y.length (memberFields y) = none := by
      unfold sceneBad
      have n : firstBad 1 (within 1 24 y.length :: memberTests (memberFields y)) = none := by
        rw [firstBad_eq_none]
        intro b hb
        rcases List.mem_cons.1 hb with rfl | hb
        · exact within_eq_true.2 ⟨h1, h2⟩
        · exact memberTests_memberFields y b hb
      rw [n]
      dsimp only
      rw [membersOf_memberFields, firstRepeat_none.2 ⟨?_, fun _ _ => List.not_mem_nil⟩]
      · rfl
      · have k : (y.map (·.1.val)) = (y.map (·.1)).map Fin.val := by simp
        rw [k]
        exact (List.nodup_map_iff Fin.val_injective).2 h3
    rw [n, membersOf_memberFields]
    rfl

/-! ### Layouts (R69) -/

/-- A presence byte and a field of one byte that is 0 where the mark is clear. -/
theorem marked_bytes {b c : Byte} (hb : b.toNat ≤ 1) (hc : b.toNat ≠ 1 → c.toNat = 0) (rest : List Byte) :
    flag (if b.toNat = 1 then some c.toNat else none).isSome ++
      (byte1 ((if b.toNat = 1 then some c.toNat else none).getD 0) ++ rest) = b :: c :: rest := by
  by_cases k : b.toNat = 1
  · rw [if_pos k, show b = 1 from BitVec.eq_of_toNat_eq k]
    simp [flag_eq, byte1_toNat]
  · rw [if_neg k, show b = 0 from BitVec.eq_of_toNat_eq (by show b.toNat = 0; omega),
      show c = 0 from BitVec.eq_of_toNat_eq (hc k)]
    rfl

/-- A presence byte and two such fields. -/
theorem marked_two_bytes {b c d : Byte} (hb : b.toNat ≤ 1) (hc : b.toNat ≠ 1 → c.toNat = 0) (hd : b.toNat ≠ 1 → d.toNat = 0)
    (rest : List Byte) :
    flag (if b.toNat = 1 then some (c.toNat, d.toNat) else none).isSome ++
        (byte1 ((if b.toNat = 1 then some (c.toNat, d.toNat) else none).getD (0, 0)).1 ++
        (byte1 ((if b.toNat = 1 then some (c.toNat, d.toNat) else none).getD (0, 0)).2 ++ rest)) = b :: c :: d :: rest := by
  by_cases k : b.toNat = 1
  · rw [if_pos k, show b = 1 from BitVec.eq_of_toNat_eq k]
    simp [flag_eq, byte1_toNat]
  · rw [if_neg k, show b = 0 from BitVec.eq_of_toNat_eq (by show b.toNat = 0; omega),
      show c = 0 from BitVec.eq_of_toNat_eq (hc k), show d = 0 from BitVec.eq_of_toNat_eq (hd k)]
    rfl

/-- A transition's two bytes. -/
theorem transition_bytes {b c : Byte} (hb : b.toNat ≤ 1) (hc : b.toNat ≠ 1 → c.toNat = 0) (rest : List Byte) :
    flag (if b.toNat = 1 then Transition.dissolve c.toNat else .cut).isDissolve ++
        (byte1 (if b.toNat = 1 then Transition.dissolve c.toNat else .cut).length ++ rest) = b :: c :: rest := by
  by_cases k : b.toNat = 1
  · rw [if_pos k, show b = 1 from BitVec.eq_of_toNat_eq k]
    simp [flag_eq, byte1_toNat, Transition.isDissolve, Transition.length]
  · rw [if_neg k, show b = 0 from BitVec.eq_of_toNat_eq (by show b.toNat = 0; omega),
      show c = 0 from BitVec.eq_of_toNat_eq (hc k)]
    rfl

/-- A fallback's byte. -/
theorem fallback_byte {b : Byte} (hb : b.toNat ≤ 2) :
    byte1 (if b.toNat = 0 then Fallback.hold else if b.toNat = 1 then .slate else .backup).num = [b] := by
  rw [← byte1_toNat b]
  obtain h | h | h : b.toNat = 0 ∨ b.toNat = 1 ∨ b.toNat = 2 := by omega
  all_goals rw [h]; rfl

/-- A mark's byte. -/
theorem mark_byte {b : Byte} (hb : b.toNat ≤ 1) : flag (decide (b.toNat = 1)) = [b] := by
  rw [← byte1_toNat b]
  obtain h | h : b.toNat = 0 ∨ b.toNat = 1 := by omega
  all_goals rw [h]; rfl

/-- A window whose 20 bytes pass their tests is written as it was read. -/
theorem windowOf_bytes {w : List Byte} (hl : w.length = 20) (ht : ∀ b ∈ windowTests w, b = true) :
    (windowOf w).bytes (windowOf w).reserved = w := by
  have e : w = [byteAt w 0, byteAt w 1, byteAt w 2, byteAt w 3, byteAt w 4, byteAt w 5, byteAt w 6, byteAt w 7, byteAt w 8,
      byteAt w 9, byteAt w 10, byteAt w 11, byteAt w 12, byteAt w 13, byteAt w 14, byteAt w 15, byteAt w 16, byteAt w 17,
      byteAt w 18, byteAt w 19] := by
    refine List.ext_getElem (by rw [hl]; rfl) fun i h1 h2 => ?_
    have k : ∀ j (h : j < w.length), byteAt w j = w[j] := fun j h => by
      unfold byteAt
      rw [List.getD_eq_getElem?_getD, List.getElem?_eq_getElem h, Option.getD_some]
    rw [hl] at h1
    interval_cases i <;> exact (k _ _).symm
  simp only [windowTests, List.mem_cons, List.not_mem_nil, or_false, forall_eq_or_imp, forall_eq, within_eq_true] at ht
  obtain ⟨-, -, -, -, -, -, -, t7, t8, t9, t10, t11, t12, -, t14, t15, t16, t17, t18⟩ := ht
  have p1 := marked_bytes (b := byteAt w 7) (c := byteAt w 8) t7.2 fun k => by
    rw [if_neg (show ¬ wfld w 7 = 1 from k)] at t8
    exact of_decide_eq_true t8
  have p2 := marked_two_bytes (b := byteAt w 9) (c := byteAt w 10) (d := byteAt w 11) t9.2
    (fun k => by
      rw [if_neg (show ¬ wfld w 9 = 1 from k)] at t10
      exact of_decide_eq_true t10)
    fun k => by
      rw [if_neg (show ¬ wfld w 9 = 1 from k)] at t11
      exact of_decide_eq_true t11
  have p3 := marked_bytes (b := byteAt w 14) (c := byteAt w 15) t14.2 fun k => by
    rw [if_neg (show ¬ wfld w 14 = 1 from k)] at t15
    exact of_decide_eq_true t15
  have p4 := transition_bytes (b := byteAt w 16) (c := byteAt w 17) t16.2 fun k => by
    rw [if_neg (show ¬ wfld w 16 = 1 from k)] at t17
    exact of_decide_eq_true t17
  have p5 := fallback_byte (b := byteAt w 12) t12.2
  have p6 := mark_byte (b := byteAt w 18) t18.2
  refine Eq.trans ?_ e.symm
  unfold Window.bytes windowOf wfld
  dsimp only
  simp only [List.append_assoc]
  rw [p1, p2, p3, p4, p5, p6]
  simp only [byte1_toNat, List.singleton_append]

/-- Records cut from bytes and joined again. -/
theorem chunks_flatten (size n : Nat) (bs : List Byte) (h : bs.length = size * n) : (chunks size n bs).flatten = bs := by
  induction n generalizing bs with
  | zero => exact (List.eq_nil_of_length_eq_zero h).symm
  | succ n ih =>
    rw [chunks, List.flatten_cons, ih _ (by rw [List.length_drop, h, Nat.mul_succ]; omega), List.take_append_drop]

/-- The length of each record cut from enough bytes. -/
theorem chunks_each {size n : Nat} {bs : List Byte} (h : bs.length = size * n) : ∀ w ∈ chunks size n bs, w.length = size := by
  induction n generalizing bs with
  | zero => intro w hw; cases hw
  | succ n ih =>
    intro w hw
    rw [Nat.mul_succ] at h
    rcases List.mem_cons.1 hw with rfl | hw
    · rw [List.length_take]; omega
    · exact ih (by rw [List.length_drop]; omega) w hw

/-- The range tests of a record that passes its checks, and the size of its label and the number of its windows. -/
theorem recordBad_tests {bs : List Byte} (h : recordBad bs = none) : ∀ b ∈ recordTests (rawLayout bs), b = true := by
  rw [← firstBad_eq_none (n := 1)]
  unfold recordBad at h
  dsimp only at h
  split at h
  · cases h
  · split at h
    · cases h
    · next e => exact e

/-- A record of the size that its counts give, which passes the checks, is written as it was read (log 18). -/
theorem layoutOf_imageBytes {bs : List Byte}
    (hl : bs.length = 5 + (byteAt bs 0).toNat + 20 * (byteAt bs (2 + (byteAt bs 0).toNat)).toNat) (h : recordBad bs = none) :
    (layoutOf bs).imageBytes = bs := by
  have ht := recordBad_tests h
  have hw : ∀ w ∈ (rawLayout bs).windows, w.length = 20 := chunks_each (by rw [List.length_drop]; omega)
  have hb : (rawLayout bs).windows.flatMap (fun w => (windowOf w).bytes (windowOf w).reserved) =
      bs.drop (5 + (byteAt bs 0).toNat) := by
    rw [← chunks_flatten 20 (byteAt bs (2 + (byteAt bs 0).toNat)).toNat (bs.drop (5 + (byteAt bs 0).toNat))
      (by rw [List.length_drop]; omega)]
    show List.flatMap _ (chunks _ _ _) = _
    rw [← List.flatMap_id]
    refine List.flatMap_congr fun w k => windowOf_bytes (hw w k) fun b hb => ht b ?_
    exact List.mem_append_right _ (List.mem_flatMap.2 ⟨w, k, hb⟩)
  unfold Layout.imageBytes Layout.bytesWith layoutOf
  dsimp only
  rw [List.flatMap_map, hb, List.length_map]
  clear ht hw hb h
  obtain ⟨a, t, rfl⟩ : ∃ a t, bs = a :: t := by
    cases bs with
    | nil => rw [List.length_nil] at hl; omega
    | cons a t => exact ⟨a, t, rfl⟩
  have l0 : byteAt (a :: t) 0 = a := rfl
  rw [l0] at hl ⊢
  rw [List.length_cons] at hl
  obtain ⟨lab, u, rfl, hlab⟩ : ∃ lab u, t = lab ++ u ∧ lab.length = a.toNat :=
    ⟨t.take a.toNat, t.drop a.toNat, (List.take_append_drop _ _).symm, by rw [List.length_take]; omega⟩
  rw [List.length_append, hlab] at hl
  obtain ⟨p, q, r, v, rest, rfl⟩ : ∃ p q r v rest, u = p :: q :: r :: v :: rest := by
    rcases u with _ | ⟨p, _ | ⟨q, _ | ⟨r, _ | ⟨v, rest⟩⟩⟩⟩ <;> simp only [List.length_nil, List.length_cons] at hl <;>
      first | omega | exact ⟨p, q, r, v, rest, rfl⟩
  have at_ : ∀ i, byteAt (a :: (lab ++ p :: q :: r :: v :: rest)) (i + 1 + a.toNat) = byteAt (p :: q :: r :: v :: rest) i :=
    fun i => by
      unfold byteAt
      rw [Nat.add_right_comm, List.getD_cons_succ, List.getD_append_right _ _ _ _ (by omega), hlab, Nat.add_sub_cancel]
  have dr : ∀ i, (a :: (lab ++ p :: q :: r :: v :: rest)).drop (i + 1 + a.toNat) = (p :: q :: r :: v :: rest).drop i :=
    fun i => by
      rw [Nat.add_right_comm, List.drop_succ_cons, Nat.add_comm, ← hlab, ← List.drop_drop, List.drop_left]
  have f1 : (rawLayout (a :: (lab ++ p :: q :: r :: v :: rest))).label = lab := by
    show ((a :: (lab ++ p :: q :: r :: v :: rest)).drop 1).take a.toNat = lab
    rw [List.drop_one, List.tail_cons, ← hlab, List.take_left]
  have f2 : (rawLayout (a :: (lab ++ p :: q :: r :: v :: rest))).background = p.toNat :=
    congrArg BitVec.toNat (at_ 0)
  have f3 : (rawLayout (a :: (lab ++ p :: q :: r :: v :: rest))).windows.length = q.toNat :=
    (chunks_length _ _ _).trans (congrArg BitVec.toNat (at_ 1))
  have f4 : (rawLayout (a :: (lab ++ p :: q :: r :: v :: rest))).check = beNat [r, v] := by
    show beNat (((a :: (lab ++ p :: q :: r :: v :: rest)).drop (2 + 1 + a.toNat)).take 2) = _
    rw [dr]
    rfl
  rw [f1, f2, f3, f4, byte2_beNat, byte1_toNat, byte1_toNat, hlab, byte1_toNat,
    show 5 + a.toNat = 4 + 1 + a.toNat from rfl, dr]
  simp

/-- A record's size, in bounds. -/
theorem imageBytes_size {l : Layout} (h : l.Checked) : l.imageBytes.length ≤ 101 := by
  obtain ⟨bs, hl, hb, rfl⟩ := h
  rw [layoutOf_imageBytes hl hb]
  have ht := recordBad_tests hb
  have h1 := ht _ (List.mem_append_left _ List.mem_cons_self)
  have h3 : within 1 4 (rawLayout bs).count = true := ht _ (by simp [recordTests])
  rw [within_eq_true] at h3
  unfold labelFits at h1
  rw [Bool.and_eq_true] at h1
  have h2 : (byteAt bs 0).toNat ≤ 16 := of_decide_eq_true h1.1
  have h4 : (byteAt bs (2 + (byteAt bs 0).toNat)).toNat ≤ 4 := h3.2
  omega

/-- R69: a layout of the library, or none, is given back. -/
theorem storedLayout_image {x : Option Layout} (h : ∀ l, x = some l → l.Checked) : storedLayout (entryImage x) = x := by
  cases x with
  | none => rfl
  | some l =>
    obtain ⟨bs, hl, hb, e⟩ := h l rfl
    have i : l.imageBytes = bs := by rw [e, layoutOf_imageBytes hl hb]
    have d : (entryImage (some l)).drop 2 = bs := by
      show (byte2 _ ++ l.imageBytes).drop 2 = bs
      rw [i]
      exact List.drop_left' (byte2_length _)
    unfold storedLayout
    dsimp only
    rw [d, if_pos ⟨hl, by rw [hb]; rfl⟩, e]

end Sys2Proof.Machine
end

