-- ==== Sys2Proof/Laws/Reports.lean ====
section
/-! SUPPORT. What the band assembler's operations come to (01), and the operations of a report (02). -/

namespace Sys2Proof.Machine

/-! ### Two changes of one entry -/

/-- Two changes of one port. -/
theorem modPort_modPort (s : State) (p : Fin 16) (f g : Port → Port) : (s.modPort p f).modPort p g = s.modPort p (g ∘ f) := by
  unfold State.modPort
  dsimp only
  rw [put_put, put_same]
  rfl

/-- A change of a port and one of a slot, in either order. -/
theorem modSlot_modPort (s : State) (k : Fin 64) (f : Slot → Slot) (p : Fin 16) (g : Port → Port) :
    (s.modSlot k f).modPort p g = (s.modPort p g).modSlot k f := rfl

/-- Two changes of one source record. -/
theorem modSource_modSource (s : State) (i : Fin 16) (f g : Source → Source) :
    (s.modSource i f).modSource i g = s.modSource i (g ∘ f) := by
  unfold State.modSource
  dsimp only
  rw [put_put, put_same]
  rfl

/-- A change of a source record is the record it gives. -/
theorem modSource_eq (s : State) (i : Fin 16) (f : Source → Source) : s.modSource i f = s.withSource i (f s.sources[i]) := rfl

/-- A source record replaced twice. -/
theorem withSource_withSource (s : State) (i : Fin 16) (x y : Source) :
    (s.withSource i x).withSource i y = s.withSource i y := by
  unfold State.withSource
  dsimp only
  rw [put_put]

/-- The source record put. -/
theorem withSource_get (s : State) (i : Fin 16) (x : Source) : (s.withSource i x).sources[i] = x := put_same _ _ _

/-! ### Bands (01) -/

/-- R4: a band cell that arrives IN SYNC is counted and handed to the assembler. -/
theorem bandArrives {s : State} {p : Fin 16} {cell : List Byte} {b : BandCell} (hl : s.ports[p].link = .inSync)
    (hc : classify cell = .band b) : exec (.bandCell p cell) s = .next ((s.modPort p fun x => { x with
      silence := true
      badRun := 0
      counters := { x.counters with received := x.counters.received + 1 } }).assemble p b) := by
  rw [exec_bandCell]
  unfold State.cellArrives
  dsimp only
  rw [hc]
  dsimp only
  unfold State.wellFormedArrives
  simp only [State.modPort_ports, put_same, hl]
  unfold State.sortCell State.modCounters
  dsimp only
  rw [modPort_modPort, modPort_modPort]
  rfl

/-- R5: whether pictures are assembled is no port's. -/
theorem modPort_assembles (s : State) (p q : Fin 16) (f : Port → Port) : (s.modPort p f).assembles q = s.assembles q := by
  unfold State.assembles
  rw [modPort_loading, State.modPort_sources]

/-- A band has a format when it has the first-band mark (12 section 12.2). -/
theorem classify_first {cell : List Byte} {b : BandCell} (h : classify cell = .band b) : b.format.isSome = b.first := by
  unfold classify at h
  split at h
  · cases h
  · split at h
    · unfold classifyBand at h
      dsimp only at h
      cases k : (byteAt cell 5).getLsbD 7 <;>
        simp only [k, Bool.false_eq_true, if_false, if_true] at h <;> split at h
      all_goals first
        | (injection h with h; subst h; rfl)
        | cases h
    · unfold classifyControl at h
      dsimp only at h
      split at h <;> cases h
    · split at h <;> cases h
    · cases h

/-- R7: a first band that cannot begin a picture. -/
theorem firstBand_fails {s : State} {p : Fin 16} {b : BandCell} {f : Format} (h : f.usable = false ∨ b.last = true) :
    s.firstBand p b f = State.reportErrored p 0 (s.modPort p fun x => { x with
      assembly := .discarding
      counters := { x.counters with discarded := x.counters.discarded + 1, gaps := x.counters.gaps + 1 } }) := by
  unfold State.firstBand
  rw [if_pos (by rcases h with h | h <;> simp [h])]
  unfold State.gapPicture State.discardFrom State.modCounters
  rw [modPort_modPort, modPort_modPort]
  rfl

/-- R7, R39: a first band that begins a picture in the lowest FREE slot. -/
theorem firstBand_grants {s : State} {p : Fin 16} {b : BandCell} {f : Format} {k : Fin 64} (hu : f.usable = true)
    (hl : b.last = false) (hk : s.freeSlot = some k) :
    s.firstBand p b f = (s.withSlot k ⟨.filling, some ⟨p, b.number, f⟩, 0, [b.payload]⟩).withPort p { s.ports[p] with
      assembly := .assembling k b.number f 1 (bandFails b f.width)
      counters := { s.ports[p].counters with
        checkFailed := if bandFails b f.width then s.ports[p].counters.checkFailed + 1
          else s.ports[p].counters.checkFailed } } := by
  unfold State.firstBand
  rw [hu, hl]
  simp only [Bool.not_true, Bool.or_false, Bool.false_eq_true, if_false]
  unfold State.grant
  rw [hk]
  dsimp only
  unfold State.writeChecked State.writeBand State.modCounters
  dsimp only
  cases bandFails b f.width
  · simp only [Bool.false_eq_true, if_false]
    rw [modSlot_modPort, modSlot_modPort]
    unfold State.modSlot State.modPort State.withPort State.withSlot
    simp only [put_put, put_same]
    rfl
  · simp only [if_true]
    rw [modSlot_modPort, modSlot_modPort, modSlot_modPort, modSlot_modPort, modPort_modPort]
    unfold State.modSlot State.modPort State.withPort State.withSlot
    simp only [put_put, put_same]
    rfl

/-! ### Reports (02) -/

/-- A source record replaced and its state set. -/
theorem setSourceState_withSource (s : State) (i : Fin 16) (x : Source) (st : SourceState) :
    SameButMarks ((s.withSource i x).setSourceState i st) (s.withSource i { x with state := st }) := by
  refine (setSourceState_same _ _ _).trans (SameButMarks.of_eq ?_)
  rw [withSource_get, withSource_withSource]

/-- A record in place of one put before. -/
theorem SameButMarks.replaceSource {t s : State} {i : Fin 16} {z : Source} (h : SameButMarks t (s.withSource i z)) (y : Source) :
    SameButMarks (t.withSource i y) (s.withSource i y) := by
  have k := h.withSource i y
  rwa [withSource_withSource] at k

/-- R24: the test after a report in ACQUIRING. -/
theorem testAcquiring_tested {s t : State} {i : Fin 16} {z : Source} (h : SameButMarks t (s.withSource i z)) :
    AcquiringTested s (t.testAcquiring i) i z := by
  have hz : t.sources[i] = z := by
    rw [h.sources]
    exact put_same _ _ _
  refine ⟨fun hp => ?_, fun hp hm => ?_, fun hp hm => ?_⟩
  · unfold State.testAcquiring
    dsimp only
    rw [hz, if_pos hp]
    unfold State.qualify
    dsimp only
    refine ⟨_, ?_, rfl⟩
    unfold State.startStale
    rw [modSource_modSource, modSource_eq, hz]
    exact (setSourceState_withSource ..).trans (h.replaceSource _)
  · unfold State.testAcquiring
    dsimp only
    rw [hz, if_neg hp, if_pos hm]
    unfold State.failSource
    dsimp only
    refine ⟨_, ?_, rfl⟩
    rw [modSource_eq, hz]
    exact (setSourceState_withSource ..).trans (h.replaceSource _)
  · unfold State.testAcquiring
    dsimp only
    rw [hz, if_neg hp, if_neg (by omega)]
    exact h

/-- A runner as the entry of a source to QUALIFIED leaves it (R135). -/
def Runner.qualifiedSeen (i : Fin 16) (x : Runner) : Runner :=
  match x.state with
  | .waiting (.qualified j _ _) => if j = i then x.resumed else x
  | _ => x

/-- R135: the end of the waits for a source. -/
theorem endQualifiedWaits_same (i : Fin 16) (s : State) :
    SameButMarks { s.endQualifiedWaits i with runners := s.runners } s ∧
      ∀ r : Fin 4, (s.endQualifiedWaits i).runners[r] = s.runners[r].qualifiedSeen i := by
  refine foldl_entries (get := State.runners) (f := fun _ => Runner.qualifiedSeen i)
    (P := fun t => SameButMarks { t with runners := s.runners } s) (fun t r ht => ?_) (fun t r ht => ?_) (SameButMarks.refl s)
  · unfold State.endQualifiedWait
    split
    · split
      · exact ((endWait_same r t).with (fun u => { u with runners := s.runners }) fun _ _ => rfl).trans ht
      · exact ht
    · exact ht
  · unfold State.endQualifiedWait
    split
    · next j o n h =>
      unfold Runner.qualifiedSeen
      rw [h]
      dsimp only
      split
      · rw [(endWait_same r t).runners]
        rfl
      · rw [put_self]
    · next h =>
      have kept : t.runners[r].qualifiedSeen i = t.runners[r] := by
        unfold Runner.qualifiedSeen
        split
        · next j o n k => exact absurd k (h _ _ _)
        · rfl
      rw [kept, put_self]

/-! ### The loss of sync and a disable (R14, R15, R20, R22) -/

/-- R14, R15: the assembler gives up its picture and is IDLE. -/
theorem dropAssembly_eq (p : Fin 16) (s : State) : s.dropAssembly p =
    (s.abandoned s.ports[p].assembly).withPort p { s.ports[p] with assembly := .idle, reference := none } := by
  unfold State.dropAssembly State.abandoned
  split <;> next h => rw [h]; rfl

/-- R41: ABANDON changes slots alone. -/
theorem abandoned_rest (s : State) (a : Assembly) : { s.abandoned a with slots := s.slots } = s := by
  cases a <;> rfl

/-- R41: ABANDON leaves the sources. -/
theorem abandoned_sources (s : State) (a : Assembly) : (s.abandoned a).sources = s.sources := by
  cases a <;> rfl

/-- R41: ABANDON leaves the ports. -/
theorem abandoned_ports (s : State) (a : Assembly) : (s.abandoned a).ports = s.ports := by
  cases a <;> rfl

/-- R42: RETIRE changes slots alone. -/
theorem retire_rest (i : Fin 16) (s : State) : { s.retire i with slots := s.slots } = s := by
  unfold State.retire
  split <;> rfl

/-- R42: every slot after RETIRE. -/
theorem retire_retired (i : Fin 16) (s : State) (k : Fin 64) :
    (s.retire i).slots[k] = if s.readySlot i = some k then s.slots[k].retired else s.slots[k] := retire_slots i s k

/-- R22: SYNC LOST of a source that was neither DISABLED nor DOWN. -/
theorem syncLost_raises {p : Fin 16} {s : State} (hd : s.sources[p].state ≠ .disabled) (hw : s.sources[p].state ≠ .down) :
    ∃ w : State, s.syncLost p = w.raiseEvent p .down ∧
      SameButMarks w ((s.retire p).withSource p { s.sources[p] with state := .down, stale := none }) := by
  refine ⟨((s.retire p).modSource p fun x => { x with stale := none }).setSourceState p .down, ?_, ?_⟩
  · unfold State.syncLost
    split
    · next h => exact absurd h hd
    · next h => exact absurd h hw
    all_goals rfl
  · have hs : (s.retire p).sources = s.sources := by simp
    rw [modSource_eq, hs]
    exact setSourceState_withSource _ _ _ _

/-- R22: SYNC LOST of a source that was DISABLED or DOWN. -/
theorem syncLost_kept {p : Fin 16} {s : State} (h : s.sources[p].state = .disabled ∨ s.sources[p].state = .down) :
    s.syncLost p = s := by
  unfold State.syncLost
  rcases h with h | h <;> rw [h]

/-- R27, R32: entry to FAILED. -/
theorem failSource_raises (s : State) (i : Fin 16) (x : Source) : ∃ w : State,
    (s.withSource i x).failSource i = w.raiseEvent i .failed ∧
      SameButMarks w (s.withSource i { x with state := .failed, stale := none }) := by
  refine ⟨_, rfl, ?_⟩
  rw [modSource_eq, withSource_get, withSource_withSource]
  exact setSourceState_withSource _ _ _ _

/-! ### The end of start-up (R176) -/

/-- R94: the screens that take their settings from an image. -/
theorem restoreTables_screens (im : Image) (s : State) (c : Fin 24) :
    (s.restoreTables im).screens[c] =
      s.screens[c].startSettings (storedSettings (recordAt 6 (im.body 8) c.val)) := by
  unfold State.restoreTables
  exact (foldl_entries (get := State.screens) (g := State.restoreScreen im)
    (f := fun c x => x.startSettings (storedSettings (recordAt 6 (im.body 8) c.val)))
    (P := fun _ => True) (fun _ _ _ => trivial) (fun t c _ => (setScreen_same c _ t).screens) trivial).2 c

/-- R176 steps 1 and 2, but for the screens and the change marks. -/
theorem restoreTables_rest (im : Image) (s : State) :
    SameButMarks { s.restoreTables im with screens := s.screens } { s with
      library := Vector.ofFn fun i => storedLayout (im.library.getD i.val [])
      scenes := Vector.ofFn fun i => storedScene (im.scenes.getD i.val [])
      rotations := Vector.ofFn fun i => storedRotation (recordAt 17 (im.body 3) i.val)
      cues := Vector.ofFn fun i => storedCue (recordAt 15 (im.body 4) i.val)
      alarms := Vector.ofFn fun i => storedAlarm (recordAt 9 (im.body 5) i.val)
      triggers := Vector.ofFn fun i => storedTrigger (recordAt 7 ((im.body 5).drop 144) i.val)
      palette := paletteOf (im.body 6)
      ramp := storedRamp ((im.body 6).drop 48)
      rateA := storedRate (byteAt (im.body 9) 0).toNat 60
      rateB := storedRate (byteAt (im.body 9) 1).toNat 50
      sources := Vector.ofFn fun i => { s.sources[i] with params := storedParams (recordAt 7 (im.body 7) i.val) }
      ports := Vector.ofFn fun p => { s.ports[p] with grant := storedGrant (im.body 10) p } } := by
  unfold State.restoreTables
  have key : ∀ (l : List (Fin 24)) (v : State), SameButMarks { l.foldl (State.restoreScreen im) v with screens := s.screens }
      { v with screens := s.screens } := by
    intro l
    induction l with
    | nil => exact fun v => SameButMarks.refl _
    | cons c l ih => exact fun v => (ih _).trans ((setScreen_same c _ v).with (fun u => { u with screens := s.screens }) fun _ _ => rfl)
  exact key _ _

/-- R34: one source. -/
theorem startSource_same (s : State) (i : Fin 16) :
    SameButMarks (s.startSource i) (s.withSource i (s.sources[i].started s.ports[i].link)) := by
  unfold State.startSource Source.started
  by_cases h : s.sources[i].params.enable = true
  · rw [h]
    simp only [Bool.not_true, Bool.false_eq_true, if_false, Bool.true_eq_false]
    split
    · exact enterAcquiring_same i s
    · unfold State.withSource
      rw [put_self]
      exact SameButMarks.refl s
  · rw [Bool.not_eq_true] at h
    rw [h]
    simp only [Bool.not_false, if_true]
    exact setSourceState_same i .disabled s

/-- R94: one screen. -/
theorem startScreen_same (s : State) (c : Fin 24) :
    SameButMarks (s.startScreen c) (s.withScreen c (s.screens[c].started s.library)) := by
  have kept : ∀ x : Screen, x = s.screens[c] → SameButMarks s (s.withScreen c x) := fun x h => by
    rw [h, withScreen_self]
    exact SameButMarks.refl s
  unfold State.startScreen
  dsimp only
  by_cases h : s.screens[c].enabled = true
  · rw [h]
    simp only [Bool.not_true, Bool.false_eq_true, if_false]
    cases hs : s.screens[c].start with
    | none => exact kept _ (by unfold Screen.started; rw [hs])
    | some e =>
      dsimp only
      cases hl : s.library[e] with
      | none => exact kept _ (by unfold Screen.started; simp only [hs, hl])
      | some l =>
        dsimp only
        have k : s.screens[c].started s.library = if fits l.windows s.screens[c].width s.screens[c].height = true then
            { s.screens[c] with active := some (contextOf e l), standby := .empty } else s.screens[c] := by
          unfold Screen.started
          simp only [hs, hl, h, true_and]
        rw [k]
        split
        · exact (setScreen_same _ _ _).trans (SameButMarks.of_eq (by simp only [← hs, ← h]))
        · exact kept _ rfl
  · rw [Bool.not_eq_true] at h
    rw [h]
    simp only [Bool.not_false, if_true]
    refine kept _ ?_
    unfold Screen.started
    (repeat' split) <;> simp_all

/-- R34: the sources after start-up. -/
theorem startSources_sources (s : State) (i : Fin 16) :
    ((List.finRange 16).foldl State.startSource s).sources[i] = s.sources[i].started s.ports[i].link := by
  refine (foldl_entries (get := State.sources) (f := fun i x => x.started s.ports[i].link)
    (P := fun t : State => ∀ p : Fin 16, t.ports[p].link = s.ports[p].link) (fun t i ht p => ?_) (fun t i ht => ?_)
    (s := s) fun _ => rfl).2 i
  · rw [(startSource_same t i).port_link]
    exact ht p
  · rw [(startSource_same t i).sources, ht i]
    rfl

/-- R94: the screens after start-up. -/
theorem startScreens_screens (s : State) (c : Fin 24) :
    ((List.finRange 24).foldl State.startScreen s).screens[c] = s.screens[c].started s.library := by
  refine (foldl_entries (get := State.screens) (f := fun _ x => x.started s.library)
    (P := fun t : State => t.library = s.library) (fun t c ht => ?_) (fun t c ht => ?_) (s := s) rfl).2 c
  · rw [(startScreen_same t c).library]
    exact ht
  · rw [(startScreen_same t c).screens, ht]
    rfl

/-- R34, R94: the ports after start-up's sources and screens, the marks left out. -/
theorem startFolds_bare (s : State) :
    ((List.finRange 24).foldl State.startScreen ((List.finRange 16).foldl State.startSource s)).unmarked.ports =
      s.unmarked.ports := by
  rw [foldl_bare _ fun s c => (startScreen_same s c).bare, foldl_bare _ fun s i => (startSource_same s i).bare]

end Sys2Proof.Machine
end

