-- ==== Sys2Proof/Laws/Restored.lean ====
section
/-! SUPPORT. The image of a snapshot read back as a whole: its content can be cut at its places, and the tables taken from it
are those of the snapshot (R172, R175, R176). -/

namespace Sys2Proof.Machine

/-! ### Records with a size of their own (sections 1 and 2) -/

/-- Records that spell their own sizes are cut as they were joined. -/
theorem splitRecords_flatMap {α : Type} {f : α → List Byte} {head : Nat} {size : List Byte → Nat} (l : List α)
    (hh : ∀ x ∈ l, head ≤ (f x).length) (hs : ∀ x ∈ l, ∀ rest, size (f x ++ rest) = (f x).length) :
    splitRecords head size l.length (l.flatMap f) = some (l.map f) := by
  induction l with
  | nil => rfl
  | cons a t ih =>
    have h1 := hh a List.mem_cons_self
    have h2 := hs a List.mem_cons_self (t.flatMap f)
    rw [List.length_cons, List.flatMap_cons, splitRecords, h2, if_neg, List.drop_left, List.take_left,
      ih (fun x hx => hh x (List.mem_cons_of_mem _ hx)) fun x hx => hs x (List.mem_cons_of_mem _ hx)]
    · rfl
    · rw [List.length_append]
      omega

/-- The lengths of joined records, in bounds. -/
theorem flatMap_length_le {α : Type} {f : α → List Byte} {bound : Nat} (l : List α) (h : ∀ x ∈ l, (f x).length ≤ bound) :
    (l.flatMap f).length ≤ bound * l.length := by
  induction l with
  | nil => simp
  | cons a t ih =>
    have h1 := h a List.mem_cons_self
    have h2 := ih fun x hx => h x (List.mem_cons_of_mem _ hx)
    rw [List.flatMap_cons, List.length_append, List.length_cons, Nat.mul_succ]
    omega

/-- An entry of section 1 spells its size. -/
theorem entryImage_size {x : Option Layout} (h : ∀ l, x = some l → l.Checked) :
    2 ≤ (entryImage x).length ∧ (entryImage x).length ≤ 103 ∧
      ∀ rest, 2 + beNat ((entryImage x ++ rest).take 2) = (entryImage x).length := by
  cases x with
  | none => exact ⟨by decide, by decide, fun rest => rfl⟩
  | some l =>
    have k := imageBytes_size (h l rfl)
    have e : entryImage (some l) = byte2 l.imageBytes.length ++ l.imageBytes := rfl
    rw [e, List.length_append, byte2_length]
    refine ⟨by omega, by omega, fun rest => ?_⟩
    rw [List.append_assoc, List.take_left' (byte2_length _), beNat_byte2 (by omega)]

/-- An entry of section 2 spells its size. -/
theorem sceneImage_size {x : Option Scene} (h : ∀ y, x = some y → y.length ≤ 24) :
    1 ≤ (sceneImage x).length ∧ (sceneImage x).length ≤ 49 ∧
      ∀ rest, 1 + 2 * (byteAt (sceneImage x ++ rest) 0).toNat = (sceneImage x).length := by
  cases x with
  | none => exact ⟨by decide, by decide, fun rest => rfl⟩
  | some y =>
    have k := h y rfl
    have e : sceneImage (some y) = BitVec.ofNat 8 y.length :: y.flatMap fun m => byte1 m.1.val ++ byte1 m.2.val := by
      show sceneBytes y = _
      unfold sceneBytes
      rw [byte1_eq]
      rfl
    have n : (y.flatMap fun m => byte1 m.1.val ++ byte1 m.2.val).length = 2 * y.length :=
      flatMap_length (fun _ => by simp) _
    rw [e, List.length_cons, n]
    refine ⟨by omega, by omega, fun rest => ?_⟩
    show 1 + 2 * (BitVec.ofNat 8 y.length).toNat = _
    rw [byteOf_toNat (by omega)]
    omega

/-! ### The content (R172, 12 section 12.5) -/

/-- The lengths of sections 3 to 10. -/
theorem sectionBodies_lengths (s : State) : ((sectionBodies s).drop 2).map (·.length) = fixedLengths := by
  simp [sectionBodies, fixedLengths, flatMap_length Rotation.image_length, flatMap_length CueEntry.bytes_length,
    flatMap_length Alarm.settingBytes_length, flatMap_length Trigger.settingBytes_length,
    flatMap_length Colour.bytes_length, flatMap_length byte1_length, flatMap_length Screen.settingsBytes_length, grantBytes,
    flatMap_length (f := fun x : Source => x.params.bytes) fun x => x.params.bytes_length,
    flatMap_length (f := fun p : Port => byte1 p.grant.num) fun _ => byte1_length _, -List.length_flatMap]

/-- The image of a snapshot's sections 1 and 2. -/
def imageOf (s : State) : Image :=
  ⟨s.library.toList.map entryImage, s.scenes.toList.map sceneImage, sectionBodies s⟩

/-- Every entry of a table has what every index has. -/
theorem forall_toList {α : Type} {n : Nat} {t : Vector α n} {P : α → Prop} (h : ∀ i : Fin n, P t[i]) : ∀ x ∈ t.toList, P x := by
  intro x hx
  obtain ⟨i, hi, rfl⟩ := List.getElem_of_mem hx
  simpa using h ⟨i, by simpa using hi⟩

/-- Joined sections in bounds. -/
theorem joinSections_length (k : Nat) (bodies : List (List Byte)) :
    (joinSections k bodies).length = 6 * bodies.length + (bodies.map (·.length)).sum := by
  induction bodies generalizing k with
  | nil => rfl
  | cons b t ih =>
    rw [joinSections, List.length_append, ih, sectionBytes]
    simp
    omega

variable {s : State}

/-- The content of a snapshot lies within the image area, and is cut at its places as it was written. -/
theorem parse_imageContent (h : s.TablesLaw) :
    16 + (imageContent s).length ≤ 262144 ∧ parseContent (imageContent s) = some (imageOf s) := by
  obtain ⟨h1, h2, -⟩ := h
  have e1 := forall_toList (t := s.library) (P := fun x => ∀ l, x = some l → l.Checked) h1
  have e2 := forall_toList (t := s.scenes) (P := fun x => ∀ y, x = some y → y.length ≤ 24) fun i y k => (h2 i y k).2.1
  have n1 : (s.library.toList.flatMap entryImage).length ≤ 103 * 128 := by
    simpa using flatMap_length_le s.library.toList fun x hx => (entryImage_size (e1 x hx)).2.1
  have n2 : (s.scenes.toList.flatMap sceneImage).length ≤ 49 * 32 := by
    simpa using flatMap_length_le s.scenes.toList fun x hx => (sceneImage_size (e2 x hx)).2.1
  have fixed := sectionBodies_lengths s
  have len : ((sectionBodies s).map (·.length)).sum ≤ 103 * 128 + 49 * 32 + 16090 := by
    have e : sectionBodies s = s.library.toList.flatMap entryImage :: s.scenes.toList.flatMap sceneImage ::
      (sectionBodies s).drop 2 := rfl
    rw [e, List.map_cons, List.map_cons, List.sum_cons, List.sum_cons, fixed, show fixedLengths.sum = 16090 from rfl]
    omega
  have total : (imageContent s).length ≤ 60 + (103 * 128 + 49 * 32 + 16090) := by
    unfold imageContent
    rw [joinSections_length, show (sectionBodies s).length = 10 from rfl]
    omega
  refine ⟨by omega, ?_⟩
  have sections : splitSections 10 1 (imageContent s) = some (sectionBodies s) :=
    splitSections_joinSections (sectionBodies s) 1 (fun b hb => by
      have := List.single_le_sum (l := (sectionBodies s).map (·.length)) (fun _ _ => Nat.zero_le _) b.length
        (List.mem_map_of_mem hb)
      omega) (by rw [show (sectionBodies s).length = 10 from rfl]; decide)
  unfold parseContent
  rw [sections]
  dsimp only
  rw [if_pos fixed]
  have r1 : libraryRecords ((sectionBodies s).getD 0 []) = some (s.library.toList.map entryImage) := by
    have k := splitRecords_flatMap (f := entryImage) (head := 2) (size := fun bs => 2 + beNat (bs.take 2)) s.library.toList
      (fun x hx => (entryImage_size (e1 x hx)).1) fun x hx => (entryImage_size (e1 x hx)).2.2
    rw [Vector.length_toList] at k
    exact k
  have r2 : sceneRecords ((sectionBodies s).getD 1 []) = some (s.scenes.toList.map sceneImage) := by
    have k := splitRecords_flatMap (f := sceneImage) (head := 1) (size := fun bs => 1 + 2 * (byteAt bs 0).toNat)
      s.scenes.toList (fun x hx => (sceneImage_size (e2 x hx)).1) fun x hx => (sceneImage_size (e2 x hx)).2.2
    rw [Vector.length_toList] at k
    exact k
  rw [r1, r2]
  rfl

/-! ### The tables (R176 steps 1 and 2) -/

/-- An entry of a table's images. -/
theorem getD_table {α : Type} {n : Nat} (f : α → List Byte) (t : Vector α n) (i : Fin n) :
    (t.toList.map f).getD i.val [] = f t[i] := by
  rw [List.getD_eq_getElem?_getD, List.getElem?_map, List.getElem?_eq_getElem (by simp)]
  simp

/-- A screen that takes the settings it is given. -/
theorem startSettings_settings (x y : Screen) : x.startSettings y.settings = { x with
    enabled := y.enabled
    cadence := y.cadence
    width := y.width
    height := y.height
    start := y.start
    ticksDue := if y.enabled = true ∧ y.cadence = x.cadence then x.ticksDue else 0
    output := if y.enabled = true then x.output else none } := rfl

/-- The tables taken from the image of a snapshot are those of the snapshot. -/
theorem restoreTables_imageOf (h : s.TablesLaw) (hg : s.GrantLaw) (v : State) :
    SameButMarks (v.restoreTables (imageOf s)) (v.withTablesOf s) := by
  obtain ⟨h1, h2, h3, h4, h5, h6, h7, h8, h9, h10, h11⟩ := h
  have b3 : (imageOf s).body 3 = s.rotations.toList.flatMap Rotation.image ++ [] := (List.append_nil _).symm
  have b4 : (imageOf s).body 4 = s.cues.toList.flatMap CueEntry.bytes ++ [] := (List.append_nil _).symm
  have b5 : (imageOf s).body 5 = s.alarms.toList.flatMap Alarm.settingBytes ++ s.triggers.toList.flatMap Trigger.settingBytes :=
    rfl
  have b6 : (imageOf s).body 6 = s.palette.toList.flatMap Colour.bytes ++ s.ramp.toList.flatMap byte1 := rfl
  have b7 : (imageOf s).body 7 = (s.sources.toList.flatMap fun x => x.params.bytes) ++ [] := (List.append_nil _).symm
  have b8 : (imageOf s).body 8 = s.screens.toList.flatMap Screen.settingsBytes ++ [] := (List.append_nil _).symm
  have b9 : (imageOf s).body 9 = byte1 s.rateA ++ byte1 s.rateB := rfl
  have b10 : (imageOf s).body 10 = grantBytes s := rfl
  have d5 : ((imageOf s).body 5).drop 144 = s.triggers.toList.flatMap Trigger.settingBytes ++ [] := by
    rw [b5, List.drop_left' (by rw [flatMap_length Alarm.settingBytes_length]; simp), List.append_nil]
  have d6 : ((imageOf s).body 6).drop 48 = s.ramp.toList.flatMap byte1 := by
    rw [b6, List.drop_left' (by rw [flatMap_length Colour.bytes_length]; simp)]
  have rates : ∀ n ∈ [24, 25, 30, 50, 60], n < 256 := by decide
  have screens : (v.restoreTables (imageOf s)).screens = (v.withTablesOf s).screens := table_ext fun c => by
    rw [restoreTables_screens, b8, recordAt_table Screen.settingsBytes_length, storedSettings_bytes (h11 c),
      startSettings_settings]
    unfold State.withTablesOf
    rw [ofFn_get]
  have rest := restoreTables_rest (imageOf s) v
  generalize v.restoreTables (imageOf s) = w at screens rest
  have e := rest.with (fun u => { u with screens := w.screens }) fun _ _ => rfl
  refine SameButMarks.trans e (SameButMarks.of_eq ?_)
  rw [screens]
  unfold State.withTablesOf
  simp only [State.mk.injEq, true_and, and_true]
  refine ⟨?_, ?_, ?_, ?_, ?_, ?_, ?_, ?_, ?_, ?_, ?_, ?_⟩
  · exact table_ext fun p => by rw [ofFn_get, ofFn_get, b10, storedGrant_bytes hg]
  · exact table_ext fun i => by
      rw [ofFn_get, ofFn_get, b7, recordAt_table fun x : Source => x.params.bytes_length, storedParams_bytes (h10 i)]
  · exact table_ext fun i => by rw [ofFn_get]; exact (congrArg storedLayout (getD_table _ _ i)).trans (storedLayout_image (h1 i))
  · rw [b9, byte1_eq]
    show storedRate (BitVec.ofNat 8 s.rateA).toNat 60 = s.rateA
    rw [byteOf_toNat (rates _ h8), storedRate_of h8]
  · rw [b9, byte1_eq, byte1_eq]
    show storedRate (BitVec.ofNat 8 s.rateB).toNat 50 = s.rateB
    rw [byteOf_toNat (rates _ h9), storedRate_of h9]
  · rw [b6, paletteOf_bytes]
  · rw [d6, storedRamp_bytes h7]
  · exact table_ext fun i => by
      rw [ofFn_get, mapTable_get, b3, recordAt_table Rotation.image_length, storedRotation_image (h3 i).1 (h3 i).2]
  · exact table_ext fun i => by rw [ofFn_get]; exact (congrArg storedScene (getD_table _ _ i)).trans (storedScene_image (h2 i))
  · exact table_ext fun i => by rw [ofFn_get, b4, recordAt_table CueEntry.bytes_length, storedCue_bytes (h4 i)]
  · exact table_ext fun i => by
      rw [ofFn_get, mapTable_get, b5, recordAt_table Alarm.settingBytes_length,
        storedAlarm_bytes (h5 i).1 (h5 i).2.1 (h5 i).2.2]
  · exact table_ext fun i => by
      rw [ofFn_get, mapTable_get, d5, recordAt_table Trigger.settingBytes_length, storedTrigger_bytes (h6 i)]

/-! ### The settling of start-up (R176 steps 3 to 6) -/

/-- What the sources and screens of start-up leave, but for the change marks. -/
theorem startFolds_rest (s : State) :
    SameButMarks { (List.finRange 24).foldl State.startScreen ((List.finRange 16).foldl State.startSource s) with
      sources := s.sources, screens := s.screens } s := by
  have sources : ∀ (l : List (Fin 16)) (v : State),
      SameButMarks { l.foldl State.startSource v with sources := s.sources } { v with sources := s.sources } := by
    intro l
    induction l with
    | nil => exact fun v => SameButMarks.refl _
    | cons i l ih =>
      exact fun v => (ih _).trans ((startSource_same v i).with (fun u => { u with sources := s.sources }) fun _ _ => rfl)
  have screens : ∀ (l : List (Fin 24)) (v : State),
      SameButMarks { l.foldl State.startScreen v with screens := s.screens } { v with screens := s.screens } := by
    intro l
    induction l with
    | nil => exact fun v => SameButMarks.refl _
    | cons c l ih =>
      exact fun v => (ih _).trans ((startScreen_same v c).with (fun u => { u with screens := s.screens }) fun _ _ => rfl)
  have a (w : State) : SameButMarks { (List.finRange 24).foldl State.startScreen w with sources := s.sources, screens := s.screens }
      { w with sources := s.sources, screens := s.screens } := by
    have x := screens (List.finRange 24) w
    generalize (List.finRange 24).foldl State.startScreen w = z at x ⊢
    exact x.with (fun u => { u with sources := s.sources }) fun _ _ => rfl
  have b : SameButMarks { (List.finRange 16).foldl State.startSource s with sources := s.sources, screens := s.screens } s := by
    have x := sources (List.finRange 16) s
    generalize (List.finRange 16).foldl State.startSource s = z at x ⊢
    exact x.with (fun u => { u with screens := s.screens }) fun _ _ => rfl
  exact (a _).trans b

/-- The attention condition on a port, the marks left out (R164). -/
theorem attention_unmarked {x y : Port} (h : x.unmarked = y.unmarked) (c : Option Condition) :
    { x with attention := true, condition := c }.unmarked = { y with attention := true, condition := c }.unmarked :=
  congrArg (fun z : Port => { z with attention := true, condition := c }) h

/-- R176 steps 3 to 6, in the words of the statements. -/
theorem settleStart_settled (code : Code) (s : State) : StartUpSettled code s (s.settleStart code) := by
  have bare := startFolds_bare s
  have rest := startFolds_rest s
  have screens := startScreens_screens ((List.finRange 16).foldl State.startSource s)
  have sources := startSources_sources s
  have l : ((List.finRange 16).foldl State.startSource s).library = s.library :=
    foldl_keeps State.library _ (fun t i => (startSource_same t i).library) _ _
  have c : ((List.finRange 16).foldl State.startSource s).screens = s.screens :=
    foldl_keeps State.screens _ (fun t i => (startSource_same t i).screens) _ _
  have k : ((List.finRange 24).foldl State.startScreen ((List.finRange 16).foldl State.startSource s)).sources =
      ((List.finRange 16).foldl State.startSource s).sources :=
    foldl_keeps State.sources _ (fun t c => (startScreen_same t c).sources) _ _
  rw [l, c] at screens
  rw [← k] at sources
  unfold State.settleStart
  dsimp only
  generalize (List.finRange 24).foldl State.startScreen ((List.finRange 16).foldl State.startSource s) = w at *
  refine ⟨fun p => ?_, sources, screens, ?_⟩
  · have e : w.ports[p].unmarked = s.ports[p].unmarked := by
      have := congrArg (fun v : Vector Port 16 => v[p]) bare
      simpa only [State.unmarked, mapTable_get] using this
    have m : (w.raiseAttention code 0).ports[p] = { w.ports[p] with attention := true, condition := some ⟨code, 0, 0⟩ } := by
      unfold State.raiseAttention
      rw [State.modPorts_ports, mapTable_get]
    show (w.raiseAttention code 0).ports[p].unmarked = _
    rw [m]
    exact attention_unmarked e _
  · exact congrArg (fun u : State => { u with store := { u.store with state := .idle } }) (sameButMarks_iff.1 rest).2

/-- The settling is read from the part but for its change marks. -/
theorem StartUpSettled.congr {code : Code} {s u t : State} (h : SameButMarks s u) (k : StartUpSettled code s t) :
    StartUpSettled code u t := by
  have e := (sameButMarks_iff.1 h).2
  have hp := h.port
  obtain ⟨ps, rfl⟩ : ∃ ps, u = { s with ports := ps } := ⟨u.ports, e.symm⟩
  obtain ⟨a, b, c, d⟩ := k
  refine ⟨fun p => (a p).trans (attention_unmarked (hp p) _), fun i => ?_, c, congrArg (fun w : State => { w with ports := ps }) d⟩
  rw [b, h.port_link]

end Sys2Proof.Machine
end

