-- ==== Sys2Proof/Laws/Starts.lean ====
section
/-! SUPPORT. What a table of alarms or triggers comes to when its entries are met in ascending order (R151, R153): which
entries act, which runners they start, and what is left as it was. -/

namespace Sys2Proof.Machine

/-! ### Entries met in ascending order -/

/-- A runner that can be started (R143). -/
def Runner.startable (x : Runner) : Bool := x.state = .idle || x.state = .faulted

/-- Whether a runner can be started is read from its record. -/
theorem canStart_eq (s : State) (r : Fin 4) : s.canStart r = s.runners[r].startable := rfl

/-- Whether a runner can be started, in words. -/
theorem startable_iff {x : Runner} : x.startable = true ↔ x.state = .idle ∨ x.state = .faulted := by
  unfold Runner.startable
  rw [Bool.or_eq_true, decide_eq_true_iff, decide_eq_true_iff]

/-- A runner that cannot be started, in words. -/
theorem not_startable_iff {x : Runner} : x.startable = false ↔ ¬ (x.state = .idle ∨ x.state = .faulted) := by
  rw [← startable_iff, Bool.not_eq_true]

/-- What the entries of a table do that are met one after another: an entry that acts starts its runner or records that the
runner is active. -/
structure Starts {α : Type} (get : State → Vector α 16) (g : State → Fin 16 → State) (P : State → Prop) (acts : α → Bool)
    (who : α → Fin 4) (start : Fin 16 → α → Runner) (begun busy : α → α) : Prop where
  running : ∀ n x, (start n x).state = .running
  keeps : ∀ s n, P s → P (g s n)
  idle : ∀ (s : State) (n : Fin 16), P s → acts (get s)[n] = false → g s n = s
  begins : ∀ s n, P s → acts (get s)[n] = true → s.canStart (who (get s)[n]) = true →
    get (g s n) = put (get s) n (begun (get s)[n]) ∧ (g s n).runners = put s.runners (who (get s)[n]) (start n (get s)[n])
  waits : ∀ s n, P s → acts (get s)[n] = true → s.canStart (who (get s)[n]) = false →
    get (g s n) = put (get s) n (busy (get s)[n]) ∧ (g s n).runners = s.runners

variable {α : Type} {get : State → Vector α 16} {g : State → Fin 16 → State} {P : State → Prop} {acts : α → Bool}
  {who : α → Fin 4} {start : Fin 16 → α → Runner} {begun busy : α → α}

/-- What the part t is after the entries of a list have been met, from a part with the given table and runners. -/
structure Met (get : State → Vector α 16) (acts : α → Bool) (who : α → Fin 4) (start : Fin 16 → α → Runner)
    (begun busy : α → α) (table : Vector α 16) (runners : Vector Runner 4) (t : State) (l : List (Fin 16)) : Prop where
  later : ∀ n, n ∉ l → (get t)[n] = table[n]
  idle : ∀ n : Fin 16, acts table[n] = false → (get t)[n] = table[n]
  begins : ∀ n ∈ l, acts table[n] = true → runners[who table[n]].startable = true →
    (∀ m ∈ l, m < n → acts table[m] = true → who table[m] ≠ who table[n]) →
    (get t)[n] = begun table[n] ∧ t.runners[who table[n]] = start n table[n]
  waits : ∀ n ∈ l, acts table[n] = true →
    runners[who table[n]].startable = false ∨ (∃ m ∈ l, m < n ∧ acts table[m] = true ∧ who table[m] = who table[n]) →
    (get t)[n] = busy table[n]
  active : ∀ r, (∃ n ∈ l, acts table[n] = true ∧ who table[n] = r) → t.runners[r].startable = false
  others : ∀ r, (∀ n ∈ l, acts table[n] = true → who table[n] ≠ r) ∨ runners[r].startable = false →
    t.runners[r] = runners[r]

/-- The entries of an ascending list, met in its order. -/
theorem Starts.met (h : Starts get g P acts who start begun busy) {s : State} (hs : P s) (l : List (Fin 16))
    (hl : l.Pairwise (· < ·)) : P (l.foldl g s) ∧ Met get acts who start begun busy (get s) s.runners (l.foldl g s) l := by
  induction l using List.reverseRecOn with
  | nil => exact ⟨hs, by constructor <;> simp⟩
  | append_singleton l a ih =>
    obtain ⟨hl, -, hb⟩ := List.pairwise_append.1 hl
    replace hb : ∀ m ∈ l, m < a := fun m hm => hb m hm a List.mem_cons_self
    obtain ⟨hp, ih⟩ := ih hl
    rw [List.foldl_append, List.foldl_cons, List.foldl_nil]
    generalize l.foldl g s = t at hp ih
    refine ⟨h.keeps _ _ hp, ?_⟩
    have ha : a ∉ l := fun k => lt_irrefl _ (hb a k)
    have ea : (get t)[a] = (get s)[a] := ih.later a ha
    have above : ∀ {n : Fin 16}, n ∈ l → ¬ a = n := fun hn e => ha (e ▸ hn)
    have mem : ∀ {n : Fin 16}, n ∈ l ++ [a] → n ∈ l ∨ n = a := fun k => by simpa using k
    have low : ∀ {n m : Fin 16}, n ∈ l → m ∈ l ++ [a] → m < n → m ∈ l := fun hn hm hlt =>
      (mem hm).resolve_right fun e => lt_asymm hlt (e ▸ hb _ hn)
    have some_active : s.runners[who (get s)[a]].startable = false ∨
        (∃ m ∈ l, acts (get s)[m] = true ∧ who (get s)[m] = who (get s)[a]) → t.runners[who (get s)[a]].startable = false := by
      rintro (k | ⟨m, hm, k⟩)
      · rw [ih.others _ (Or.inr k), k]
      · exact ih.active _ ⟨m, hm, k⟩
    cases hx : acts (get s)[a]
    · rw [h.idle t a hp (by rw [ea, hx])]
      exact {
        later := fun n hn => ih.later n fun k => hn (List.mem_append_left _ k)
        idle := ih.idle
        begins := fun n hn hxn hc hlow => by
          rcases mem hn with hn | rfl
          · exact ih.begins n hn hxn hc fun m hm => hlow m (List.mem_append_left _ hm)
          · rw [hx] at hxn
            cases hxn
        waits := fun n hn hxn hw => by
          rcases mem hn with hn | rfl
          · refine ih.waits n hn hxn (hw.imp_right ?_)
            rintro ⟨m, hm, hlt, k⟩
            exact ⟨m, low hn hm hlt, hlt, k⟩
          · rw [hx] at hxn
            cases hxn
        active := by
          rintro r ⟨n, hn, hxn, rfl⟩
          rcases mem hn with hn | rfl
          · exact ih.active _ ⟨n, hn, hxn, rfl⟩
          · rw [hx] at hxn
            cases hxn
        others := fun r hr => ih.others r (hr.imp_left fun k n hn => k n (List.mem_append_left _ hn)) }
    · cases hc : t.runners[who (get s)[a]].startable
      · obtain ⟨e1, e2⟩ := h.waits t a hp (by rw [ea, hx]) (by rw [canStart_eq, ea, hc])
        rw [ea] at e1
        exact {
          later := fun n hn => by
            rw [e1, put_get, if_neg fun e => hn (by simp [e])]
            exact ih.later n fun k => hn (List.mem_append_left _ k)
          idle := fun n hn => by
            rw [e1, put_get, if_neg]
            · exact ih.idle n hn
            · rintro rfl
              rw [hx] at hn
              cases hn
          begins := fun n hn hxn hcn hlow => by
            rcases mem hn with hn | rfl
            · rw [e1, e2, put_get, if_neg (above hn)]
              exact ih.begins n hn hxn hcn fun m hm => hlow m (List.mem_append_left _ hm)
            · have k := ih.others (who (get s)[n]) (Or.inl fun m hm hxm => hlow m (List.mem_append_left _ hm) (hb m hm) hxm)
              rw [k, hcn] at hc
              cases hc
          waits := fun n hn hxn hw => by
            rw [e1, put_get]
            rcases mem hn with hn | rfl
            · rw [if_neg (above hn)]
              refine ih.waits n hn hxn (hw.imp_right ?_)
              rintro ⟨m, hm, hlt, k⟩
              exact ⟨m, low hn hm hlt, hlt, k⟩
            · rw [if_pos rfl]
          active := by
            rintro r ⟨n, hn, hxn, rfl⟩
            rw [e2]
            rcases mem hn with hn | rfl
            · exact ih.active _ ⟨n, hn, hxn, rfl⟩
            · exact hc
          others := fun r hr => by
            rw [e2]
            exact ih.others r (hr.imp_left fun k n hn => k n (List.mem_append_left _ hn)) }
      · obtain ⟨e1, e2⟩ := h.begins t a hp (by rw [ea, hx]) (by rw [canStart_eq, ea, hc])
        rw [ea] at e1 e2
        have fresh : s.runners[who (get s)[a]].startable = true ∧
            ∀ m ∈ l, acts (get s)[m] = true → who (get s)[m] ≠ who (get s)[a] := by
          constructor
          · by_contra k
            rw [Bool.not_eq_true] at k
            rw [some_active (Or.inl k)] at hc
            cases hc
          · intro m hm hxm k
            rw [some_active (Or.inr ⟨m, hm, hxm, k⟩)] at hc
            cases hc
        exact {
          later := fun n hn => by
            rw [e1, put_get, if_neg fun e => hn (by simp [e])]
            exact ih.later n fun k => hn (List.mem_append_left _ k)
          idle := fun n hn => by
            rw [e1, put_get, if_neg]
            · exact ih.idle n hn
            · rintro rfl
              rw [hx] at hn
              cases hn
          begins := fun n hn hxn hcn hlow => by
            rw [e1, e2]
            rcases mem hn with hn | rfl
            · rw [put_get, if_neg (above hn), put_other _ _ fun e => fresh.2 n hn hxn e.symm]
              exact ih.begins n hn hxn hcn fun m hm => hlow m (List.mem_append_left _ hm)
            · rw [put_same, put_same]
              exact ⟨rfl, rfl⟩
          waits := fun n hn hxn hw => by
            rw [e1, put_get]
            rcases mem hn with hn | rfl
            · rw [if_neg (above hn)]
              refine ih.waits n hn hxn (hw.imp_right ?_)
              rintro ⟨m, hm, hlt, k⟩
              exact ⟨m, low hn hm hlt, hlt, k⟩
            · rcases hw with k | ⟨m, hm, hlt, hxm, k⟩
              · rw [fresh.1] at k
                cases k
              · exact absurd k (fresh.2 m ((mem hm).resolve_right (ne_of_lt hlt)) hxm)
          active := by
            rintro r ⟨n, hn, hxn, rfl⟩
            rcases mem hn with hn | rfl
            · rw [e2, put_other _ _ fun e => fresh.2 n hn hxn e.symm]
              exact ih.active _ ⟨n, hn, hxn, rfl⟩
            · rw [e2, put_same, not_startable_iff, h.running]
              simp
          others := fun r hr => by
            have ne : who (get s)[a] ≠ r := by
              rintro rfl
              rcases hr with k | k
              · exact k a (by simp) hx rfl
              · rw [fresh.1] at k
                cases k
            rw [e2, put_other _ _ ne]
            exact ih.others r (hr.imp_left fun k n hn => k n (List.mem_append_left _ hn)) }

/-- All sixteen entries, met in ascending order. -/
theorem Starts.all (h : Starts get g P acts who start begun busy) {s : State} (hs : P s) :
    P ((List.finRange 16).foldl g s) ∧ Met get acts who start begun busy (get s) s.runners ((List.finRange 16).foldl g s) (List.finRange 16) :=
  h.met hs _ (List.pairwise_lt_finRange 16)

/-! ### Triggers (R153) and alarms (R151) -/

/-- A source event meets the sixteen triggers. -/
theorem triggers_start (i : Fin 16) (event : SourceEvent) (s : State) :
    Starts State.triggers (State.triggerMeets i event)
      (fun t => SameButMarks { t with triggers := s.triggers, runners := s.runners } s)
      (fun x => decide (x.enabled = true ∧ x.source = i ∧ x.event = event)) Trigger.runner
      (fun n x => Runner.startedAt x.address (.trigger n))
      (fun x => { x with outcome := .started, lastActed := some s.time.seconds, enabled := !x.once })
      (fun x => { x with outcome := .runnerActive, lastActed := some s.time.seconds }) where
  running _ _ := rfl
  keeps t n ht := by
    unfold State.triggerMeets
    dsimp only
    split
    · split
      · exact ((startRunner_same _ _ _ t).with (fun u => { u with triggers := s.triggers, runners := s.runners })
          fun _ _ => rfl).trans ht
      · exact ht
    · exact ht
  idle t n _ hx := by
    unfold State.triggerMeets
    exact if_neg (of_decide_eq_false hx)
  begins t n ht hx hc := by
    have e : s.time = t.time := ht.time.symm
    unfold State.triggerMeets
    dsimp only
    rw [if_pos (of_decide_eq_true hx), if_pos hc]
    constructor
    · show put _ n _ = _
      rw [(startRunner_same _ _ _ t).triggers, e]
      rfl
    · exact (startRunner_same _ _ _ t).runners
  waits t n ht hx hc := by
    have e : s.time = t.time := ht.time.symm
    unfold State.triggerMeets
    dsimp only
    rw [if_pos (of_decide_eq_true hx), if_neg (by rw [hc]; decide), e]
    exact ⟨rfl, rfl⟩

/-- A second tick meets the sixteen alarms. -/
theorem alarms_start (s : State) :
    Starts State.alarms State.alarmMeets (fun t => SameButMarks { t with alarms := s.alarms, runners := s.runners } s)
      (fun x => x.matches s.time) Alarm.runner (fun n x => Runner.startedAt x.address (.alarm n))
      (fun x => { x with outcome := .started, lastActed := some s.time.seconds })
      (fun x => { x with outcome := .runnerActive, lastActed := some s.time.seconds }) where
  running _ _ := rfl
  keeps t n ht := by
    unfold State.alarmMeets
    dsimp only
    split
    · split
      · exact ((startRunner_same _ _ _ t).with (fun u => { u with alarms := s.alarms, runners := s.runners })
          fun _ _ => rfl).trans ht
      · exact ht
    · exact ht
  idle t n ht hx := by
    have e : s.time = t.time := ht.time.symm
    unfold State.alarmMeets
    rw [e] at hx
    exact if_neg (by rw [hx]; decide)
  begins t n ht hx hc := by
    have e : s.time = t.time := ht.time.symm
    rw [e] at hx ⊢
    unfold State.alarmMeets
    dsimp only
    rw [if_pos hx, if_pos hc]
    constructor
    · show put _ n _ = _
      rw [(startRunner_same _ _ _ t).alarms]
      rfl
    · exact (startRunner_same _ _ _ t).runners
  waits t n ht hx hc := by
    have e : s.time = t.time := ht.time.symm
    rw [e] at hx ⊢
    unfold State.alarmMeets
    dsimp only
    rw [if_pos hx, if_neg (by rw [hc]; decide)]
    exact ⟨rfl, rfl⟩

/-! ### The runners that wait for a second (R134) -/

/-- A runner as the comparison with the seconds of day leaves it. -/
def Runner.timeSeen (seconds : Nat) (x : Runner) : Runner :=
  match x.state with
  | .waiting (.time target) => if target = seconds then x.resumed else x
  | _ => x

/-- A runner that waits for no time is left as it was. -/
theorem timeSeen_other {seconds : Nat} {x : Runner} (h : ∀ target, x.state ≠ .waiting (.time target)) :
    x.timeSeen seconds = x := by
  unfold Runner.timeSeen
  split
  · next target k => exact absurd k (h target)
  · rfl

/-- R134: the four runners compare the new seconds of day with their targets. -/
theorem timesMeet_same (s : State) :
    SameButMarks { (List.finRange 4).foldl State.timeMeets s with runners := s.runners } s ∧
      ∀ r : Fin 4, ((List.finRange 4).foldl State.timeMeets s).runners[r] = s.runners[r].timeSeen s.time.seconds := by
  refine foldl_entries (get := State.runners) (f := fun _ => Runner.timeSeen s.time.seconds)
    (P := fun t => SameButMarks { t with runners := s.runners } s) (fun t r ht => ?_) (fun t r ht => ?_) (SameButMarks.refl s)
  · unfold State.timeMeets
    split
    · split
      · exact ((endWait_same r t).with (fun u => { u with runners := s.runners }) fun _ _ => rfl).trans ht
      · exact ht
    · exact ht
  · have e : t.time = s.time := ht.time
    unfold State.timeMeets
    split
    · next target h =>
      unfold Runner.timeSeen
      rw [h, e]
      dsimp only
      split
      · rw [(endWait_same r t).runners]
        rfl
      · rw [put_self]
    · next h => rw [timeSeen_other h, put_self]

/-- R134, R148, R151: at a second tick of a valid time base the alarms are met with the new time, the runners having compared
their targets. -/
theorem secondTick_met {s : State} (h : s.time.valid = true) :
    Met State.alarms (fun x => x.matches s.time.advance) Alarm.runner (fun n x => Runner.startedAt x.address (.alarm n))
      (fun x => { x with outcome := .started, lastActed := some s.time.advance.seconds })
      (fun x => { x with outcome := .runnerActive, lastActed := some s.time.advance.seconds })
      s.alarms (mapTable (Runner.timeSeen s.time.advance.seconds) s.runners) s.secondTick (List.finRange 16) := by
  unfold State.secondTick State.matchAlarms
  dsimp only
  obtain ⟨e1, e2⟩ := timesMeet_same { s with time := s.time.advance }.moveDrops
  generalize (List.finRange 4).foldl State.timeMeets { s with time := s.time.advance }.moveDrops = u at e1 e2
  have et : u.time = s.time.advance := e1.time
  have ea : u.alarms = s.alarms := e1.alarms
  have er : u.runners = mapTable (Runner.timeSeen s.time.advance.seconds) s.runners :=
    table_ext fun r => by rw [e2, mapTable_get]; rfl
  have m := ((alarms_start u).all (SameButMarks.refl u)).2
  rw [et, ea, er] at m
  rw [if_pos]
  · exact m
  · rw [et]
    unfold TimeBase.advance
    split <;> exact h

/-- A runner that compares its target can be started exactly where it could be before. -/
theorem timeSeen_startable (seconds : Nat) (x : Runner) : (x.timeSeen seconds).startable = x.startable := by
  unfold Runner.timeSeen
  split
  · next target h =>
    unfold Runner.startable
    rw [h]
    split
    · rfl
    · rw [h]
  · rfl

end Sys2Proof.Machine
end

