-- ==== Sys2Proof/Laws/Stored.lean ====
section
/-! SUPPORT. What the stored tables hold, as TablesLaw reads it: each operation that writes none of it leaves it as it was. -/

namespace Sys2Proof.Machine

set_option linter.unusedSimpArgs false
set_option linter.unnecessarySeqFocus false

/-! ### The view -/

/-- What TablesLaw reads of the part. -/
structure Stored where
  library : Vector (Option Layout) 128
  scenes : Vector (Option Scene) 32
  rotations : Vector (List (Fin 16)) 8
  cues : Vector CueEntry 1024
  alarms : Vector (Bool × Nat × BitVec 7 × Nat) 16
  triggers : Vector Nat 16
  ramp : Vector Nat 16
  rateA : Nat
  rateB : Nat
  params : Vector SourceParams 16
  sizes : Vector (Nat × Nat) 24

/-- What TablesLaw reads of the part. -/
def State.stored (s : State) : Stored :=
  ⟨s.library, s.scenes, mapTable Rotation.entries s.rotations, s.cues,
    mapTable (fun a => (a.enabled, a.seconds, a.weekdays, a.address)) s.alarms, mapTable Trigger.address s.triggers, s.ramp,
    s.rateA, s.rateB, mapTable Source.params s.sources, mapTable (fun x => (x.width, x.height)) s.screens⟩

/-- The law, in terms of the view. -/
theorem tablesLaw_congr {s t : State} (h : t.stored = s.stored) (k : s.TablesLaw) : t.TablesLaw := by
  unfold State.stored at h
  simp only [Stored.mk.injEq] at h
  obtain ⟨e1, e2, e3, e4, e5, e6, e7, e8, e9, e10, e11⟩ := h
  obtain ⟨h1, h2, h3, h4, h5, h6, h7, h8, h9, h10, h11⟩ := k
  have f3 : ∀ i : Fin 8, t.rotations[i].entries = s.rotations[i].entries := fun i => by
    have := congrArg (fun v => v[i]) e3
    simpa only [mapTable_get] using this
  have f5 : ∀ i : Fin 16, t.alarms[i].enabled = s.alarms[i].enabled ∧ t.alarms[i].seconds = s.alarms[i].seconds ∧
      t.alarms[i].weekdays = s.alarms[i].weekdays ∧ t.alarms[i].address = s.alarms[i].address := fun i => by
    have := congrArg (fun v => v[i]) e5
    simpa only [mapTable_get, Prod.mk.injEq] using this
  have f6 : ∀ i : Fin 16, t.triggers[i].address = s.triggers[i].address := fun i => by
    have := congrArg (fun v => v[i]) e6
    simpa only [mapTable_get] using this
  have f10 : ∀ i : Fin 16, t.sources[i].params = s.sources[i].params := fun i => by
    have := congrArg (fun v => v[i]) e10
    simpa only [mapTable_get] using this
  have f11 : ∀ i : Fin 24, t.screens[i].width = s.screens[i].width ∧ t.screens[i].height = s.screens[i].height := fun i => by
    have := congrArg (fun v => v[i]) e11
    simpa only [mapTable_get, Prod.mk.injEq] using this
  refine ⟨by rw [e1]; exact h1, by rw [e2]; exact h2, fun i => by unfold Rotation.Checked; rw [f3]; exact h3 i,
    by rw [e4]; exact h4, fun i => ?_, fun i => by rw [f6]; exact h6 i, by rw [e7]; exact h7, by rw [e8]; exact h8,
    by rw [e9]; exact h9, fun i => by rw [f10]; exact h10 i,
    fun i => by unfold Screen.Sized; rw [(f11 i).1, (f11 i).2]; exact h11 i⟩
  obtain ⟨g1, g2, g3, g4⟩ := f5 i
  unfold Alarm.Checked
  rw [g1, g2, g3, g4]
  exact h5 i

section
variable {t : State}

/-! ### The named updates -/

/-- A write of what the view does not read. -/
@[simp] theorem mk_stored {a1 a2 a3 a4 a5 a6 a7 a8 a9 a10 a11 a12 a13} :
    (State.mk a1 t.sources a2 a3 a4 t.library t.screens t.rateA t.rateB a5 t.ramp t.rotations t.scenes a6 a7 t.cues a8 a9
      t.alarms t.triggers a10 a11 a12 a13).stored = t.stored := rfl

@[simp] theorem modPort_stored (p : Fin 16) (f : Port → Port) : (t.modPort p f).stored = t.stored := rfl
@[simp] theorem modPorts_stored (f : Port → Port) : (t.modPorts f).stored = t.stored := rfl
@[simp] theorem modCounters_stored (p : Fin 16) (f : PortCounters → PortCounters) : (t.modCounters p f).stored = t.stored := rfl
@[simp] theorem modSlot_stored (k : Fin 64) (f : Slot → Slot) : (t.modSlot k f).stored = t.stored := rfl
@[simp] theorem modFlash_stored (f : Flash → Flash) : (t.modFlash f).stored = t.stored := rfl

/-- A table with one entry replaced by one of which the same is read. -/
theorem mapTable_put_same {α β : Type} {n : Nat} (g : α → β) (v : Vector α n) (i : Fin n) (x : α) (h : g x = g v[i]) :
    mapTable g (put v i x) = mapTable g v := by
  refine table_ext fun j => ?_
  simp only [mapTable_get, put_get]
  split
  · next e => rw [h, e]
  · rfl

@[simp] theorem modSource_stored (i : Fin 16) (f : Source → Source) (hf : ∀ x : Source, (f x).params = x.params) :
    (t.modSource i f).stored = t.stored := by
  unfold State.stored State.modSource
  dsimp only
  rw [mapTable_put_same _ _ _ _ (hf _)]

@[simp] theorem modAlarm_stored (n : Fin 16) (f : Alarm → Alarm)
    (hf : ∀ x : Alarm, (f x).enabled = x.enabled ∧ (f x).seconds = x.seconds ∧ (f x).weekdays = x.weekdays ∧
      (f x).address = x.address) : (t.modAlarm n f).stored = t.stored := by
  unfold State.stored State.modAlarm
  dsimp only
  rw [mapTable_put_same _ _ _ _ (by simp only [hf])]

@[simp] theorem modTrigger_stored (n : Fin 16) (f : Trigger → Trigger) (hf : ∀ x : Trigger, (f x).address = x.address) :
    (t.modTrigger n f).stored = t.stored := by
  unfold State.stored State.modTrigger
  dsimp only
  rw [mapTable_put_same _ _ _ _ (hf _)]

@[simp] theorem markSource_stored (i : Fin 16) : (t.markSource i).stored = t.stored := rfl
@[simp] theorem markScreen_stored (c : Fin 24) : (t.markScreen c).stored = t.stored := rfl
@[simp] theorem markRunner_stored (r : Fin 4) : (t.markRunner r).stored = t.stored := rfl
@[simp] theorem markTake_stored : t.markTake.stored = t.stored := rfl

/-- States that differ in change marks at most have the same stored. -/
theorem SameButMarks.stored {t u : State} (h : SameButMarks t u) : t.stored = u.stored := by
  unfold State.stored
  rw [h.library, h.scenes, h.rotations, h.cues, h.alarms, h.triggers, h.ramp, h.rateA, h.rateB, h.sources, h.screens]

@[simp] theorem setSourceState_stored (i : Fin 16) (st : SourceState) : (t.setSourceState i st).stored = t.stored := by
  unfold State.setSourceState
  dsimp only
  split <;> simp

@[simp] theorem setScreen_stored (c : Fin 24) (x : Screen)
    (hx : x.width = t.screens[c].width ∧ x.height = t.screens[c].height) : (t.setScreen c x).stored = t.stored := by
  rw [(setScreen_same c x t).stored]
  unfold State.stored State.withScreen
  dsimp only
  rw [mapTable_put_same _ _ _ _ (by simp only [hx])]

@[simp] theorem setRunner_stored (r : Fin 4) (x : Runner) : (t.setRunner r x).stored = t.stored := (setRunner_same r x t).stored

@[simp] theorem setJob_stored (j : Job) : (t.setJob j).stored = t.stored := (setJob_same j t).stored

/-- A fold of operations that leave the view. -/
theorem foldl_stored {α : Type} (g : State → α → State) (hg : ∀ (u : State) (a : α), (g u a).stored = u.stored) (l : List α) :
    (l.foldl g t).stored = t.stored := foldl_keeps State.stored g hg l t

/-! ### The shared operations -/

@[simp] theorem drawDetail_stored (d : Option Nat) : ((t.drawDetail d).2).stored = t.stored := by
  cases d <;> rfl

@[simp] theorem loseImageArea_stored (b : Bool) : (t.loseImageArea b).stored = t.stored := by
  unfold State.loseImageArea
  simp (maxDischargeDepth := 40) [*]

@[simp] theorem grant_stored (i : Fin 16) (n : Byte) (f : Format) : ((t.grant i n f).2).stored = t.stored := by
  unfold State.grant
  split <;> rfl

@[simp] theorem writeBand_stored (k : Fin 64) (l : List Byte) : (t.writeBand k l).stored = t.stored := by
  unfold State.writeBand
  simp (maxDischargeDepth := 40) [*]

@[simp] theorem retire_stored (i : Fin 16) : (t.retire i).stored = t.stored := by
  unfold State.retire
  try dsimp only
  (repeat' split) <;> simp (maxDischargeDepth := 40) [*]

@[simp] theorem publish_stored (i : Fin 16) (k : Fin 64) : (t.publish i k).stored = t.stored := by
  unfold State.publish
  simp (maxDischargeDepth := 40) [*]

@[simp] theorem abandon_stored (k : Fin 64) : (t.abandon k).stored = t.stored := by
  unfold State.abandon
  simp (maxDischargeDepth := 40) [*]

@[simp] theorem latch_stored (k : Fin 64) : (t.latch k).stored = t.stored := by
  unfold State.latch
  simp (maxDischargeDepth := 40) [*]

@[simp] theorem release_stored (k : Fin 64) : (t.release k).stored = t.stored := by
  unfold State.release
  simp (maxDischargeDepth := 40) [*]

@[simp] theorem releaseOpt_stored (k : Option (Fin 64)) : (t.releaseOpt k).stored = t.stored := by
  cases k
  · rfl
  · exact release_stored _

@[simp] theorem releaseWindows_stored (ws : List LiveWindow) : (t.releaseWindows ws).stored = t.stored := by
  induction ws generalizing t with
  | nil => rfl
  | cons w rest ih => exact ih.trans (by simp)

@[simp] theorem startRunner_stored (r : Fin 4) (a : Nat) (c : StartCause) : (t.startRunner r a c).stored = t.stored := by
  unfold State.startRunner
  simp (maxDischargeDepth := 40) [*]

@[simp] theorem advanceRunner_stored (r : Fin 4) : (t.advanceRunner r).stored = t.stored := by
  unfold State.advanceRunner
  simp (maxDischargeDepth := 40) [*]

@[simp] theorem enterWait_stored (r : Fin 4) (w : Wait) : (t.enterWait r w).stored = t.stored := by
  unfold State.enterWait
  simp (maxDischargeDepth := 40) [*]

@[simp] theorem endWait_stored (r : Fin 4) : (t.endWait r).stored = t.stored := by
  unfold State.endWait
  simp (maxDischargeDepth := 40) [*]

@[simp] theorem faultRunner_stored (r : Fin 4) (k : Code) (d : Option Nat) : (t.faultRunner r k d).stored = t.stored := by
  unfold State.faultRunner
  exact (setRunner_stored _ _).trans (drawDetail_stored d)

@[simp] theorem endQualifiedWait_stored (i : Fin 16) (r : Fin 4) : (State.endQualifiedWait i t r).stored = t.stored := by
  unfold State.endQualifiedWait
  try dsimp only
  (repeat' split) <;> simp (maxDischargeDepth := 40) [*]

@[simp] theorem endQualifiedWaits_stored (i : Fin 16) : (t.endQualifiedWaits i).stored = t.stored := by
  unfold State.endQualifiedWaits
  exact foldl_stored _ (fun _ _ => by simp) _

@[simp] theorem triggerMeets_stored (i : Fin 16) (e : SourceEvent) (n : Fin 16) : (State.triggerMeets i e t n).stored = t.stored := by
  unfold State.triggerMeets
  try dsimp only
  (repeat' split) <;> simp (maxDischargeDepth := 40) [*]

@[simp] theorem raiseEvent_stored (i : Fin 16) (e : SourceEvent) : (t.raiseEvent i e).stored = t.stored := by
  unfold State.raiseEvent
  exact foldl_stored _ (fun _ _ => by simp) _

/-! ### Sources -/

@[simp] theorem zeroTransitions_stored (i : Fin 16) : (t.zeroTransitions i).stored = t.stored := by
  unfold State.zeroTransitions
  simp (maxDischargeDepth := 40) [*]

@[simp] theorem enterAcquiring_stored (i : Fin 16) : (t.enterAcquiring i).stored = t.stored := by
  unfold State.enterAcquiring
  simp (maxDischargeDepth := 40) [*]

@[simp] theorem startStale_stored (i : Fin 16) : (t.startStale i).stored = t.stored := by
  unfold State.startStale
  simp (maxDischargeDepth := 40) [*]

@[simp] theorem qualify_stored (i : Fin 16) : (t.qualify i).stored = t.stored := by
  unfold State.qualify
  simp (maxDischargeDepth := 40) [*]

@[simp] theorem failSource_stored (i : Fin 16) : (t.failSource i).stored = t.stored := by
  unfold State.failSource
  simp (maxDischargeDepth := 40) [*]

@[simp] theorem testAcquiring_stored (i : Fin 16) : (t.testAcquiring i).stored = t.stored := by
  unfold State.testAcquiring
  try dsimp only
  (repeat' split) <;> simp (maxDischargeDepth := 40) [*]

@[simp] theorem countClean_stored (i : Fin 16) : (t.countClean i).stored = t.stored := by
  unfold State.countClean
  simp (maxDischargeDepth := 40) [*]

@[simp] theorem cleanWhileSuspect_stored (i : Fin 16) : (t.cleanWhileSuspect i).stored = t.stored := by
  unfold State.cleanWhileSuspect
  try dsimp only
  (repeat' split) <;> simp (maxDischargeDepth := 40) [*]

@[simp] theorem takeClean_stored (i : Fin 16) (b : Bool) : (t.takeClean i b).stored = t.stored := by
  unfold State.takeClean
  try dsimp only
  (repeat' split) <;> simp (maxDischargeDepth := 40) [*]

@[simp] theorem reportClean_stored (i : Fin 16) (f : Format) (n : Nat) : (t.reportClean i f n).stored = t.stored := by
  unfold State.reportClean
  simp (maxDischargeDepth := 40) [*]

@[simp] theorem takeMiss_stored (i : Fin 16) : (t.takeMiss i).stored = t.stored := by
  unfold State.takeMiss
  try dsimp only
  (repeat' split) <;> simp (maxDischargeDepth := 40) [*]

@[simp] theorem reportErrored_stored (i : Fin 16) (n : Nat) : (t.reportErrored i n).stored = t.stored := by
  unfold State.reportErrored
  try dsimp only
  (repeat' split) <;> simp (maxDischargeDepth := 40) [*]

@[simp] theorem reportStarved_stored (i : Fin 16) : (t.reportStarved i).stored = t.stored := by
  unfold State.reportStarved
  simp (maxDischargeDepth := 40) [*]

@[simp] theorem syncGained_stored (i : Fin 16) : (t.syncGained i).stored = t.stored := by
  unfold State.syncGained
  try dsimp only
  (repeat' split) <;> simp (maxDischargeDepth := 40) [*]

@[simp] theorem syncLost_stored (i : Fin 16) : (t.syncLost i).stored = t.stored := by
  unfold State.syncLost
  try dsimp only
  (repeat' split) <;> simp (maxDischargeDepth := 40) [*]

@[simp] theorem dropAssembly_stored (i : Fin 16) : (t.dropAssembly i).stored = t.stored := by
  unfold State.dropAssembly
  try dsimp only
  (repeat' split) <;> simp (maxDischargeDepth := 40) [*]

@[simp] theorem disableSource_stored (i : Fin 16) : (t.disableSource i).stored = t.stored := by
  unfold State.disableSource
  simp (maxDischargeDepth := 40) [*]

@[simp] theorem enableSource_stored (i : Fin 16) : (t.enableSource i).stored = t.stored := by
  unfold State.enableSource
  try dsimp only
  (repeat' split) <;> simp (maxDischargeDepth := 40) [*]

@[simp] theorem requalify_stored (i : Fin 16) : (t.requalify i).stored = t.stored := by
  unfold State.requalify
  try dsimp only
  (repeat' split) <;> simp (maxDischargeDepth := 40) [*]

@[simp] theorem clearCounters_stored (i : Fin 16) : (t.clearCounters i).stored = t.stored := by
  unfold State.clearCounters
  simp (maxDischargeDepth := 40) [*]

/-! ### Feed ports -/

@[simp] theorem discardFrom_stored (p : Fin 16) : (t.discardFrom p).stored = t.stored := by
  unfold State.discardFrom
  simp (maxDischargeDepth := 40) [*]

@[simp] theorem gapPicture_stored (p : Fin 16) : (t.gapPicture p).stored = t.stored := by
  unfold State.gapPicture
  simp (maxDischargeDepth := 40) [*]

@[simp] theorem writeChecked_stored (p : Fin 16) (k : Fin 64) (b : BandCell) (f : Bool) : (t.writeChecked p k b f).stored = t.stored := by
  unfold State.writeChecked
  try dsimp only
  (repeat' split) <;> simp (maxDischargeDepth := 40) [*]

@[simp] theorem firstBand_stored (p : Fin 16) (b : BandCell) (f : Format) : (t.firstBand p b f).stored = t.stored := by
  unfold State.firstBand
  split
  · simp
  · have g := grant_stored (t := t) p b.number f
    split
    all_goals
      next e =>
      rw [e] at g
      simp at g ⊢
      simp [g]

@[simp] theorem completePicture_stored (p : Fin 16) (k : Fin 64) (n : Byte) (f : Format) (e : Bool) : (t.completePicture p k n f e).stored = t.stored := by
  unfold State.completePicture
  try dsimp only
  (repeat' split) <;> simp (maxDischargeDepth := 40) [*]

@[simp] theorem laterBand_stored (p : Fin 16) (b : BandCell) (k : Fin 64) (n : Byte) (f : Format) (x : Nat) (e : Bool) : (t.laterBand p b k n f x e).stored = t.stored := by
  unfold State.laterBand
  try dsimp only
  (repeat' split) <;> simp (maxDischargeDepth := 40) [*]

@[simp] theorem reply_stored (p : Fin 16) (r : Request) (st : ReplyStatus) (l : List Byte) : (t.reply p r st l).stored = t.stored := by
  unfold State.reply
  simp (maxDischargeDepth := 40) [*]

@[simp] theorem recordCondition_stored (p : Fin 16) (r : Request) (c : Code) (d : Option Nat) : (t.recordCondition p r c d).stored = t.stored := by
  unfold State.recordCondition
  split
  · rfl
  · exact (modPort_stored _ _).trans (drawDetail_stored d)

@[simp] theorem answerRequest_stored (p : Fin 16) (r : Request) (a : Answer) : (t.answerRequest p r a).stored = t.stored := by
  unfold State.answerRequest
  try dsimp only
  (repeat' split) <;> simp (maxDischargeDepth := 40) [*]

@[simp] theorem requestArrives_stored (p : Fin 16) (r : Request) : (t.requestArrives p r).stored = t.stored := by
  unfold State.requestArrives
  try dsimp only
  (repeat' split) <;> simp (maxDischargeDepth := 40) [*]

@[simp] theorem beginService_stored (p : Fin 16) : (t.beginService p).stored = t.stored := by
  rfl

@[simp] theorem assemble_stored (p : Fin 16) (b : BandCell) : (t.assemble p b).stored = t.stored := by
  unfold State.assemble
  try dsimp only
  (repeat' split) <;> simp (maxDischargeDepth := 40) [*]

@[simp] theorem sortCell_stored (p : Fin 16) (c : Cell) : (t.sortCell p c).stored = t.stored := by
  unfold State.sortCell
  try dsimp only
  (repeat' split) <;> simp (maxDischargeDepth := 40) [*]

@[simp] theorem loseSync_stored (p : Fin 16) : (t.loseSync p).stored = t.stored := by
  unfold State.loseSync
  simp (maxDischargeDepth := 40) [*]

@[simp] theorem gainSync_stored (p : Fin 16) : (t.gainSync p).stored = t.stored := by
  unfold State.gainSync
  simp (maxDischargeDepth := 40) [*]

@[simp] theorem malformedArrives_stored (p : Fin 16) : (t.malformedArrives p).stored = t.stored := by
  unfold State.malformedArrives
  try dsimp only
  (repeat' split) <;> simp (maxDischargeDepth := 40) [*]

@[simp] theorem wellFormedArrives_stored (p : Fin 16) (c : Cell) : (t.wellFormedArrives p c).stored = t.stored := by
  unfold State.wellFormedArrives
  try dsimp only
  (repeat' split) <;> simp (maxDischargeDepth := 40) [*]

@[simp] theorem cellArrives_stored (p : Fin 16) (c : List Byte) : (t.cellArrives p c).stored = t.stored := by
  unfold State.cellArrives
  try dsimp only
  (repeat' split) <;> simp (maxDischargeDepth := 40) [*]

@[simp] theorem silenceExpires_stored (p : Fin 16) : (t.silenceExpires p).stored = t.stored := by
  unfold State.silenceExpires
  try dsimp only
  (repeat' split) <;> simp (maxDischargeDepth := 40) [*]

/-! ### The take engine -/

@[simp] theorem setStandby_stored (c : Fin 24) (b : Standby) : (t.setStandby c b).stored = t.stored := by
  unfold State.setStandby
  simp (maxDischargeDepth := 40) [*]

@[simp] theorem handResult_stored (j : Job) : (t.handResult j).stored = t.stored := by
  unfold State.handResult
  try dsimp only
  (repeat' split) <;> simp (maxDischargeDepth := 40) [*]

@[simp] theorem finishJob_stored (b : Bool) (j : Job) : (t.finishJob b j).stored = t.stored := by
  unfold State.finishJob
  simp (maxDischargeDepth := 40) [*]

@[simp] theorem settle_stored  : (t.settle).stored = t.stored := by
  unfold State.settle
  try dsimp only
  (repeat' split) <;> simp (maxDischargeDepth := 40) [*]

@[simp] theorem armMember_stored (m : Member) : (t.armMember m).stored = t.stored := by
  unfold State.armMember
  try dsimp only
  (repeat' split) <;> simp (maxDischargeDepth := 40) [*]

@[simp] theorem armJob_stored (j : Job) : (t.armJob j).stored = t.stored := by
  unfold State.armJob
  rw [settle_stored, setJob_stored, foldl_stored _ fun _ _ => by simp]

@[simp] theorem advanceLoading_stored  : (t.advanceLoading).stored = t.stored := by
  unfold State.advanceLoading
  try dsimp only
  (repeat' split) <;> simp (maxDischargeDepth := 40) [*]

@[simp] theorem newJob_stored (k : JobKind) (r : Requester) (f : Phase) (l : List Member) : (t.newJob k r f l).stored = t.stored := by
  unfold State.newJob
  simp (maxDischargeDepth := 40) [*]

@[simp] theorem armPrevious_stored (m : Member) : (t.armPrevious m).stored = t.stored := by
  unfold State.armPrevious
  try dsimp only
  (repeat' split) <;> simp (maxDischargeDepth := 40) [*]

@[simp] theorem acceptRevert_stored (r : Requester) (l : List (Fin 24)) : (t.acceptRevert r l).stored = t.stored := by
  unfold State.acceptRevert
  rw [settle_stored, newJob_stored, foldl_stored _ fun _ _ => by simp]

/-- R114, R115: an accepted take. -/
theorem accept_stored {q : Requester} {x : Take} {u : State} (e : t.accept q x = .ok u) : u.stored = t.stored := by
  have key : ∀ (k : JobKind) (ms : Scene), t.acceptMembers k q ms = .ok u → u.stored = t.stored := by
    intro k ms e
    unfold State.acceptMembers at e
    split at e
    · cases e
    · cases e
      simp
  unfold State.accept at e
  split at e
  · split at e
    · cases e
    · exact key _ _ e
  · exact key _ _ e
  · cases e
    simp

@[simp] theorem submitTake_stored (r : Fin 4) (x : Take) (b : Bool) : (t.submitTake r x b).stored = t.stored := by
  unfold State.submitTake
  split
  · simp
  · next e =>
    have k := accept_stored e
    (repeat' split) <;> simp [k]

@[simp] theorem offerTo_stored (r : Fin 4) : (t.offerTo r).stored = t.stored := by
  unfold State.offerTo
  try dsimp only
  (repeat' split) <;> simp (maxDischargeDepth := 40) [*]

@[simp] theorem offerEngine_stored  : (t.offerEngine).stored = t.stored := by
  unfold State.offerEngine
  exact foldl_stored _ (fun _ _ => by simp) _

@[simp] theorem memberDisabled_stored (c : Fin 24) : (t.memberDisabled c).stored = t.stored := by
  unfold State.memberDisabled
  split
  · rfl
  · split
    · rw [offerEngine_stored, advanceLoading_stored]
      split <;> simp (maxDischargeDepth := 40)
    · rfl

@[simp] theorem memberSwapped_stored (c : Fin 24) : (t.memberSwapped c).stored = t.stored := by
  unfold State.memberSwapped
  try dsimp only
  (repeat' split) <;> simp (maxDischargeDepth := 40) [*]

@[simp] theorem abortStandby_stored (k : JobKind) (m : Member) : (State.abortStandby k t m).stored = t.stored := by
  unfold State.abortStandby
  try dsimp only
  (repeat' split) <;> simp (maxDischargeDepth := 40) [*]

@[simp] theorem abortJob_stored  : (t.abortJob).stored = t.stored := by
  unfold State.abortJob
  split
  · rfl
  · rw [finishJob_stored, foldl_stored _ fun _ _ => by simp]

@[simp] theorem completeLoad_stored (o : MemberOutcome) : (t.completeLoad o).stored = t.stored := by
  unfold State.completeLoad
  try dsimp only
  (repeat' split) <;> simp (maxDischargeDepth := 40) [*]

@[simp] theorem loadCompletes_stored (c : Fin 24) (e : Fin 128) (l : Layout) : (t.loadCompletes c e l).stored = t.stored := by
  unfold State.loadCompletes
  try dsimp only
  (repeat' split) <;> simp (maxDischargeDepth := 40) [*]

/-! ### Screens and windows -/

@[simp] theorem moveLatch_stored (a b : Option (Fin 64)) : (State.moveLatch a b t).stored = t.stored := by
  unfold State.moveLatch
  try dsimp only
  (repeat' split) <;> simp (maxDischargeDepth := 40) [*]

@[simp] theorem moveWindow_stored (x : LiveWindow × LiveWindow) : (t.moveWindow x).stored = t.stored := by
  unfold State.moveWindow
  simp (maxDischargeDepth := 40) [*]

@[simp] theorem swapContexts_stored (c : Fin 24) (x : Context) : (t.swapContexts c x).stored = t.stored := by
  unfold State.swapContexts
  try dsimp only
  (repeat' split) <;> simp (maxDischargeDepth := 40) [*]

@[simp] theorem swapStage_stored (c : Fin 24) : (t.swapStage c).stored = t.stored := by
  unfold State.swapStage
  try dsimp only
  (repeat' split) <;> simp (maxDischargeDepth := 40) [*]

@[simp] theorem releaseEnded_stored (w : LiveWindow) : (t.releaseEnded w).stored = t.stored := by
  unfold State.releaseEnded
  try dsimp only
  (repeat' split) <;> simp (maxDischargeDepth := 40) [*]

@[simp] theorem composeStages_stored (c : Fin 24) (x : Context) : (t.composeStages c x).stored = t.stored := by
  have e : ∀ (l : List (LiveWindow × LiveWindow)) (m : List LiveWindow),
      (m.foldl State.releaseEnded (l.foldl State.moveWindow t)).stored = t.stored := fun l m => by
    rw [foldl_stored _ fun _ _ => by simp, foldl_stored _ fun _ _ => by simp]
  unfold State.composeStages
  dsimp only
  rw [setScreen_stored, e]
  simp

@[simp] theorem emitFrame_stored (c : Fin 24) : (t.emitFrame c).stored = t.stored := by
  unfold State.emitFrame
  simp (maxDischargeDepth := 40) [*]

@[simp] theorem takeTick_stored (c : Fin 24) : (t.takeTick c).stored = t.stored := by
  unfold State.takeTick
  dsimp only
  rw [emitFrame_stored]
  split <;> simp (maxDischargeDepth := 40)

@[simp] theorem disableScreen_stored (c : Fin 24) : (t.disableScreen c).stored = t.stored := by
  unfold State.disableScreen
  dsimp only
  rw [memberDisabled_stored]
  split <;> rw [setScreen_stored] <;> simp

@[simp] theorem modWindow_stored (c : Fin 24) (n : Nat) (f : LiveWindow → LiveWindow) : (t.modWindow c n f).stored = t.stored := by
  unfold State.modWindow
  simp (maxDischargeDepth := 40) [*]

@[simp] theorem repin_stored (k : Fin 4) (l : Fin 64) : (t.repin k l).stored = t.stored := by
  unfold State.repin
  simp (maxDischargeDepth := 40) [*]

@[simp] theorem unpin_stored (k : Fin 4) (l : Fin 64) : (t.unpin k l).stored = t.stored := by
  unfold State.unpin
  simp (maxDischargeDepth := 40) [*]

@[simp] theorem deliverTick_stored (k : Cadence) : (t.deliverTick k).stored = t.stored := by
  have e : mapTable (fun x => (x.width, x.height)) (t.deliverTick k).screens =
      mapTable (fun x => (x.width, x.height)) t.screens := by
    unfold State.deliverTick
    refine table_ext fun c => ?_
    dsimp only
    rw [mapTable_get, mapTable_get, mapTable_get]
    unfold Screen.deliver
    split <;> rfl
  unfold State.stored
  rw [e]
  simp

/-! ### Entries and waits -/

/-- R87: what a test of the screen and the window leads to. -/
theorem onWindow_stored (c : Fin 24) (n : Nat) (act : Context → LiveWindow → State × Answer)
    (ha : ∀ (x : Context) (w : LiveWindow), (act x w).1.stored = t.stored) : (t.onWindow c n act).1.stored = t.stored := by
  unfold State.onWindow
  (repeat' split) <;> simp [ha]

@[simp] theorem takeWindow_stored (c : Fin 24) (x : Context) (w : LiveWindow) (n : Nat) (y : Transition) :
    (takeWindow c x w n y t).state.stored = t.stored := by
  unfold takeWindow
  dsimp only
  (repeat' split) <;> simp (maxDischargeDepth := 40)

@[simp] theorem setRotation_stored (k : Fin 8) (n : Nat) :
    (t.setRotation k { t.rotations[k] with position := n }).stored = t.stored := by
  unfold State.stored State.setRotation
  dsimp only
  rw [mapTable_put_same Rotation.entries t.rotations k { t.rotations[k] with position := n } rfl]

@[simp] theorem freezeFields_stored (f : List Nat) : ((freezeFields f t).1).stored = t.stored := by
  unfold freezeFields
  try dsimp only
  split
  · rfl
  · exact onWindow_stored _ _ _ (fun _ _ => by simp)

@[simp] theorem setPulseFields_stored (f : List Nat) : ((setPulseFields f t).1).stored = t.stored := by
  unfold setPulseFields
  try dsimp only
  split
  · rfl
  · exact onWindow_stored _ _ _ (fun _ _ => by split <;> simp)

@[simp] theorem windowTakeFields_stored (f : List Nat) : ((windowTakeFields f t).1).stored = t.stored := by
  unfold windowTakeFields
  try dsimp only
  split
  · rfl
  · exact onWindow_stored _ _ _ (fun _ _ => by simp)

@[simp] theorem rotateFields_stored (f : List Nat) : ((rotateFields f t).1).stored = t.stored := by
  unfold rotateFields
  try dsimp only
  split
  · rfl
  · exact onWindow_stored _ _ _ (fun _ _ => by split <;> simp only [takeWindow_stored, setRotation_stored])

@[simp] theorem requalifyFields_stored (f : List Nat) : ((requalifyFields f t).1).stored = t.stored := by
  unfold requalifyFields
  try dsimp only
  (repeat' split) <;> simp (maxDischargeDepth := 40) [*]

@[simp] theorem captureFields_stored (f : List Nat) : ((captureFields f t).1).stored = t.stored := by
  unfold captureFields
  try dsimp only
  (repeat' split) <;> simp (maxDischargeDepth := 40) [*]

@[simp] theorem releaseStillFields_stored (f : List Nat) : ((releaseStillFields f t).1).stored = t.stored := by
  unfold releaseStillFields
  try dsimp only
  (repeat' split) <;> simp (maxDischargeDepth := 40) [*]

@[simp] theorem moveRunner_stored (r : Fin 4) (a : Nat) (l : List Nat) : (t.moveRunner r a l).stored = t.stored := by
  unfold State.moveRunner
  simp (maxDischargeDepth := 40) [*]

@[simp] theorem returnFrom_stored (r : Fin 4) : (t.returnFrom r).stored = t.stored := by
  unfold State.returnFrom
  try dsimp only
  (repeat' split) <;> simp (maxDischargeDepth := 40) [*]

@[simp] theorem haltRunner_stored (r : Fin 4) : (t.haltRunner r).stored = t.stored := by
  unfold State.haltRunner
  simp (maxDischargeDepth := 40) [*]

@[simp] theorem countEnds_stored (r : Fin 4) : (t.countEnds r).stored = t.stored := by
  unfold State.countEnds
  try dsimp only
  (repeat' split) <;> simp (maxDischargeDepth := 40) [*]

@[simp] theorem timerExpires_stored (r : Fin 4) : (t.timerExpires r).stored = t.stored := by
  unfold State.timerExpires
  try dsimp only
  (repeat' split) <;> simp (maxDischargeDepth := 40) [*]

@[simp] theorem resultTaken_stored (r : Fin 4) : (t.resultTaken r).stored = t.stored := by
  unfold State.resultTaken
  try dsimp only
  (repeat' split) <;> simp (maxDischargeDepth := 40) [*]

@[simp] theorem stopRunner_stored (r : Fin 4) : (t.stopRunner r).stored = t.stored := by
  unfold State.stopRunner
  simp (maxDischargeDepth := 40) [*]

@[simp] theorem resumeRunner_stored (r : Fin 4) (b : Bool) : (t.resumeRunner r b).stored = t.stored := by
  unfold State.resumeRunner
  try dsimp only
  (repeat' split) <;> simp (maxDischargeDepth := 40) [*]

@[simp] theorem followRequest_stored (r : Fin 4) (x : State × Answer) : (State.followRequest r x).stored = x.1.stored := by
  unfold State.followRequest
  try dsimp only
  (repeat' split) <;> simp (maxDischargeDepth := 40) [*]

@[simp] theorem waitPicturesEntry_stored (r : Fin 4) (e : CueEntry) : (State.waitPicturesEntry r e t).stored = t.stored := by
  unfold State.waitPicturesEntry
  simp (maxDischargeDepth := 40) [*]

@[simp] theorem waitTimeEntry_stored (r : Fin 4) (e : CueEntry) : (State.waitTimeEntry r e t).stored = t.stored := by
  unfold State.waitTimeEntry
  try dsimp only
  (repeat' split) <;> simp (maxDischargeDepth := 40) [*]

@[simp] theorem waitQualifiedEntry_stored (r : Fin 4) (e : CueEntry) : (State.waitQualifiedEntry r e t).stored = t.stored := by
  unfold State.waitQualifiedEntry
  try dsimp only
  (repeat' split) <;> simp (maxDischargeDepth := 40) [*]

@[simp] theorem jumpEntry_stored (r : Fin 4) (e : CueEntry) : (State.jumpEntry r e t).stored = t.stored := by
  unfold State.jumpEntry
  simp (maxDischargeDepth := 40) [*]

@[simp] theorem callEntry_stored (r : Fin 4) (e : CueEntry) : (State.callEntry r e t).stored = t.stored := by
  unfold State.callEntry
  try dsimp only
  (repeat' split) <;> simp (maxDischargeDepth := 40) [*]

@[simp] theorem takeEntry_stored (f : CueEntry → Take) (r : Fin 4) (e : CueEntry) : (State.takeEntry f r e t).stored = t.stored := by
  unfold State.takeEntry
  try dsimp only
  (repeat' split) <;> simp (maxDischargeDepth := 40) [*]

@[simp] theorem rotateEntry_stored (r : Fin 4) (e : CueEntry) : (State.rotateEntry r e t).stored = t.stored := by
  unfold State.rotateEntry
  try dsimp only
  (repeat' split) <;> simp (maxDischargeDepth := 40) [*]

/-! ### The schedule and the store -/

@[simp] theorem alarmMeets_stored (n : Fin 16) : (t.alarmMeets n).stored = t.stored := by
  unfold State.alarmMeets
  try dsimp only
  (repeat' split) <;> simp (maxDischargeDepth := 40) [*]

@[simp] theorem matchAlarms_stored  : (t.matchAlarms).stored = t.stored := by
  unfold State.matchAlarms
  split
  · exact foldl_stored _ (fun _ _ => by simp) _
  · rfl

@[simp] theorem timeMeets_stored (r : Fin 4) : (t.timeMeets r).stored = t.stored := by
  unfold State.timeMeets
  try dsimp only
  (repeat' split) <;> simp (maxDischargeDepth := 40) [*]

@[simp] theorem moveDrops_stored  : (t.moveDrops).stored = t.stored := by
  unfold State.moveDrops
  simp (maxDischargeDepth := 40) [*]

@[simp] theorem secondTick_stored  : (t.secondTick).stored = t.stored := by
  unfold State.secondTick
  dsimp only
  rw [matchAlarms_stored, foldl_stored _ fun _ _ => by simp]
  rfl

@[simp] theorem raiseAttention_stored (c : Code) (d : Nat) : (t.raiseAttention c d).stored = t.stored := by
  unfold State.raiseAttention
  simp (maxDischargeDepth := 40) [*]

@[simp] theorem clearCondition_stored (p : Fin 16) : (t.clearCondition p).stored = t.stored := by
  unfold State.clearCondition
  simp (maxDischargeDepth := 40) [*]

@[simp] theorem abandonSave_stored  : (t.abandonSave).stored = t.stored := by
  unfold State.abandonSave
  try dsimp only
  (repeat' split) <;> simp (maxDischargeDepth := 40) [*]

@[simp] theorem eraseCompletes_stored  : (t.eraseCompletes).stored = t.stored := by
  unfold State.eraseCompletes
  try dsimp only
  (repeat' split) <;> simp (maxDischargeDepth := 40) [*]

@[simp] theorem programCompletes_stored  : (t.programCompletes).stored = t.stored := by
  unfold State.programCompletes
  try dsimp only
  (repeat' split) <;> simp (maxDischargeDepth := 40) [*]

@[simp] theorem readBackCompletes_stored (l : List Host.Cell) : (t.readBackCompletes l).stored = t.stored := by
  unfold State.readBackCompletes
  try dsimp only
  (repeat' split) <;> simp (maxDischargeDepth := 40) [*]

@[simp] theorem saveUnanswered_stored  : (t.saveUnanswered).stored = t.stored := by
  unfold State.saveUnanswered
  simp (maxDischargeDepth := 40) [*]

@[simp] theorem flashUnanswered_stored  : (t.flashUnanswered).stored = t.stored := by
  unfold State.flashUnanswered
  try dsimp only
  (repeat' split) <;> simp (maxDischargeDepth := 40) [*]

@[simp] theorem startSource_stored (i : Fin 16) : (t.startSource i).stored = t.stored := by
  unfold State.startSource
  try dsimp only
  (repeat' split) <;> simp (maxDischargeDepth := 40) [*]

@[simp] theorem startScreen_stored (c : Fin 24) : (t.startScreen c).stored = t.stored := by
  unfold State.startScreen
  try dsimp only
  (repeat' split) <;> simp (maxDischargeDepth := 40) [*]

@[simp] theorem settleStart_stored (c : Code) : (t.settleStart c).stored = t.stored := by
  unfold State.settleStart
  dsimp only
  refine (mk_stored (t := State.raiseAttention c 0 _)).trans ?_
  rw [raiseAttention_stored, foldl_stored _ fun _ _ => by simp, foldl_stored _ fun _ _ => by simp]

end

end Sys2Proof.Machine
end

