-- ==== Sys2Proof/Laws/TablesLaw.lean ====
section
/-! SUPPORT. TablesLaw and what writes the stored tables: each request that edits one, the end of start-up, and the state after
reset. What leaves the tables as they were is Laws/Stored.lean. -/

namespace Sys2Proof.Machine

variable {s : State}

/-- A law of every entry of a table, after one entry has been replaced. -/
theorem put_law {α : Type} {n : Nat} {P : α → Prop} {v : Vector α n} {x : α} (i : Fin n) (h : ∀ j : Fin n, P v[j]) (hx : P x) :
    ∀ j : Fin n, P (put v i x)[j] := by
  intro j
  rw [put_get]
  split
  · exact hx
  · exact h j

/-- The state after reset keeps the law. -/
theorem reset_tables : State.reset.TablesLaw := by
  refine ⟨fun e l h => ?_, fun n x h => ?_, fun k => ?_, fun a => ?_, fun n => ?_, fun n => ?_, by decide, by decide, by decide,
    fun i => ?_, fun c => ?_⟩
  · simp [State.reset] at h
  · simp [State.reset] at h
  · simp [State.reset, Rotation.unloaded, Rotation.Checked]
  all_goals
    simp only [State.reset, replicate_get]
    decide

/-- R175: power-on. -/
theorem powerOn_tables (s : State) : s.powerOn.TablesLaw := tablesLaw_congr (s := State.reset) rfl reset_tables

/-! ### What the checks leave -/

/-- R31: parameters that pass their checks. -/
theorem paramsOf_checked {f : List Nat} (h : sourceBad f = none) : (paramsOf f).Checked := by
  unfold sourceBad at h
  split at h
  · cases h
  · next e =>
    rw [firstBad_eq_none] at e
    simp [sourceTests] at e
    split at h
    · cases h
    · unfold paramsOf
      dsimp only [SourceParams.Checked]
      omega

/-- R92: settings that pass their checks. -/
theorem settingsOf_sized {f : List Nat} (h : firstBad 0 (screenTests f) = none) :
    40 ≤ (settingsOf f).width ∧ (settingsOf f).width ≤ 240 ∧ 12 ≤ (settingsOf f).height ∧ (settingsOf f).height ≤ 68 := by
  rw [firstBad_eq_none] at h
  simp [screenTests] at h
  unfold settingsOf
  dsimp only
  omega

/-- R103, R104: a ramp of which no field is above 32. -/
theorem rampOf_le {f : List Nat} (h : firstBad 0 (f.map (within 0 32)) = none) (i : Fin 16) : (rampOf f)[i] ≤ 32 := by
  rw [firstBad_eq_none] at h
  unfold rampOf
  rw [ofFn_get]
  unfold fld
  rw [List.getD_eq_getElem?_getD]
  by_cases hi : i.val < f.length
  · have k := h (within 0 32 f[i.val]) (List.mem_map_of_mem (List.getElem_mem hi))
    rw [within_eq_true] at k
    rw [List.getElem?_eq_getElem hi]
    exact k.2
  · rw [List.getElem?_eq_none (by omega)]
    exact Nat.zero_le _

/-- The power-on ramp. -/
theorem rampAtPowerOn_le (i : Fin 16) : rampAtPowerOn[i] ≤ 32 := by
  revert i
  decide

/-- R105, R106: a list that passes its checks. -/
theorem rotationBad_checked {n pos : Nat} {entries : List Nat} (hn : entries.length ≤ n) (h : rotationBad n entries = none) :
    (Rotation.mk (entries.map (Fin.ofNat 16)) pos).Checked := by
  unfold rotationBad at h
  split at h
  · cases h
  · next q =>
    rw [firstBad_eq_none] at q
    rw [firstRepeat_none] at h
    have k := q _ List.mem_cons_self
    rw [within_eq_true] at k
    have inRange : ∀ a ∈ entries, a ≤ 15 := fun a ha =>
      (within_eq_true.1 (q (within 0 15 a) (List.mem_cons_of_mem _ (List.mem_map_of_mem ha)))).2
    constructor
    · rw [List.length_map]
      omega
    · refine h.1.map_on fun a ha b hb hab => ?_
      have h1 := inRange a ha
      have h2 := inRange b hb
      simp only [Fin.ext_iff, Fin.ofNat] at hab
      omega

/-- The members that bytes spell are half as many. -/
theorem membersOf_length (l : List Nat) : (membersOf l).length = l.length / 2 := by
  induction l using membersOf.induct with
  | case1 a b rest ih =>
    simp only [membersOf, List.length_cons, ih]
    omega
  | case2 a => simp [membersOf]
  | case3 => rfl

/-- R110, R111: a scene that passes its checks. -/
theorem sceneBad_checked {n : Nat} {m : List Nat} (hm : m.length = 2 * n) (h : sceneBad n m = none) :
    SceneChecked (membersOf m) := by
  unfold sceneBad at h
  split at h
  · cases h
  · next k =>
    rw [firstBad_eq_none] at k
    have c := k _ List.mem_cons_self
    rw [within_eq_true] at c
    rw [Option.map_eq_none_iff, firstRepeat_none] at h
    refine ⟨by rw [membersOf_length]; omega, by rw [membersOf_length]; omega, ?_⟩
    have d := h.1
    rw [show (membersOf m).map (fun x => x.1.val) = ((membersOf m).map (·.1)).map Fin.val by simp] at d
    exact List.Nodup.of_map _ d

/-- Parameters cut into fields are as many as the widths. -/
theorem splitFields_length (ws : List Nat) (bs : List Byte) : (splitFields ws bs).length = ws.length := by
  induction ws generalizing bs with
  | nil => rfl
  | cons w t ih => simp [splitFields, ih]

/-- R127, R128: an entry that passes its tests. -/
theorem entryOfFields_checked {f : List Nat} (hf : f.length = 7) (h : firstBad 0 (entryTests f) = none) :
    (entryOfFields f).Checked := by
  obtain ⟨a, b, c, d, e, g, i, rfl⟩ : ∃ a b c d e g i, f = [a, b, c, d, e, g, i] := by
    rcases f with _ | ⟨a, _ | ⟨b, _ | ⟨c, _ | ⟨d, _ | ⟨e, _ | ⟨g, _ | ⟨i, _ | ⟨j, f⟩⟩⟩⟩⟩⟩⟩⟩ <;>
      simp at hf
    exact ⟨_, _, _, _, _, _, _, rfl⟩
  have k := firstBad_eq_none.1 h
  have r : within 0 17 a = true := k _ (by simp [entryTests])
  rw [within_eq_true] at r
  have n : (CueKind.ofNum a).num = a := by
    obtain ⟨-, r⟩ := r
    interval_cases a <;> rfl
  unfold CueEntry.Checked
  simp only [entryOfFields, CueEntry.operands, fld, List.getD_cons_zero, List.getD_cons_succ, n]
  exact h

/-- R152, R156: an alarm that passes its checks. -/
theorem alarmOf_checked {f : List Nat} (h : alarmBad f = none) : (alarmOf f).Checked := by
  unfold alarmBad at h
  split at h
  · cases h
  · next k =>
    rw [firstBad_eq_none] at k
    simp [alarmTests] at k
    refine ⟨k.2.2.1, k.2.2.2.2.2, fun he hw => ?_⟩
    split at h
    · cases h
    · next n =>
      refine n ⟨of_decide_eq_true he, ?_⟩
      have e := congrArg BitVec.toNat hw
      simp only [alarmOf, BitVec.toNat_ofNat] at e
      have z : fld f 3 % 128 = 0 := e
      omega

/-- R154, R156: a trigger that passes its checks. -/
theorem triggerOf_address {f : List Nat} (h : firstBad 0 (triggerTests f) = none) : (triggerOf f).address ≤ 1023 := by
  rw [firstBad_eq_none] at h
  simp [triggerTests] at h
  exact h.2.2.2.2.2.1

/-- R72: a rate that is one of the five, or the power-on rate. -/
theorem storedRate_mem {n p : Nat} (hp : p ∈ [24, 25, 30, 50, 60]) : storedRate n p ∈ [24, 25, 30, 50, 60] := by
  unfold storedRate
  split
  · next k => exact List.contains_iff_mem.1 k
  · exact hp

/-! ### The requests that edit a table -/

/-- R160: a request is served with parameters of the length it requires, so what its body keeps of the law is kept. -/
theorem serve_tables {code : Nat} {body : Fin 16 → List Byte → State → Served}
    (h1 : ∀ (p : Fin 16) (ps : List Byte) (u : State), requiredLength code ps = some ps.length → u.TablesLaw →
      (body p ps u).state.TablesLaw)
    (h2 : ∀ (p : Fin 16) (ps : List Byte) (u v : State), v.TablesLaw → ((body p ps u).after v).TablesLaw)
    (h : s.TablesLaw) : (s.serve code body).TablesLaw := by
  have b : ∀ p, (s.beginService p).TablesLaw := fun p => tablesLaw_congr rfl h
  unfold State.serve
  split
  · exact h
  · next p r _ =>
    split
    · next hc =>
      unfold State.serveRequest
      split
      · exact b p
      · exact tablesLaw_congr (by simp) (b p)
      · exact tablesLaw_congr (by simp) (b p)
      · next e =>
        have hl : requiredLength code r.params = some r.params.length := by
          unfold screenRequest at e
          split at e
          · cases e
          · split at e
            · cases e
            · unfold screenForm at e
              split at e
              · cases e
              · split at e
                · cases e
                · next k => rw [← hc]; exact not_not.1 k
        exact h2 _ _ _ _ (tablesLaw_congr (answerRequest_stored _ _ _) (h1 _ _ _ hl (b p)))
    · exact h

/-- A request that writes no stored table keeps the law. -/
theorem serve_keeps_tables {code : Nat} {body : Fin 16 → List Byte → State → Served}
    (h1 : ∀ (p : Fin 16) (ps : List Byte) (u : State), (body p ps u).state.stored = u.stored)
    (h2 : ∀ (p : Fin 16) (ps : List Byte) (u v : State), ((body p ps u).after v).stored = v.stored)
    (h : s.TablesLaw) : (s.serve code body).TablesLaw :=
  serve_tables (fun p ps u _ k => tablesLaw_congr (h1 p ps u) k) (fun p ps u v k => tablesLaw_congr (h2 p ps u v) k) h

/-- R92: a screen of a geometry in range is written. -/
theorem setScreen_tables {c : Fin 24} {x : Screen} (hx : x.Sized) (h : s.TablesLaw) : (s.setScreen c x).TablesLaw := by
  refine tablesLaw_congr (setScreen_same c x s).stored ?_
  obtain ⟨h1, h2, h3, h4, h5, h6, h7, h8, h9, h10, h11⟩ := h
  exact ⟨h1, h2, h3, h4, h5, h6, h7, h8, h9, h10, put_law (P := Screen.Sized) c h11 hx⟩

/-- R31: SET SOURCE. -/
theorem setSourceBody_tables (p : Fin 16) (ps : List Byte) (h : s.TablesLaw) :
    (setSourceBody p ps s).state.TablesLaw := by
  unfold setSourceBody
  dsimp only
  split
  · exact h
  · next hb =>
    split
    · exact h
    · obtain ⟨h1, h2, h3, h4, h5, h6, h7, h8, h9, h10, h11⟩ := h
      exact ⟨h1, h2, h3, h4, h5, h6, h7, h8, h9,
        put_law (P := fun y : Source => y.params.Checked) _ h10 (paramsOf_checked hb), h11⟩

/-- R60: LOAD LAYOUT, of parameters of the length it requires. -/
theorem loadLayoutBody_tables (p : Fin 16) (ps : List Byte) (hl : requiredLength 7 ps = some ps.length) (h : s.TablesLaw) :
    (loadLayoutBody p ps s).state.TablesLaw := by
  unfold loadLayoutBody
  dsimp only
  split
  · exact h
  · split
    · exact h
    · split
      · exact h
      · next e =>
        obtain ⟨h1, h2, h3, h4, h5, h6, h7, h8, h9, h10, h11⟩ := h
        refine ⟨put_law (P := fun y : Option Layout => ∀ l, y = some l → l.Checked) _ h1 ?_,
          h2, h3, h4, h5, h6, h7, h8, h9, h10, h11⟩
        rintro l ⟨⟩
        refine ⟨ps.drop 1, ?_, e, rfl⟩
        have b : ∀ i, byteAt (ps.drop 1) i = byteAt ps (1 + i) := fun i => by
          unfold byteAt
          rw [List.getD_eq_getElem?_getD, List.getD_eq_getElem?_getD, List.getElem?_drop]
        simp only [requiredLength] at hl
        split at hl
        · simp only [Option.some.injEq] at hl
          rw [b, b, List.length_drop, ← hl, show 1 + (2 + (byteAt ps (1 + 0)).toNat) = 3 + (byteAt ps 1).toNat by simp; omega]
          simp; omega
        · cases hl

/-- R67: ERASE LAYOUT. -/
theorem eraseLayoutBody_tables (p : Fin 16) (ps : List Byte) (h : s.TablesLaw) :
    (eraseLayoutBody p ps s).state.TablesLaw := by
  unfold eraseLayoutBody
  dsimp only
  split
  · exact h
  · split
    · exact h
    · obtain ⟨h1, h2, h3, h4, h5, h6, h7, h8, h9, h10, h11⟩ := h
      exact ⟨put_law (P := fun y : Option Layout => ∀ l, y = some l → l.Checked) _ h1 (by rintro l ⟨⟩),
        h2, h3, h4, h5, h6, h7, h8, h9, h10, h11⟩

/-- R92: SET SCREEN, before the reply. -/
theorem setScreenBody_tables (p : Fin 16) (ps : List Byte) (h : s.TablesLaw) :
    (setScreenBody p ps s).state.TablesLaw := by
  unfold setScreenBody
  dsimp only
  split
  · exact h
  · next e =>
    split
    · exact h
    · split
      · exact h
      · exact setScreen_tables (settingsOf_sized e) h

/-- R92: SET SCREEN, after the reply. -/
@[simp] theorem applySettings_stored (c : Fin 24) (was : Screen) : (s.applySettings c was).stored = s.stored := by
  have refit : ∀ x : Screen, x.refit.width = x.width ∧ x.refit.height = x.height := fun x => by
    unfold Screen.refit
    split
    · exact ⟨rfl, rfl⟩
    · split
      · split <;> exact ⟨rfl, rfl⟩
      all_goals exact ⟨rfl, rfl⟩
  unfold State.applySettings
  dsimp only
  generalize ht : (if was.state = .disabled ∧ (was.width ≠ s.screens[c].width ∨ was.height ≠ s.screens[c].height) then
    s.setScreen c s.screens[c].refit else s) = t
  have et : t.stored = s.stored := by
    rw [← ht]
    split
    · exact setScreen_stored _ _ (refit _)
    · rfl
  generalize hu : (if (was.enabled && !s.screens[c].enabled) = true then t.disableScreen c else t) = u
  have eu : u.stored = t.stored := by
    rw [← hu]
    split
    · exact disableScreen_stored c
    · rfl
  split
  · exact eu.trans et
  · exact (setScreen_stored c { u.screens[c] with ticksDue := 0 } ⟨rfl, rfl⟩).trans (eu.trans et)

/-- R73: SET CADENCE. -/
theorem setCadenceBody_tables (p : Fin 16) (ps : List Byte) (h : s.TablesLaw) :
    (setCadenceBody p ps s).state.TablesLaw := by
  unfold setCadenceBody
  dsimp only
  split
  · exact h
  · next e =>
    split
    · exact h
    · split
      · exact h
      · rw [firstBad_eq_none] at e
        have m : fld (ps.map (·.toNat)) 1 ∈ [24, 25, 30, 50, 60] := List.contains_iff_mem.1 (e _ (by simp))
        obtain ⟨h1, h2, h3, h4, h5, h6, h7, h8, h9, h10, h11⟩ := h
        unfold State.setRate
        split
        · exact ⟨h1, h2, h3, h4, h5, h6, h7, m, h9, h10, h11⟩
        · exact ⟨h1, h2, h3, h4, h5, h6, h7, h8, m, h10, h11⟩

/-- R104: SET RAMP. -/
theorem setRampBody_tables (p : Fin 16) (ps : List Byte) (h : s.TablesLaw) : (setRampBody p ps s).state.TablesLaw := by
  unfold setRampBody
  dsimp only
  split
  · exact h
  · next e =>
    split
    · exact h
    · obtain ⟨h1, h2, h3, h4, h5, h6, h7, h8, h9, h10, h11⟩ := h
      exact ⟨h1, h2, h3, h4, h5, h6, rampOf_le e, h8, h9, h10, h11⟩

/-- R106: LOAD ROTATION, of parameters of the length it requires. -/
theorem loadRotationBody_tables (p : Fin 16) (ps : List Byte) (hl : requiredLength 19 ps = some ps.length)
    (h : s.TablesLaw) : (loadRotationBody p ps s).state.TablesLaw := by
  unfold loadRotationBody
  dsimp only
  split
  · exact h
  · split
    · exact h
    · next e =>
      split
      · exact h
      · obtain ⟨h1, h2, h3, h4, h5, h6, h7, h8, h9, h10, h11⟩ := h
        refine ⟨h1, h2, put_law (P := Rotation.Checked) _ h3 (rotationBad_checked ?_ e), h4, h5, h6, h7, h8, h9, h10, h11⟩
        simp only [requiredLength] at hl
        split at hl
        · simp only [Option.some.injEq] at hl
          rw [fld_map_toNat, List.length_drop, List.length_map]
          omega
        · cases hl

/-- R111: LOAD SCENE, of parameters of the length it requires. -/
theorem loadSceneBody_tables (p : Fin 16) (ps : List Byte) (hl : requiredLength 22 ps = some ps.length) (h : s.TablesLaw) :
    (loadSceneBody p ps s).state.TablesLaw := by
  unfold loadSceneBody
  dsimp only
  split
  · exact h
  · split
    · exact h
    · split
      · exact h
      · next e =>
        obtain ⟨h1, h2, h3, h4, h5, h6, h7, h8, h9, h10, h11⟩ := h
        refine ⟨h1, put_law (P := fun x : Option Scene => ∀ y, x = some y → SceneChecked y) _ h2 ?_,
          h3, h4, h5, h6, h7, h8, h9, h10, h11⟩
        rintro y ⟨⟩
        simp only [requiredLength] at hl
        split at hl
        · simp only [Option.some.injEq] at hl
          refine sceneBad_checked ?_ e
          rw [fld_map_toNat, List.length_drop, List.length_map]
          omega
        · cases hl

/-- R112: ERASE SCENE. -/
theorem eraseSceneBody_tables (p : Fin 16) (ps : List Byte) (h : s.TablesLaw) :
    (eraseSceneBody p ps s).state.TablesLaw := by
  unfold eraseSceneBody
  dsimp only
  split
  · exact h
  · split
    · exact h
    · obtain ⟨h1, h2, h3, h4, h5, h6, h7, h8, h9, h10, h11⟩ := h
      exact ⟨h1, put_law (P := fun x : Option Scene => ∀ y, x = some y → SceneChecked y) _ h2 (by rintro y ⟨⟩),
        h3, h4, h5, h6, h7, h8, h9, h10, h11⟩

/-- R128: entries written from an address on. -/
theorem writeCues_tables (l : List CueEntry) (a : Nat) (hl : ∀ e ∈ l, e.Checked) (h : s.TablesLaw) :
    (State.writeCues a l s).TablesLaw := by
  induction l generalizing a s with
  | nil => exact h
  | cons e t ih =>
    refine ih _ (fun x hx => hl x (List.mem_cons_of_mem _ hx)) ?_
    obtain ⟨h1, h2, h3, h4, h5, h6, h7, h8, h9, h10, h11⟩ := h
    exact ⟨h1, h2, h3, put_law (P := CueEntry.Checked) _ h4 (hl e List.mem_cons_self), h5, h6, h7, h8, h9, h10, h11⟩

/-- R128: LOAD CUES. -/
theorem loadCuesBody_tables (p : Fin 16) (ps : List Byte) (h : s.TablesLaw) : (loadCuesBody p ps s).state.TablesLaw := by
  unfold loadCuesBody
  dsimp only
  split
  · exact h
  · split
    · exact h
    · split
      · exact h
      · next e =>
        refine writeCues_tables _ _ (fun x hx => ?_) h
        obtain ⟨f, hf, rfl⟩ := List.mem_map.1 hx
        refine entryOfFields_checked ?_ ?_
        · unfold cueFields at hf
          obtain ⟨b, -, rfl⟩ := List.mem_map.1 hf
          exact splitFields_length _ _
        · rw [firstBad_eq_none] at e ⊢
          exact fun b hb => e b (List.mem_flatMap.2 ⟨f, hf, hb⟩)

/-- R152: SET ALARM. -/
theorem setAlarmBody_tables (p : Fin 16) (ps : List Byte) (h : s.TablesLaw) : (setAlarmBody p ps s).state.TablesLaw := by
  unfold setAlarmBody
  dsimp only
  split
  · exact h
  · next e =>
    split
    · exact h
    · obtain ⟨h1, h2, h3, h4, h5, h6, h7, h8, h9, h10, h11⟩ := h
      exact ⟨h1, h2, h3, h4, put_law (P := Alarm.Checked) _ h5 (alarmOf_checked e), h6, h7, h8, h9, h10, h11⟩

/-- R154: SET TRIGGER. -/
theorem setTriggerBody_tables (p : Fin 16) (ps : List Byte) (h : s.TablesLaw) :
    (setTriggerBody p ps s).state.TablesLaw := by
  unfold setTriggerBody
  dsimp only
  split
  · exact h
  · next e =>
    split
    · exact h
    · obtain ⟨h1, h2, h3, h4, h5, h6, h7, h8, h9, h10, h11⟩ := h
      exact ⟨h1, h2, h3, h4, h5, put_law (P := fun a : Trigger => a.address ≤ 1023) _ h6 (triggerOf_address e),
        h7, h8, h9, h10, h11⟩

/-- R167: RESTART keeps the tables. -/
@[simp] theorem restartBlocks_stored (p : Fin 16) : (s.restartBlocks p).stored = s.stored := by
  unfold State.restartBlocks
  dsimp only
  rw [raiseAttention_stored, abandonSave_stored, ← abortJob_stored (t := s)]
  generalize s.abortJob = u
  unfold State.stored
  simp only [Stored.mk.injEq, true_and]
  refine ⟨table_ext fun i => ?_, table_ext fun c => ?_⟩
  · rw [mapTable_get, mapTable_get, ofFn_get]
    unfold Source.restart
    (repeat' split) <;> rfl
  · rw [mapTable_get, mapTable_get, mapTable_get]
    unfold Screen.restart
    rfl

/-! ### The end of start-up (R176) -/

/-- Records cut by sizes of their own have those sizes. -/
theorem splitRecords_size {head : Nat} {size : List Byte → Nat} {n : Nat} {bs : List Byte} {l : List (List Byte)}
    (hz : ∀ x rest : List Byte, head ≤ x.length → size (x ++ rest) = size x) (hs : ∀ x, head ≤ size x)
    (h : splitRecords head size n bs = some l) : ∀ x ∈ l, x.length = size x := by
  induction n generalizing bs l with
  | zero =>
    unfold splitRecords at h
    split at h <;> cases h
    simp
  | succ n ih =>
    unfold splitRecords at h
    split at h
    · cases h
    · rw [Option.map_eq_some_iff] at h
      obtain ⟨r, hr, rfl⟩ := h
      intro x hx
      rcases List.mem_cons.1 hx with rfl | hx
      · have hl : (bs.take (size bs)).length = size bs := by
          rw [List.length_take]
          omega
        have k := hz (bs.take (size bs)) (bs.drop (size bs)) (hl.symm ▸ hs _)
        rw [List.take_append_drop] at k
        rw [hl]
        exact k
      · exact ih hr x hx

/-- Records cut from bytes are as many as asked for. -/
theorem splitRecords_length {head : Nat} {size : List Byte → Nat} {n : Nat} {bs : List Byte} {l : List (List Byte)}
    (h : splitRecords head size n bs = some l) : l.length = n := by
  induction n generalizing bs l with
  | zero =>
    unfold splitRecords at h
    split at h <;> cases h
    rfl
  | succ n ih =>
    unfold splitRecords at h
    split at h
    · cases h
    · rw [Option.map_eq_some_iff] at h
      obtain ⟨r, hr, rfl⟩ := h
      rw [List.length_cons, ih hr]

/-- Each scene record of a valid image has the length that its count gives. -/
theorem validImage_scenes {f : Flash} {b : Bool} {im : Image} (h : validImage b f = some im) (n : Fin 32) :
    ((im.scenes.getD n.val []).drop 1).length = 2 * (byteAt (im.scenes.getD n.val []) 0).toNat := by
  obtain ⟨content, hc⟩ : ∃ content, parseContent content = some im := by
    unfold validImage at h
    dsimp only at h
    split at h
    · split at h
      · exact ⟨_, h⟩
      · cases h
    · cases h
  obtain ⟨body, hb⟩ : ∃ body, sceneRecords body = some im.scenes := by
    unfold parseContent at hc
    split at hc
    · cases hc
    · split at hc
      · split at hc
        · next e =>
          cases hc
          exact ⟨_, e⟩
        · cases hc
      · cases hc
  have size := splitRecords_size (fun x rest hx => by
    cases x with
    | nil => simp at hx
    | cons a t => rfl) (fun x => by omega) hb
  have count := splitRecords_length hb
  have m : im.scenes.getD n.val [] ∈ im.scenes := by
    rw [List.getD_eq_getElem?_getD, List.getElem?_eq_getElem (by omega)]
    exact List.getElem_mem _
  have k := size _ m
  rw [List.length_drop]
  omega

/-- R176 steps 1 and 2: what a valid image gives keeps the law. -/
theorem restoreTables_tables {f : Flash} {b : Bool} {im : Image} (hv : validImage b f = some im) :
    (s.restoreTables im).TablesLaw := by
  have r := restoreTables_rest im s
  have sc := restoreTables_screens im s
  generalize s.restoreTables im = w at r sc
  have e1 : w.library = _ := r.library
  have e2 : w.scenes = _ := r.scenes
  have e3 : w.rotations = _ := r.rotations
  have e4 : w.cues = _ := r.cues
  have e5 : w.alarms = _ := r.alarms
  have e6 : w.triggers = _ := r.triggers
  have e7 : w.ramp = _ := r.ramp
  have e8 : w.rateA = _ := r.rateA
  have e9 : w.rateB = _ := r.rateB
  have e10 : w.sources = _ := r.sources
  refine ⟨fun e l hl => ?_, fun n x hx => ?_, fun k => ?_, fun a => ?_, fun n => ?_, fun n => ?_, ?_, ?_, ?_, fun i => ?_,
    fun c => ?_⟩
  · rw [e1, ofFn_get] at hl
    unfold storedLayout at hl
    dsimp only at hl
    split at hl
    · next k =>
      cases hl
      exact ⟨_, k.1, Option.isNone_iff_eq_none.1 k.2, rfl⟩
    · cases hl
  · rw [e2, ofFn_get] at hx
    unfold storedScene at hx
    dsimp only at hx
    split at hx
    · next k =>
      cases hx
      exact sceneBad_checked (by rw [List.length_map, validImage_scenes hv n]) (Option.isNone_iff_eq_none.1 k)
    · cases hx
  · rw [e3, ofFn_get]
    unfold storedRotation
    dsimp only
    split
    · next k =>
      exact rotationBad_checked (by rw [List.length_map, List.length_take]; omega) (Option.isNone_iff_eq_none.1 k)
    · decide
  · rw [e4, ofFn_get]
    unfold storedCue
    dsimp only
    split
    · next k => exact entryOfFields_checked (splitFields_length _ _) (Option.isNone_iff_eq_none.1 k)
    · decide
  · rw [e5, ofFn_get]
    unfold storedAlarm
    dsimp only
    split
    · next k => exact alarmOf_checked (Option.isNone_iff_eq_none.1 k)
    · decide
  · rw [e6, ofFn_get]
    unfold storedTrigger
    dsimp only
    split
    · next k => exact triggerOf_address (Option.isNone_iff_eq_none.1 k)
    · decide
  · rw [e7]
    unfold storedRamp
    dsimp only
    split
    · next k => exact rampOf_le (Option.isNone_iff_eq_none.1 k)
    · exact rampAtPowerOn_le
  · rw [e8]
    exact storedRate_mem (by decide)
  · rw [e9]
    exact storedRate_mem (by decide)
  · rw [e10, ofFn_get]
    dsimp only
    unfold storedParams
    dsimp only
    split
    · next k => exact paramsOf_checked (Option.isNone_iff_eq_none.1 k)
    · decide
  · rw [sc]
    show 40 ≤ (storedSettings _).width ∧ (storedSettings _).width ≤ 240 ∧ 12 ≤ (storedSettings _).height ∧
      (storedSettings _).height ≤ 68
    unfold storedSettings
    dsimp only
    split
    · next k => exact settingsOf_sized (Option.isNone_iff_eq_none.1 k)
    · decide

/-- R176: the end of start-up keeps the law. -/
theorem endStartUp_tables (h : s.TablesLaw) : s.endStartUp.TablesLaw := by
  unfold State.endStartUp
  split
  · split
    · next e => exact tablesLaw_congr (settleStart_stored _) (restoreTables_tables e)
    · exact tablesLaw_congr (settleStart_stored _) h
  · exact h
  · exact h

end Sys2Proof.Machine
end

