-- ==== Sys2Proof/Laws/Ticks.lean ====
section
/-! SUPPORT. What a tick, a swap and a disable of a screen come to: the moves of holds (R44, R45, R81, R82), the stages of a
tick (05 section 5.4), and the job's next load or its arming. -/

namespace Sys2Proof.Machine

/-! ### Holds (R44, R45) -/

/-- RELEASE changes slots alone. -/
theorem releaseOpt_rest (k : Option (Fin 64)) (s : State) : { s.releaseOpt k with slots := s.slots } = s := by
  cases k <;> rfl

/-- The slots after RELEASE are read from the slots. -/
theorem releaseOpt_congr (k : Option (Fin 64)) {s t : State} (h : s.slots = t.slots) :
    (s.releaseOpt k).slots = (t.releaseOpt k).slots := by
  cases k with
  | none => exact h
  | some k =>
    show put s.slots k _ = put t.slots k _
    rw [h]

/-- Two changes of slots alone. -/
theorem slots_rest {s t u : State} (h : { t with slots := s.slots } = s) (k : { u with slots := t.slots } = t) :
    { u with slots := s.slots } = s := by
  have e := congrArg (fun v : State => { v with slots := s.slots }) k
  exact e.trans h

/-- R81: the move of a latch changes slots alone. -/
theorem moveLatch_rest (a b : Option (Fin 64)) (s : State) : { s.moveLatch a b with slots := s.slots } = s := by
  unfold State.moveLatch
  split
  · rfl
  · cases b with
    | none => exact releaseOpt_rest a s
    | some k => exact slots_rest (s := s) (t := s.latch k) rfl (releaseOpt_rest a _)

/-- A fold whose steps change slots alone. -/
theorem foldl_rest {α : Type} {g : State → α → State} (h : ∀ s a, { g s a with slots := s.slots } = s) (l : List α) (s : State) :
    { l.foldl g s with slots := s.slots } = s := by
  induction l generalizing s with
  | nil => rfl
  | cons a l ih => exact slots_rest (h s a) (ih (g s a))

/-- R81: the latch stage of a window changes slots alone. -/
theorem moveWindow_rest (s : State) (x : LiveWindow × LiveWindow) : { s.moveWindow x with slots := s.slots } = s :=
  slots_rest (moveLatch_rest _ _ s) (moveLatch_rest _ _ _)

/-- R82: the end of a dissolve changes slots alone. -/
theorem releaseEnded_rest (s : State) (w : LiveWindow) : { s.releaseEnded w with slots := s.slots } = s := by
  unfold State.releaseEnded
  split
  · exact releaseOpt_rest _ s
  · rfl

/-- R76, R90: the release of a context's latches changes slots alone. -/
theorem releaseWindows_rest (ws : List LiveWindow) (s : State) : { s.releaseWindows ws with slots := s.slots } = s := by
  induction ws generalizing s with
  | nil => rfl
  | cons w ws ih => exact slots_rest (slots_rest (releaseOpt_rest _ s) (releaseOpt_rest _ _)) (ih _)

/-- R76, R90: the slots after it are read from the slots. -/
theorem releaseWindows_congr (ws : List LiveWindow) {s t : State} (h : s.slots = t.slots) :
    (s.releaseWindows ws).slots = (t.releaseWindows ws).slots := by
  induction ws generalizing s t with
  | nil => exact h
  | cons w ws ih => exact ih (releaseOpt_congr _ (releaseOpt_congr _ h))

/-! ### The legs of a window (R77, R78, R80) -/

/-- R80: a slot that is to be shown, through the scale check. -/
theorem scaleLeg_shown {s : State} {w : Window} {k : Fin 64} {st : RenderStatus} {l : Leg} (h : l = s.scaleLeg w ⟨some k, st⟩) :
    ((s.slots[k].picture.all fun y => scaleFits w y.format) = true → l.slot = some k ∧ l.status = st) ∧
    ((s.slots[k].picture.all fun y => scaleFits w y.format) = false → l.slot = none ∧ l.status = .scaleOutOfRange) := by
  subst h
  unfold State.scaleLeg
  dsimp only
  constructor <;> intro h <;> rw [h] <;> exact ⟨rfl, rfl⟩

/-- R78: the slate colour passes the scale check. -/
theorem scaleLeg_slate {s : State} {w : Window} {l : Leg} (h : l = s.scaleLeg w ⟨none, .slateFallback⟩) :
    l.slot = none ∧ l.status = .slateFallback := by
  subst h
  exact ⟨rfl, rfl⟩

/-- R77: what makes a source resolve to nothing. -/
theorem resolve_none {s : State} {source : Nat}
    (h : (source < 16 ∧ s.eligible (Fin.ofNat 16 source) = false) ∨
      (16 ≤ source ∧ s.stills[Fin.ofNat 4 (source - 16)] = none)) : s.resolve source = none := by
  unfold State.resolve State.feedSlot
  rcases h with ⟨a, b⟩ | ⟨a, b⟩
  · rw [if_pos a, b]
    rfl
  · rw [if_neg (by omega), b]
    rfl

/-! ### The stages after the swap (R77 to R85) -/

/-- A screen written twice. -/
theorem withScreen_withScreen (s : State) (c : Fin 24) (x y : Screen) :
    (s.withScreen c x).withScreen c y = s.withScreen c y := by
  unfold State.withScreen
  dsimp only
  rw [put_put]

/-- The screen written. -/
theorem withScreen_get (s : State) (c : Fin 24) (x : Screen) : (s.withScreen c x).screens[c] = x := put_same _ _ _

/-- R72: a tick taken marks nothing. -/
theorem setScreen_ticksDue (s : State) (c : Fin 24) (n : Nat) :
    s.setScreen c { s.screens[c] with ticksDue := n } = s.withScreen c { s.screens[c] with ticksDue := n } :=
  setScreen_of_same rfl rfl

/-- R77 to R85: the stages and the picture. -/
theorem composeStages_composed {s : State} {c : Fin 24} {x : Context} (h : s.screens[c].active = some x) :
    TickComposed s ((s.composeStages c x).emitFrame c) c x := by
  obtain ⟨v, hv⟩ : ∃ v, v = (x.windows.map s.stageWindow).foldl State.releaseEnded
      ((x.windows.zip (x.windows.map s.stageWindow)).foldl State.moveWindow s) := ⟨_, rfl⟩
  have rest : { v with slots := s.slots } = s := by
    rw [hv]
    exact slots_rest (foldl_rest moveWindow_rest _ s) (foldl_rest releaseEnded_rest _ _)
  have hs : v.screens = s.screens := by
    have k := congrArg State.screens rest
    exact k
  obtain ⟨y, hy⟩ : ∃ y : Screen, y = { s.screens[c] with
      active := some { x with windows := (x.windows.map s.stageWindow).map fun w => stepPulse (stepDissolve w) } } := ⟨_, rfl⟩
  have e : s.composeStages c x = v.withScreen c y := by
    have k : s.composeStages c x = v.setScreen c y := by
      rw [hv, hy]
      unfold State.composeStages
      dsimp only
      rw [← hv, hs]
    rw [k]
    refine setScreen_of_same ?_ ?_
    · rw [hs, hy]
      unfold Screen.state
      dsimp only
      rw [h]
      rfl
    · rw [hs, hy]
  obtain ⟨f, hf⟩ : ∃ f, f = (v.withScreen c y).frameOf c := ⟨_, rfl⟩
  have e2 : (s.composeStages c x).emitFrame c = v.withScreen c { y with output := some f } := by
    rw [e]
    unfold State.emitFrame
    rw [withScreen_get, ← hf, setScreen_of_same (by rw [withScreen_get]; rfl) (by rw [withScreen_get]),
      withScreen_withScreen]
  rw [e2]
  refine ⟨?_, ?_, ?_, ?_⟩
  · rw [← hv]
    rfl
  · rw [withScreen_get]
    show put v.screens c _ = _
    rw [hs, hy]
  · rw [withScreen_get, hf]
    unfold State.frameOf
    rw [withScreen_get, withScreen_get]
    rfl
  · have k := congrArg (fun u : State => { u with screens := s.screens }) rest
    exact k

/-! ### The offer of the engine touches no active context (R125) -/

section
variable (s : State)

/-- The active contexts of the screens. -/
def State.actives (s : State) : Vector (Option Context) 24 := mapTable Screen.active s.screens

/-- A standby written. -/
theorem setStandby_actives (c : Fin 24) (b : Standby) : (s.setStandby c b).actives = s.actives := by
  refine table_ext fun d => ?_
  unfold State.actives State.setStandby
  rw [mapTable_get, mapTable_get, State.setScreen_screens, put_get]
  split
  · next e => rw [e]
  · rfl

/-- Screens that are the same. -/
theorem actives_congr {s t : State} (h : s.screens = t.screens) : s.actives = t.actives := congrArg (mapTable Screen.active) h

/-- R117: the arming. -/
theorem armJob_actives (j : Job) : (s.armJob j).actives = s.actives := by
  unfold State.armJob
  refine (actives_congr (t := j.members.foldl State.armMember s) (by simp)).trans
    (foldl_keeps State.actives State.armMember (fun s m => ?_) j.members s)
  unfold State.armMember
  split
  · exact setStandby_actives s _ _
  all_goals rfl

/-- R116, R117. -/
theorem advanceLoading_actives : s.advanceLoading.actives = s.actives := by
  unfold State.advanceLoading
  split
  · rfl
  · split
    · exact actives_congr (by simp)
    · split
      · exact actives_congr (by simp)
      · exact armJob_actives s _

/-- R115: the acceptance of a REVERT. -/
theorem acceptRevert_actives (q : Requester) (cs : List (Fin 24)) : (s.acceptRevert q cs).actives = s.actives := by
  have k : ((cs.map s.revertMember).foldl State.armPrevious s).actives = s.actives := by
    refine foldl_keeps State.actives State.armPrevious (fun s m => ?_) _ s
    unfold State.armPrevious
    split
    · split
      · exact setStandby_actives s _ _
      · rfl
    all_goals rfl
  unfold State.acceptRevert State.newJob
  dsimp only
  generalize (cs.map s.revertMember).foldl State.armPrevious s = u at k ⊢
  rw [← k]
  exact actives_congr (by simp)

/-- R114, R115, R124: the acceptance of a take. -/
theorem accept_actives {s u : State} {q : Requester} {take : Take} (h : s.accept q take = .ok u) : u.actives = s.actives := by
  have members : ∀ (kind : JobKind) (ms : Scene), s.acceptMembers kind q ms = .ok u → u.actives = s.actives :=
    fun kind ms k => by
      unfold State.acceptMembers at k
      split at k
      · cases k
      · cases k
        rw [advanceLoading_actives]
        exact actives_congr (by simp)
  unfold State.accept at h
  cases take with
  | scene n w =>
    dsimp only at h
    split at h
    · cases h
    · exact members _ _ h
  | layout c e w => exact members _ _ h
  | revert c w =>
    cases h
    exact acceptRevert_actives s q [c]

/-- R125: the offer. -/
theorem offerEngine_actives : s.offerEngine.actives = s.actives := by
  refine foldl_keeps State.actives _ (fun s r => ?_) _ s
  unfold State.offerTo
  split
  · rfl
  · split
    · unfold State.submitTake
      split
      · exact actives_congr (by simp)
      · next u h =>
        refine Eq.trans ?_ (accept_actives h)
        (repeat' split) <;> exact actives_congr (by simp)
    · rfl

/-- R125: the active context of one screen. -/
theorem offerEngine_active (c : Fin 24) : s.offerEngine.screens[c].active = s.screens[c].active := by
  have k := congrArg (fun v : Vector (Option Context) 24 => v[c]) (offerEngine_actives s)
  simpa only [State.actives, mapTable_get] using k

end

/-! ### The swap (R76) -/

/-- R76: the contexts change places, and the latches of the one that leaves are released; then the engine is told. -/
theorem swapContexts_same (s : State) (c : Fin 24) (y : Context) : ∃ v : State, s.swapContexts c y = v.memberSwapped c ∧
    SameButMarks v { s.withScreen c (s.screens[c].swapped y) with
      slots := (s.releaseWindows ((s.screens[c].active.map (·.windows)).getD [])).slots } := by
  unfold State.swapContexts Screen.swapped
  cases h : s.screens[c].active with
  | none => exact ⟨_, rfl, setScreen_same _ _ _⟩
  | some x =>
    refine ⟨_, rfl, (setScreen_same _ _ _).trans (SameButMarks.of_eq ?_)⟩
    have hs : (s.releaseWindows x.windows).screens = s.screens := by simp
    rw [hs]
    have k := congrArg (fun u : State => { u.withScreen c { s.screens[c] with
      active := some y, standby := .previous (x.mapWindows reduceWindow) } with slots := (s.releaseWindows x.windows).slots })
      (releaseWindows_rest x.windows s)
    exact k

/-! ### The SWAPPED report (R118) -/

/-- A screen that is a PENDING member of the job in progress. -/
theorem currentJob_of_pendingMember {s : State} {c : Fin 24} {j : Job} (hj : s.job = some j) (h : s.pendingMember c = true) :
    s.currentJob = some j ∧ ∃ m ∈ j.members, m.screen = c ∧ m.outcome = .pending := by
  unfold State.pendingMember at h
  cases hc : s.currentJob with
  | none =>
    rw [hc] at h
    cases h
  | some k =>
    obtain rfl : k = j := Option.some.inj ((currentJob_some.1 hc).1.symm.trans hj)
    rw [hc] at h
    refine ⟨rfl, ?_⟩
    simpa using h

/-- R118: a screen that is no PENDING member reports nothing. -/
theorem memberSwapped_other {s : State} {c : Fin 24} (h : s.pendingMember c = false) : s.memberSwapped c = s := by
  unfold State.memberSwapped
  split
  · rfl
  · rw [if_neg (by rw [h]; exact Bool.false_ne_true)]

/-- R118, R119: the report of a PENDING member, with members PENDING after it and with none. -/
theorem memberSwapped_pending {s u : State} {c : Fin 24} {j : Job} (hs : SameButMarks s u) (hj : u.job = some j)
    (h : u.pendingMember c = true) :
    ((∃ m ∈ j.members.map (Member.swap c), m.outcome = .pending) → SameButMarks (s.memberSwapped c) { u with
      job := some { j with
        members := j.members.map (Member.swap c), phase := if j.phase = .armed then .swapping else j.phase } }) ∧
    ((∀ m ∈ j.members.map (Member.swap c), m.outcome ≠ .pending) →
      ∀ result : JobResult, result =
        (if ∀ m ∈ j.members.map (Member.swap c), m.outcome = .swapped then .complete else .partialResult) →
      ∃ v : State, s.memberSwapped c = v.offerEngine ∧ SameButMarks v { u with
        job := some { j with members := j.members.map (Member.swap c), phase := .done, result := some result }
        runners := Vector.ofFn fun q => u.runners[q].handed j result q }) := by
  obtain ⟨hc, _⟩ := currentJob_of_pendingMember hj h
  have phase : j.phase ≠ .done := (currentJob_some.1 hc).2
  obtain ⟨k, hk⟩ : ∃ k : Job, k = { j with
    members := j.members.map (Member.swap c), phase := if j.phase = .armed then .swapping else j.phase } := ⟨_, rfl⟩
  have km : k.members = j.members.map (Member.swap c) := by rw [hk]
  have kp : k.phase ≠ .done := by
    rw [hk]
    dsimp only
    split
    · exact nofun
    · exact phase
  obtain ⟨w, hw⟩ : ∃ w, w = s.setJob k := ⟨_, rfl⟩
  have ww : SameButMarks w { u with job := some k } := by
    rw [hw]
    exact (setJob_same _ _).trans (hs.withJob _)
  have wc : w.currentJob = some k := currentJob_some.2 ⟨ww.job, kp⟩
  have e : s.memberSwapped c = w.settle.offerEngine := by
    unfold State.memberSwapped
    rw [hs.currentJob, hc]
    dsimp only
    rw [hs.pendingMember, if_pos h, hw, hk]
  rw [← km, e]
  constructor
  · rintro ⟨m, hm, ho⟩
    rw [settle_of_pending wc (List.any_eq_true.2 ⟨m, hm, by simp [ho]⟩),
      offerEngine_of_busy (by rw [ww.engineBusy]; exact engineBusy_of rfl kp)]
    rw [hk] at ww
    rw [hk]
    exact ww
  · intro hp result hr
    refine ⟨w.settle, rfl, ?_⟩
    rw [settle_done wc hp]
    have f := finishJob_same false k w
    rw [resultOf_false, ← hr, ww.runners] at f
    refine f.trans ?_
    have g := ww.with (fun v => { v with
      job := some { k with phase := .done, result := some result }
      runners := Vector.ofFn fun q => u.runners[q].handed k result q }) fun _ _ => rfl
    refine g.trans (SameButMarks.of_eq ?_)
    rw [hk]
    rfl

/-! ### The next load, or the arming (R116, R117) -/

/-- R116: while the job is not LOADING, or a load is IN PROGRESS, no load begins. -/
theorem advanceLoading_waits {s : State} {j : Job} (h : s.currentJob = some j)
    (hw : j.phase ≠ .loading ∨ ∃ m ∈ j.members, m.loadIs .inProgress = true) : s.advanceLoading = s.settle := by
  unfold State.advanceLoading
  rw [h]
  dsimp only
  rw [if_pos]
  rcases hw with hw | ⟨m, hm, ho⟩
  · exact .inl hw
  · exact .inr (List.any_eq_true.2 ⟨m, hm, ho⟩)

/-- R116: the next load begins. -/
theorem advanceLoading_begins {s : State} {j : Job} (h : s.currentJob = some j) (hp : j.phase = .loading)
    (hn : ∀ m ∈ j.members, m.loadIs .inProgress = false) {before rest : List Member} {m : Member}
    (hj : j.members = before ++ m :: rest) (hb : ∀ y ∈ before, y.loadIs .notBegun = false) (hm : m.loadIs .notBegun = true) :
    s.advanceLoading = s.setJob { j with members := before ++ { m with load := some .inProgress } :: rest } := by
  unfold State.advanceLoading
  rw [h]
  dsimp only
  rw [if_neg, hj, beginIn_first hb hm]
  rintro (a | a)
  · exact a hp
  · obtain ⟨y, hy, ho⟩ := List.any_eq_true.1 a
    rw [hn y hy] at ho
    cases ho

/-- R117: with no load to begin or to complete, every LOADED standby of a member is ARMED, and so is the job. -/
theorem advanceLoading_arms {s : State} {j : Job} (h : s.currentJob = some j) (hp : j.phase = .loading)
    (hn : ∀ m ∈ j.members, m.loadIs .inProgress = false ∧ m.loadIs .notBegun = false) : ∃ v : State,
    s.advanceLoading = v.settle ∧ SameButMarks v { s with
      screens := Vector.ofFn fun d => s.screens[d].armedIn (j.members.map (·.screen)) d
      job := some { j with phase := .armed } } := by
  refine ⟨(j.members.foldl State.armMember s).setJob { j with phase := .armed }, ?_,
    (setJob_same _ _).trans ((armMembers_same _ _).withJob _)⟩
  unfold State.advanceLoading
  rw [h]
  dsimp only
  rw [if_neg, beginIn_none fun y hy => (hn y hy).2]
  · rfl
  · rintro (a | a)
    · exact a hp
    · obtain ⟨y, hy, ho⟩ := List.any_eq_true.1 a
      rw [(hn y hy).1] at ho
      cases ho

/-! ### The disable of a member screen (R120) -/

/-- R90: every latch of the active context is released, and the screen is DISABLED; then the engine is told. -/
theorem disableScreen_same (s : State) (c : Fin 24) : ∃ v : State, s.disableScreen c = v.memberDisabled c ∧
    SameButMarks v { s.withScreen c { s.screens[c] with
      enabled := false
      active := s.screens[c].active.map (Context.mapWindows darkenWindow)
      ticksDue := 0
      output := none } with
      slots := (s.releaseWindows ((s.screens[c].active.map (·.windows)).getD [])).slots } := by
  unfold State.disableScreen
  cases h : s.screens[c].active with
  | none =>
    dsimp only
    rw [h]
    exact ⟨_, rfl, setScreen_same _ _ _⟩
  | some x =>
    refine ⟨_, rfl, (setScreen_same _ _ _).trans (SameButMarks.of_eq ?_)⟩
    have hs : (s.releaseWindows x.windows).screens = s.screens := by simp
    rw [hs, h]
    have k := congrArg (fun u : State => { u.withScreen c { s.screens[c] with
      enabled := false
      active := some (x.mapWindows darkenWindow)
      ticksDue := 0
      output := none } with slots := (s.releaseWindows x.windows).slots }) (releaseWindows_rest x.windows s)
    exact k

/-- R120: the disable of a screen that is no PENDING member changes nothing in the job. -/
theorem memberDisabled_other {s : State} {c : Fin 24} (h : s.pendingMember c = false) : s.memberDisabled c = s := by
  unfold State.memberDisabled
  split
  · rfl
  · rw [if_neg (by rw [h]; exact Bool.false_ne_true)]

/-- R120: the disable of a PENDING member skips it and empties its standby; the job then goes on, and an engine left IDLE is
offered on. -/
theorem memberDisabled_pending {s u : State} {c : Fin 24} {j : Job} (hs : SameButMarks s u) (hj : u.job = some j)
    (h : u.pendingMember c = true) : ∃ v : State, s.memberDisabled c = v.advanceLoading.offerEngine ∧
      SameButMarks v { u.withScreen c { u.screens[c] with standby := u.screens[c].standby.emptied } with
        job := some { j with members := j.members.map (Member.skip c) } } := by
  obtain ⟨hc, _⟩ := currentJob_of_pendingMember hj h
  unfold State.memberDisabled
  rw [hs.currentJob, hc]
  dsimp only
  rw [hs.pendingMember, if_pos h]
  have w := (setJob_same { j with members := j.members.map (Member.skip c) } s).trans (hs.withJob _)
  generalize s.setJob { j with members := j.members.map (Member.skip c) } = t at w ⊢
  refine ⟨_, rfl, ?_⟩
  have kept : u.screens[c].standby.emptied = u.screens[c].standby →
      SameButMarks t { u.withScreen c { u.screens[c] with standby := u.screens[c].standby.emptied } with
        job := some { j with members := j.members.map (Member.skip c) } } := fun e => by
    rw [e, withScreen_self]
    exact w
  rw [w.screens]
  dsimp only
  cases b : u.screens[c].standby with
  | loaded x => exact setStandby_same c _ w
  | armed x => exact setStandby_same c _ w
  | empty =>
    rw [b] at kept
    exact kept rfl
  | previous x =>
    rw [b] at kept
    exact kept rfl

end Sys2Proof.Machine
end

