-- ==== Sys2Proof/Tests/Slice0.lean ====
section
/-! SUPPORT. Tests on small states: well-formedness, single steps, and for every obligation with hypotheses a witness
that meets them, clause by clause, at the ends of their ranges. -/

open Sys2Proof Sys2Proof.Machine

namespace Sys2Proof.Tests

set_option Elab.async false

/-! ### Small states -/

/-- The part after start-up without an image, the store IDLE. -/
def idle : State := { State.reset with store := ⟨.idle, .none, .erased⟩ }

/-- The part with a save in flight. -/
def saving (stage : SaveStage) (image : List Byte) : State :=
  { State.reset with store := ⟨.saving stage image, .none, .erased⟩ }

/-- A request with tag 7. -/
def request (code : Byte) (ps : List Byte) : Request := ⟨7, code, ps⟩

/-- A state in which a request stands in the queue of F0, which holds FULL. -/
def asks (s : State) (code : Byte) (ps : List Byte) : State := s.withPort 0 { s.ports[0] with queue := [request code ps] }

/-- A state in which the request passes the tests before the owning block. -/
abbrev served (s : State) (code : Byte) (ps : List Byte) : Prop :=
  (asks s code ps).Serves code.toNat 0 (request code ps)

/-- A state with F0 at OBSERVE. -/
def observing (s : State) : State := s.withPort 0 { s.ports[0] with grant := .observe }

/-- A 40 by 12 picture format. -/
def small : Format := ⟨40, 12, 60⟩

/-- A 40 by 12 window of source 0 with a border. -/
def pane : Window := ⟨0, 0, 0, 0, 12, 40, 0, some 1, none, .slate, 0, none, .cut, false, 0⟩

/-- A layout of that window. -/
def paneLayout : Layout := ⟨[], 0, [pane], 56⟩

/-- The layout's serialized record, with its check of 56. -/
def paneRecord : List Byte := [0, 0, 1, 0, 56, 0, 0, 0, 0, 12, 40, 0, 1, 1, 0, 0, 0, 1, 0, 0, 0, 0, 0, 0, 0]

/-- The window as a context holds it. -/
def livePane : LiveWindow := liveWindow pane

/-- A context of the layout. -/
def paneContext : Context := contextOf 0 paneLayout

/-- A slot with a picture of source i. -/
def slotOf (state : SlotState) (i : Fin 16) (holds : Nat) : Slot := ⟨state, some ⟨i, 5, small⟩, holds, []⟩

/-- A QUALIFIED source. -/
def qualified : Source := { Source.powerOn with state := .qualified, format := some small, stale := some 200 }

/-- S0 QUALIFIED with slot 0 READY, and screen 0 SHOWING the context given. -/
def shows (x : Context) : State :=
  ((idle.withSource 0 qualified).withSlot 0 (slotOf .ready 0 0)).withScreen 0 { Screen.powerOn with active := some x }

/-- Screen 0 SHOWING the pane. -/
def showing : State := shows paneContext

/-- A context with one window. -/
def contextWith (w : LiveWindow) : Context := { paneContext with windows := [w] }

/-- Runner 0 RUNNING at an entry 0 of the given kind and operands. -/
def runs (kind : CueKind) (op1 op2 op3 op4 : Nat) : State :=
  { idle.withRunner 0 (Runner.startedAt 0 .request) with cues := put idle.cues 0 ⟨kind, op1, op2, op3, op4, 0, 0⟩ }

/-- Runner 0 in the given state. -/
def runner (x : RunnerState) : State := idle.withRunner 0 { Runner.startedAt 0 .request with state := x }

/-- A LAYOUT job of screen 0 and layout 0. -/
def job (phase : Phase) (load : Load) (outcome : MemberOutcome) : Job :=
  ⟨1, .layout, .port 0, [⟨0, some 0, some load, outcome⟩], phase, none⟩

/-- F0 IN SYNC with its source ACQUIRING and the assembler as given. -/
def linked (a : Assembly) : State :=
  (idle.withPort 0 { idle.ports[0] with link := .inSync, silence := true, assembly := a }).withSource 0
    { Source.powerOn with state := .acquiring }

/-! ### Well-formed commands -/

theorem test_wellFormed_band :
    (Instr.bandCell 0 [1, 0, 0, 14, 12, 0, 5, 1, 0, 0, 0, 0, 0, 0]).wellFormed = true ∧
      (Instr.bandCell 0 [1, 0, 0, 14, 16, 0, 5, 1, 0, 0, 0, 0, 0, 0]).wellFormed = false := by decide +kernel

theorem test_wellFormed_control :
    (Instr.controlCell 0 [2, 0, 0, 8, 7, 6, 0, 0]).wellFormed = true ∧
      (Instr.controlCell 0 [2, 0, 0, 8, 7, 6, 0, 1]).wellFormed = false ∧
      (Instr.controlCellOutOfSync 0 [2, 0, 0, 8, 7, 6, 0, 0]).wellFormed = true ∧
      (Instr.controlCellOutOfSync 0 [3, 0, 0, 4]).wellFormed = false := by decide +kernel

theorem test_wellFormed_idle :
    (Instr.idleCell 0 [3, 0, 0, 4]).wellFormed = true ∧ (Instr.idleCell 0 [3, 0, 0, 5]).wellFormed = false := by
  decide +kernel

theorem test_wellFormed_malformed :
    (Instr.malformedCell 0 [3, 0, 0, 5]).wellFormed = true ∧ (Instr.malformedCell 0 [3, 0, 0, 4]).wellFormed = false := by
  decide +kernel

theorem test_wellFormed_readBack :
    (Instr.readBackComplete [(0, 1), (262143, 2)]).wellFormed = true ∧
      (Instr.readBackComplete [(1, 1), (1, 2)]).wellFormed = false ∧
      (Instr.readBackComplete [(262144, 1)]).wellFormed = false := by decide +kernel

/-! ### Formats and single steps -/

/-- The check value of the CRC-32 of R175. -/
theorem test_crc32 : crc32 [0x31, 0x32, 0x33, 0x34, 0x35, 0x36, 0x37, 0x38, 0x39] = 0xCBF43926#32 := by decide +kernel

theorem test_numbers : beNat [1, 2, 3] = 66051 ∧ byte4 66051 = [0, 1, 2, 3] ∧ byte2 65535 = [255, 255] := by decide

theorem test_layoutRoundTrip : recordBad paneRecord = none ∧ layoutOf paneRecord = paneLayout ∧
    paneLayout.bytes = paneRecord := by decide +kernel

theorem test_cueRoundTrip :
    entryOfFields (splitFields cueWidths (CueEntry.bytes ⟨.waitTime, 86399, 0, 0, 0, 0, 0⟩)) =
      ⟨.waitTime, 86399, 0, 0, 0, 0, 0⟩ := by decide +kernel

/-- A reply cell, byte by byte: kind 4, length 11, tag, code, DONE, wall fault code, result length, result. -/
theorem test_replyCell : replyCell 7 19 .done 3 [9] = [4, 0, 0, 11, 7, 19, 1, 3, 0, 1, 9] := by decide +kernel

theorem test_idleStep : step State.reset = .next State.reset := rfl

/-- A READ RAMP is answered with the power-on ramp on the port's return lane. -/
theorem test_readRamp : ∃ t, step { asks idle 20 [] with pending := [.readRamp] } = .next t ∧
    t.ports[0].lane = [replyCell 7 20 .done 0 [2, 4, 6, 8, 10, 12, 14, 16, 18, 20, 22, 24, 26, 28, 30, 32]] ∧
    t.ports[0].queue = [] := ⟨_, rfl, by decide +kernel⟩

/-- The end of a start-up without an image raises POWER-ON, IMAGE NOT VALID on every port. -/
theorem test_startUpEnd : ∃ t, step { State.reset with pending := [.startUpEnd] } = .next t ∧
    t.store.state = .idle ∧ t.ports[15].condition = some ⟨.powerOnEmpty, 0, 0⟩ := ⟨_, rfl, by decide +kernel⟩

/-- The pixel of a window that shows the slate, in the palette's colour 0, and its border in colour 1. -/
theorem test_slate : ∃ t, step { (shows (contextWith { livePane with current := 5 })).withScreen 0
      { Screen.powerOn with active := some (contextWith { livePane with current := 5 }), ticksDue := 1 } with
      pending := [.screenTick 0] } = .next t ∧
    (t.screens[0].output.map fun f => f.windows.map fun w => (w.main, w.border)) =
      some [(.colour 0, some 0xFFFF)] := ⟨_, rfl, by decide +kernel⟩

/-- A clean READY picture is latched at the tick, and the slot is held. -/
theorem test_latch : ∃ t, step { showing.withScreen 0 { Screen.powerOn with active := some paneContext, ticksDue := 1 }
      with pending := [.screenTick 0] } = .next t ∧
    t.slots[0].holds = 1 ∧ (t.activeWindows 0).map (·.latch) = [some 0] := ⟨_, rfl, by decide +kernel⟩

/-- The fault of a read-back that names a byte outside the area. -/
theorem test_outsideImageArea : step { idle with pending := [.readBackComplete [(262144, 0)]] } =
    .fault (.outsideImageArea 262144) := rfl

/-! ### Witnesses: the queue, power-on, feed ports -/

theorem witness_StepRunsTheFrontCommand : State.reset.pending = [] := rfl

/-- A flash that holds the image of the power-on tables. -/
def stored : Flash :=
  ⟨memWriteBytes [] 0 (imageHeader (imageContent State.reset) ++ imageContent State.reset), none, false⟩

/-- The image of the power-on tables is cut at its places. -/
theorem image_parses : (parseContent (imageContent State.reset)).isSome = true ∧ (imageContent State.reset).length = 16438 := by
  have cues : (State.reset.cues.toList.flatMap CueEntry.bytes).length = 15360 := by
    rw [flatMap_length (size := 15) fun x => by simp [CueEntry.bytes], Vector.length_toList]
  have lengths : (sectionBodies State.reset).map (·.length) = [256, 32, 136, 15360, 256, 64, 112, 144, 2, 16] := by
    unfold sectionBodies
    simp only [List.map_cons, List.map_nil, cues]
    decide +kernel
  have split : splitSections 10 1 (imageContent State.reset) = some (sectionBodies State.reset) := by
    refine splitSections_joinSections (sectionBodies State.reset) 1 (fun b h => ?_) (by decide)
    have k : b.length ∈ (sectionBodies State.reset).map (·.length) := List.mem_map_of_mem h
    rw [lengths] at k
    simp only [List.mem_cons, List.not_mem_nil, or_false] at k
    omega
  refine ⟨?_, ?_⟩
  · unfold parseContent
    rw [split]
    dsimp only
    rw [List.map_drop, lengths, if_pos (by decide)]
    decide +kernel
  · have sum : ∀ (k : Nat) (bodies : List (List Byte)),
        (joinSections k bodies).length = 6 * bodies.length + (bodies.map (·.length)).sum := fun k bodies => by
      induction bodies generalizing k with
      | nil => rfl
      | cons b rest ih =>
        simp only [joinSections, sectionBytes, List.length_append, byte1_length, byte4_length, ih, List.length_cons,
          List.length_nil, List.map_cons, List.sum_cons]
        omega
    unfold imageContent
    rw [sum, lengths]
    decide

/-- It is valid where it stands in the flash. -/
theorem stored_valid : (validImage true stored).isSome = true := by
  obtain ⟨h, k⟩ := image_parses
  have l : (imageHeader (imageContent State.reset) ++ imageContent State.reset).length =
      16 + (imageContent State.reset).length := by
    simp [imageHeader]
    omega
  rw [validImage_of (content := imageContent State.reset) rfl (by omega) (by rw [← l]; exact readBytes_programmed _ _)]
  exact h

theorem witness_PowerOnAndStartUp : State.reset.saving = false ∧ (saving .erasing [1]).saving = true ∧
    State.reset.store.state = .startUpLoad true ∧ (validImage true State.reset.store.flash).isNone = true ∧
    (∃ im, validImage true stored = some im) ∧ (Source.powerOn.started .inSync).state = .acquiring ∧
    (Source.powerOn.started .outOfSync).state = .down ∧
    ({ Source.powerOn with params := { SourceParams.powerOn with enable := false } }.started .inSync).state = .disabled ∧
    ({ Screen.powerOn with start := some 0 }.started (put State.reset.library 0 (some paneLayout))).state = .showing ∧
    ({ Screen.powerOn with start := some 0, width := 39 }.started (put State.reset.library 0 (some paneLayout))).state = .dark ∧
    idle.loading = false :=
  ⟨rfl, rfl, rfl, by decide +kernel, Option.isSome_iff_exists.1 stored_valid, rfl, rfl, rfl, by decide +kernel,
    by decide +kernel, rfl⟩

theorem witness_WellFormedCellsServeTheLink :
    (idle.ports[(1 : Fin 16)].link = .outOfSync ∧ classify [3, 0, 0, 4] ≠ .malformed) ∧
    (idle.withPort 1 { idle.ports[1] with goodRun := 6 }).ports[1].goodRun < 7 ∧
    7 ≤ (idle.withPort 1 { idle.ports[1] with goodRun := 7 }).ports[1].goodRun ∧
    (linked .idle).ports[0].link = .inSync ∧ classify [3, 0, 0, 4] = .idle := by decide +kernel

theorem witness_TheLinkIsLost : classify [3, 0, 0, 5] = .malformed ∧ idle.ports[1].link = .outOfSync ∧
    (linked .idle).ports[0].link = .inSync ∧ (linked .idle).ports[0].badRun < 3 ∧
    3 ≤ ((linked .idle).withPort 0 { (linked .idle).ports[0] with badRun := 3 }).ports[0].badRun ∧
    idle.ports[1].silence = false ∧ (linked .idle).ports[0].silence = true ∧
    (idle.withPort 1 { idle.ports[1] with silence := true }).ports[1].silence = true := by decide +kernel

/-- F0 in the middle of a picture in slot 1, its source QUALIFIED with slot 0 READY under the given holds. -/
def receiving (holds : Nat) : State :=
  (((linked (.assembling 1 5 small 1 false)).withSource 0 qualified).withSlot 0 (slotOf .ready 0 holds)).withSlot 1
    (slotOf .filling 0 0)

/-- The slots that a loss of sync leaves: the FILLING one FREE, the READY one RETIRED if held and FREE otherwise. -/
theorem test_linkLost :
    ∃ t u, step { receiving 2 with pending := [.silenceTimerExpiry 0] } = .next t ∧
      step { receiving 0 with pending := [.silenceTimerExpiry 0] } = .next u ∧
      t.slots[0] = slotOf .retired 0 2 ∧ t.slots[1] = Slot.empty ∧ u.slots[0] = Slot.empty ∧
      t.sources[0].state = .down := ⟨_, _, rfl, rfl, by decide +kernel⟩

/-- Sources that a loss of sync takes to DOWN, and sources that it leaves. -/
theorem witness_TheLinkIsLost_sources :
    (receiving 2).ports[0].link = .inSync ∧ (receiving 2).ports[0].silence = true ∧
    (receiving 2).sources[0].state ≠ .disabled ∧ (receiving 2).sources[0].state ≠ .down ∧
    (receiving 2).readySlot 0 = some 0 ∧
    ((receiving 2).withSource 0 { qualified with state := .disabled }).sources[0].state = .disabled ∧
    ((receiving 2).withSource 0 { qualified with state := .down }).sources[0].state = .down := by decide +kernel

theorem witness_ControlCellsAreQueued :
    classify [2, 0, 0, 8, 7, 6, 0, 0] = .control (request 6 []) ∧ (linked .idle).ports[0].link = .inSync ∧
    (linked .idle).ports[0].grant ≠ .none ∧ (linked .idle).loading = false ∧ (linked .idle).ports[0].queue.length < 4 ∧
    ({ linked .idle with store := State.reset.store }).loading = true ∧
    ((linked .idle).withPort 0 { (linked .idle).ports[0] with queue := List.replicate 3 (request 6 []) }).ports[0].queue.length < 4 ∧
    4 ≤ ((linked .idle).withPort 0 { (linked .idle).ports[0] with queue := List.replicate 4 (request 6 []) }).ports[0].queue.length ∧
    ((linked .idle).withPort 0 { (linked .idle).ports[0] with grant := .none }).ports[0].grant = .none := by
  decide +kernel

theorem witness_BandsAreWrittenOrDiscarded :
    let b : BandCell := ⟨false, false, 5, 1, none, [], 0⟩
    let s := linked (.assembling 0 5 small 1 false)
    classify [1, 0, 0, 14, 12, 0, 5, 1, 0, 0, 0, 0, 0, 0] = .band b ∧ s.ports[0].link = .inSync ∧ s.assembles 0 = true ∧
    s.ports[0].assembly = .assembling 0 5 small 1 false ∧ b.first = false ∧ b.index = 1 ∧ b.last = false ∧
    1 + 1 ≠ small.height ∧ (s.withSource 0 Source.powerOn).assembles 0 = false ∧
    (linked .idle).ports[0].assembly = .idle ∧ (linked .discarding).ports[0].assembly = .discarding ∧ b.index ≠ 0 := by
  decide +kernel

/-- A band of index 0 without the first-band mark, one out of sequence, one whose last mark disagrees, one with the
first-band mark and an index other than 0. -/
theorem witness_BandsAreWrittenOrDiscarded_gap :
    let s := linked (.assembling 0 5 small 1 false)
    s.ports[0].link = .inSync ∧ s.assembles 0 = true ∧ s.ports[0].assembly = .assembling 0 5 small 1 false ∧
    classify [1, 0, 0, 14, 12, 0, 5, 0, 0, 0, 0, 0, 0, 0] = .band ⟨false, false, 5, 0, none, [], 0⟩ ∧
    classify [1, 0, 0, 14, 12, 0, 5, 2, 0, 0, 0, 0, 0, 0] = .band ⟨false, false, 5, 2, none, [], 0⟩ ∧
    classify [1, 0, 0, 14, 12, 64, 5, 1, 0, 0, 0, 0, 0, 0] = .band ⟨false, true, 5, 1, none, [], 0⟩ ∧
    classify [1, 0, 0, 18, 16, 128, 5, 1, 0, 0, 0, 0, 40, 12, 60, 0, 0, 0] = .band ⟨true, false, 5, 1, some small, [], 0⟩ := by
  decide +kernel

theorem witness_FirstBandsAreGrantedOrStarved :
    let b : BandCell := ⟨true, false, 5, 0, some small, [], 0⟩
    let s := linked .idle
    classify [1, 0, 0, 18, 16, 128, 5, 0, 0, 0, 0, 0, 40, 12, 60, 0, 0, 0] = .band b ∧ s.ports[0].link = .inSync ∧
    s.assembles 0 = true ∧ s.ports[0].assembly = .idle ∧ (linked .discarding).ports[0].assembly = .discarding ∧
    b.index = 0 ∧ b.format = some small ∧ small.usable = true ∧ b.last = false ∧
    (s.slots[(0 : Fin 64)].state = .free ∧ ∀ j : Fin 64, j < 0 → s.slots[j].state ≠ .free) ∧
    (∀ k : Fin 64, ({ s with slots := Vector.replicate 64 (slotOf .retired 0 1) }).slots[k].state ≠ .free) := by
  decide +kernel

/-- First bands that cannot begin a picture, and one that truncates a picture, its slot being the lowest FREE one or not. -/
theorem witness_FirstBandsAreGrantedOrStarved_others :
    let s := linked (.assembling 0 4 small 1 false)
    let u := (linked (.assembling 1 4 small 1 false)).withSlot 1 (slotOf .filling 0 0)
    classify [1, 0, 0, 18, 16, 128, 5, 0, 0, 0, 0, 0, 39, 12, 60, 0, 0, 0] = .band ⟨true, false, 5, 0, some ⟨39, 12, 60⟩, [], 0⟩ ∧
    (Format.mk 39 12 60).usable = false ∧
    classify [1, 0, 0, 18, 16, 192, 5, 0, 0, 0, 0, 0, 40, 12, 60, 0, 0, 0] = .band ⟨true, true, 5, 0, some small, [], 0⟩ ∧
    s.ports[0].link = .inSync ∧ s.assembles 0 = true ∧ s.ports[0].assembly = .assembling 0 4 small 1 false ∧
    u.ports[0].assembly = .assembling 1 4 small 1 false ∧ u.slots[(0 : Fin 64)].state = .free := by decide +kernel

/-- The sum of a payload of zeros. -/
theorem bandSum_zeros : ∀ n : Nat, bandSum (List.replicate (2 * n) 0#8) = 0
  | 0 => rfl
  | n + 1 => by
    have h : 2 * (n + 1) = 2 * n + 1 + 1 := by omega
    simp [h, List.replicate_succ, bandSum, bandSum_zeros n]

/-- The last band of a 40 by 12 picture, around its 10,240 bytes of payload. -/
def lastBand (payload : List Byte) : List Byte :=
  1 :: 0 :: 40 :: 14 :: 12 :: 64 :: 5 :: 11 :: 40 :: 0 :: 0 :: 0 :: (payload ++ [0, 0])

theorem classify_lastBand (payload : List Byte) (h : payload.length = 10240) :
    classify (lastBand payload) = .band ⟨false, true, 5, 11, none, payload, 0⟩ := by
  simp [classify, classifyBand, lastBand, cellLength, byteAt, beNat, h]

theorem witness_LastBandsPublish :
    let b : BandCell := ⟨false, true, 5, 11, none, List.replicate (2 * 5120) 0#8, 0⟩
    let a : Assembly := .assembling 0 5 small 11 false
    let s := ((linked a).withSource 0 qualified).withSlot 0 (slotOf .filling 0 0)
    classify (lastBand b.payload) = .band b ∧ bandFails b small.width = false ∧ s.ports[0].link = .inSync ∧ s.loading = false ∧
    s.sources[0].state = .qualified ∧ s.sources[0].format = some small ∧ s.ports[0].assembly = a ∧
    s.slots[0].state = .filling ∧ b.first = false ∧ b.index = 11 ∧ b.last = true ∧ 11 + 1 = small.height := by
  refine ⟨classify_lastBand _ (List.length_replicate ..), ?_, by decide +kernel⟩
  simp only [bandFails, bandSum_zeros, List.length_replicate]
  decide

theorem witness_LastBandsPublish_reports :
    let a (m : Bool) : Assembly := .assembling 0 5 small 11 m
    let s (m : Bool) := (linked (a m)).withSlot 0 (slotOf .filling 0 0)
    let other : Format := ⟨41, 12, 60⟩
    let suspect (n : Nat) : Source := { qualified with state := .suspect, cleanRun := n, missRun := n }
    let acquiring (seen clean : Nat) : Source := { Source.powerOn with state := .acquiring, seen := seen, cleanRun := clean }
    ((s true).assembles 0 = true ∧ (s true).ports[0].assembly = a true ∧ (s false).ports[0].assembly = a false ∧
      (s true).slots[0].state = .filling) ∧
    (classify [1, 0, 0, 14, 12, 64, 5, 11, 0, 0, 0, 0, 0, 0] = .band ⟨false, true, 5, 11, none, [], 0⟩ ∧
      bandFails ⟨false, true, 5, 11, none, [], 0⟩ small.width = true) ∧
    ((acquiring 2 1).format = none ∧ qualified.format = some small ∧ other ≠ small) ∧
    ((acquiring 3 2).params.passRun ≤ (acquiring 3 2).cleanRun ∧ (acquiring 3 2).params.minPictures ≤ (acquiring 3 2).seen) ∧
    (¬ (acquiring 30 1).params.passRun ≤ (acquiring 30 1).cleanRun ∧
      (acquiring 30 1).params.maxPictures ≤ (acquiring 30 1).seen ∧ (acquiring 29 1).seen < (acquiring 29 1).params.maxPictures) ∧
    ((suspect 0).cleanRun + 1 < (suspect 0).params.passRun ∧ (suspect 1).params.passRun ≤ (suspect 1).cleanRun + 1) ∧
    ((suspect 2).missRun + 1 < (suspect 2).params.suspectLimit ∧ (suspect 3).params.suspectLimit ≤ (suspect 3).missRun + 1) ∧
    (runner (.waiting (.qualified 15 .fault 1000))).runners[0].state = .waiting (.qualified 15 .fault 1000) := by
  decide +kernel

/-! ### Witnesses: sources and the pool -/

theorem witness_StaleExpiriesAreMisses :
    let suspect (n : Nat) := idle.withSource 0 { qualified with state := .suspect, missRun := n }
    idle.sources[(0 : Fin 16)].stale = none ∧ showing.sources[0].stale ≠ none ∧ showing.sources[0].state = .qualified ∧
    (suspect 2).sources[0].stale ≠ none ∧ (suspect 2).sources[0].state = .suspect ∧
    (suspect 2).sources[0].missRun + 1 < (suspect 2).sources[0].params.suspectLimit ∧
    (suspect 3).sources[0].params.suspectLimit ≤ (suspect 3).sources[0].missRun + 1 := by decide +kernel

theorem witness_SourceRequestsSetTheSource :
    let on : List Byte := [0, 1, 1, 0, 1, 1, 0, 20]
    let off : List Byte := [0, 0, 4, 15, 63, 15, 7, 208]
    let f (ps : List Byte) := splitFields sourceWidths ps
    served idle 1 on ∧ sourceBad (f on) = none ∧ (paramsOf (f on)).enable = true ∧
    idle.sources[0].params.enable = true ∧ idle.saving = false ∧
    served idle 1 off ∧ sourceBad (f off) = none ∧ (paramsOf (f off)).enable = false ∧
    (idle.withSource 0 { Source.powerOn with params := { SourceParams.powerOn with enable := false } }).sources[0].params.enable =
      false ∧
    served showing 2 [15] ∧ showing.sources[0].state ≠ .disabled ∧ showing.sources[0].state ≠ .down ∧ served idle 2 [0] ∧
    idle.sources[0].state = .down ∧ served idle 2 [16] := by decide +kernel

/-- A disable in the middle of a picture, with a READY slot held. -/
theorem witness_SourceRequestsSetTheSource_disable :
    let off : List Byte := [0, 0, 4, 15, 63, 15, 7, 208]
    served (receiving 2) 1 off ∧ (receiving 2).saving = false ∧ sourceBad (splitFields sourceWidths off) = none ∧
    (receiving 2).sources[0].params.enable = true ∧ (paramsOf (splitFields sourceWidths off)).enable = false ∧
    (receiving 2).ports[0].assembly = .assembling 1 5 small 1 false ∧ (receiving 2).readySlot 0 = some 0 := by
  decide +kernel

theorem witness_RetiredSlotsWaitForTheirHolds :
    (idle.withSlot 0 (slotOf .retired 0 1)).slots[0].state = .retired ∧
    (idle.withSlot 0 (slotOf .retired 0 1)).slots[0].holds = 1 ∧
    1 < (idle.withSlot 0 (slotOf .retired 0 2)).slots[0].holds := by decide +kernel

theorem witness_StillsPinAndRelease :
    let pinned := { (showing.withSlot 1 (slotOf .retired 0 1)) with stills := put showing.stills 3 (some 1) }
    served showing 4 [3, 0] ∧ showing.eligible 0 = true ∧ showing.readySlot 0 = some 0 ∧ showing.stills[3] = none ∧
    pinned.stills[3] = some 1 ∧ served pinned 4 [3, 0] ∧ pinned.readySlot 0 = some 0 ∧
    ({ showing.withSlot 0 (slotOf .ready 0 1) with stills := put showing.stills 3 (some 0) }).stills[3] = some 0 ∧
    served idle 4 [0, 15] ∧ idle.eligible 15 = false ∧ served idle 4 [4, 0] ∧ served idle 4 [3, 16] ∧
    served idle 5 [4] ∧ served idle 5 [3] ∧ idle.stills[3] = none ∧ served pinned 5 [3] := by decide +kernel

/-! ### Witnesses: layouts -/

theorem witness_LoadLayoutStoresTheRecord :
    served idle 7 (128 :: paneRecord) ∧ served (saving .erasing []) 7 (127 :: paneRecord) ∧
    (saving .erasing []).entryBusy 127 = true ∧ served idle 7 (127 :: paneRecord) ∧ idle.entryBusy 127 = false ∧
    recordBad paneRecord = none ∧ served idle 7 (0 :: paneRecord.set 4 57) ∧
    recordBad (paneRecord.set 4 57) = some (.badRecordCheck, 0) := by decide +kernel

theorem witness_AcceptedRecordsAreSound : recordBad paneRecord = none := by decide +kernel

theorem witness_EraseLayoutEmptiesTheEntry :
    served idle 8 [128] ∧ served (saving .erasing []) 8 [0] ∧ (saving .erasing []).entryBusy 0 = true ∧
    served idle 8 [127] ∧ idle.entryBusy 127 = false ∧
    (asks (observing idle) 8 [0]).nextRequest = some (0, request 8 [0]) ∧
    (asks (observing idle) 8 [0]).ports[0].grant = .observe ∧ (asks (observing idle) 8 [0]).ports[0].attention = false := by
  decide +kernel

/-! ### Witnesses: screens -/

theorem witness_CadenceTicksAreDelivered :
    (runner (.waiting (.pictures .a 1 false))).runners[0].state = .waiting (.pictures .a 1 false) ∧
    (runner (.waiting (.pictures .b 65535 false))).runners[0].state = .waiting (.pictures .b 65535 false) := by
  decide +kernel

/-- Screen 0 as given, with one tick to take. -/
def due (s : State) (active : Option Context) (standby : Standby) : State :=
  s.withScreen 0 { Screen.powerOn with active := active, standby := standby, ticksDue := 1 }

theorem witness_ScreensEmitAtTheirTicks :
    (idle.screens[0].ticksDue = 0 ∧ (idle.withScreen 0 { Screen.powerOn with enabled := false }).screens[0].enabled = false) ∧
    ((due idle none .empty).screens[0].enabled = true ∧ 0 < (due idle none .empty).screens[0].ticksDue ∧
      (due idle none .empty).screens[0].active = none ∧ ∀ y : Context, (due idle none .empty).screens[0].standby ≠ .armed y) ∧
    ((due showing (some paneContext) .empty).screens[0].enabled = true ∧
      0 < (due showing (some paneContext) .empty).screens[0].ticksDue ∧
      (due showing (some paneContext) .empty).screens[0].active = some paneContext ∧
      ∀ y : Context, (due showing (some paneContext) .empty).screens[0].standby ≠ .armed y) :=
  ⟨by decide +kernel, ⟨by decide +kernel, by decide +kernel, by decide +kernel, fun _ h => Standby.noConfusion h⟩,
    by decide +kernel, by decide +kernel, by decide +kernel, fun _ h => Standby.noConfusion h⟩

/-- The moves of holds: a leg that moves, and dissolves that end and go on. -/
theorem witness_ScreensEmitAtTheirTicks_holds :
    (some (0 : Fin 64) ≠ some 63) ∧ (none ≠ some (63 : Fin 64)) ∧ (some (0 : Fin 64) ≠ none) ∧
    { livePane with dissolve := some ⟨0, some 0, 63, 64⟩ }.dissolve = some (Dissolve.mk 0 (some 0) 63 64) ∧
    (Dissolve.mk 0 (some 0) 63 64).step + 1 = (Dissolve.mk 0 (some 0) 63 64).length ∧
    (Dissolve.mk 0 none 0 2).step + 1 ≠ (Dissolve.mk 0 none 0 2).length := by decide +kernel

/-- The picture: a window's last pixel and the one past it, a window over another, the border's last pixel and the first past
it, lit and dark, and the legs. -/
theorem witness_ScreensEmitAtTheirTicks_picture :
    showing.screens[0].active = some paneContext ∧
    (8 * pane.left ≤ 319 ∧ 319 < 8 * (pane.left + pane.width) ∧ 191 < 16 * (pane.top + pane.height) ∧
      ¬ 320 < 8 * (pane.left + pane.width) ∧ ¬ 192 < 16 * (pane.top + pane.height)) ∧
    (pane.layer ≤ 3 ∧ pane.layer < { pane with layer := 3 }.layer ∧ livePane ∈ paneContext.windows) ∧
    (livePane.copy.border = some 1 ∧ { pane with border := none }.border = none) ∧
    ((3 : Nat) < 4 ∧ ¬ ((4 : Nat) < 4 ∨ 8 * pane.width ≤ 4 + 4 ∨ 16 * pane.height ≤ 4 + 4) ∧ 8 * pane.width ≤ 316 + 4) ∧
    ((Pulse.mk 2 1 0).phase < (Pulse.mk 2 1 0).onCount ∧ ¬ (Pulse.mk 2 1 1).phase < (Pulse.mk 2 1 1).onCount) ∧
    (livePane.pulse = none ∧ livePane.dissolve = none ∧
      { livePane with dissolve := some ⟨0, none, 63, 64⟩ }.dissolve = some (Dissolve.mk 0 none 63 64)) := by decide +kernel

/-- The border in white, the slate in black past it, and the background past the window. -/
theorem test_borderPixels :
    let f := (shows (contextWith livePane)).frameOf 0
    f.pixel 3 50 = 0xffff#16 ∧ f.pixel 4 4 = 0#16 ∧ f.pixel 316 187 = 0xffff#16 ∧ f.pixel 320 0 = 0#16 := by decide +kernel

/-- A window of one cell unit that shows its slot pixel for pixel, half dissolved into a white slate. -/
theorem test_blendedPixel :
    let w := { livePane with copy := { pane with height := 1, width := 1, border := none, slate := 1 }, latch := some 0 }
    let s := (shows (contextWith w)).withSlot 0
      ⟨.ready, some ⟨0, 5, ⟨1, 1, 60⟩⟩, 1, [(List.range 256).map (BitVec.ofNat 8)]⟩
    let u := s.withScreen 0 { s.screens[0] with active := some (contextWith { w with dissolve := some ⟨0, none, 7, 64⟩ }) }
    (s.frameOf 0).pixel 4 4 = 0x4849#16 ∧ (u.frameOf 0).pixel 4 4 = 0xa434#16 := by decide +kernel

/-- A tick at which a window moves from slot 1 to slot 0 moves its hold. -/
theorem test_tickMovesHolds :
    let s := (showing.withSlot 1 (slotOf .retired 0 1)).withScreen 0
      { Screen.powerOn with active := some (contextWith { livePane with latch := some 1 }), ticksDue := 1 }
    ∃ t, step { s with pending := [.screenTick 0] } = .next t ∧ t.slots[0].holds = 1 ∧ t.slots[1] = Slot.empty :=
  ⟨_, rfl, by decide +kernel⟩

theorem witness_LegsResolveOrFallBack :
    let still := { livePane with current := 19 }
    let away (f : Fallback) (b : Option Nat) := { livePane with current := 15, copy := { pane with fallback := f, backup := b } }
    let pinned := { showing with stills := put showing.stills 3 (some 0) }
    let fits (w : Window) := showing.slots[0].picture.all fun y => scaleFits w y.format
    (livePane.freeze = false ∧ livePane.current < 16 ∧ showing.eligible 0 = true ∧ showing.readySlot 0 = some 0) ∧
    (fits pane = true ∧ fits { pane with width := 81 } = false) ∧
    (still.freeze = false ∧ 16 ≤ still.current ∧ pinned.stills[3] = some 0 ∧ showing.stills[3] = none) ∧
    ((away .slate none).freeze = false ∧ showing.eligible 15 = false ∧ (away .slate none).copy.fallback = .slate) ∧
    ({ away .hold none with latch := some 0 }.latch = some 0 ∧ (away .hold none).latch = none ∧
      (away .hold none).copy.fallback = .hold) ∧
    ((away .backup (some 0)).copy.fallback = .backup ∧ (away .backup (some 0)).copy.backup = some 0) ∧
    ((away .backup (some 14)).copy.backup = some 14 ∧ showing.eligible 14 = false) := by decide +kernel

/-- Frozen windows, and windows of two legs. -/
theorem witness_LegsResolveOrFallBack_legs :
    let two := { livePane with dissolve := some ⟨19, some 0, 1, 2⟩ }
    livePane.dissolve = none ∧ two.freeze = false ∧ two.dissolve = some ⟨19, some 0, 1, 2⟩ ∧
    { livePane with freeze := true }.freeze = true ∧ { two with freeze := true }.dissolve = some ⟨19, some 0, 1, 2⟩ := by
  decide +kernel

theorem witness_DissolvesAndPulsesStep :
    (Dissolve.mk 0 none 1 2).step + 1 = (Dissolve.mk 0 none 1 2).length ∧
    (Dissolve.mk 0 none 0 2).step + 1 ≠ (Dissolve.mk 0 none 0 2).length ∧ livePane.dissolve = none ∧
    livePane.staged = none ∧ livePane.pulse = none ∧ { livePane with staged := some .off }.staged = some .off ∧
    { livePane with staged := some (.set 2 2), pulse := some ⟨2, 1, 1⟩ }.staged = some (.set 2 2) ∧
    ((Pulse.mk 2 1 1).phase + 1) % (Pulse.mk 2 1 1).period = 0 ∧
    ((Pulse.mk 255 1 0).phase + 1) % (Pulse.mk 255 1 0).period ≠ 0 := by decide +kernel

/-- A LAYOUT job of screen 0, ARMED, and its screen. -/
def armed : State :=
  { due showing (some paneContext) (.armed paneContext) with job := some (job .armed .completed .pending) }

/-- Screen 0 with its standby ARMED, and the members of the job in progress. -/
def armedWith (ms : List Member) : State := { armed with job := some { job .armed .completed .pending with members := ms } }

theorem witness_ArmedStandbysSwap :
    let here : Member := ⟨0, some 0, some .completed, .pending⟩
    let other (o : MemberOutcome) : Member := ⟨23, some 0, some .completed, o⟩
    armed.screens[0].enabled = true ∧ 0 < armed.screens[0].ticksDue ∧ armed.screens[0].standby = .armed paneContext ∧
    ({ armed with job := none } : State).pendingMember 0 = false ∧ (due showing none (.armed paneContext)).screens[0].active = none ∧
    ((armedWith [here, other .pending]).pendingMember 0 = true ∧ (other .pending).outcome = .pending) ∧
    ((armedWith [here]).pendingMember 0 = true) ∧
    ((armedWith [here, other .skippedDisabled]).pendingMember 0 = true ∧ (other .skippedDisabled).outcome ≠ .pending) := by
  decide +kernel

/-- The last SWAPPED report of a job. -/
theorem test_jobCompletes :
    ∃ t, step { armed with pending := [.screenTick 0] } = .next t ∧
      t.job = some { job .done .completed .swapped with result := some .complete } ∧
      t.screens[0].standby = .previous paneContext := ⟨_, rfl, by decide +kernel⟩

/-- A SET SCREEN with its fields in range, no save in flight. -/
abbrev sets (s : State) (ps : List Byte) : Prop :=
  served s 10 ps ∧ s.saving = false ∧ firstBad 0 (screenTests (ps.map (·.toNat))) = none

/-- Screen 0 DISABLED. -/
def off : State := idle.withScreen 0 { Screen.powerOn with enabled := false }

theorem witness_SetScreenWritesTheSettings :
    (sets armed [0, 1, 1, 240, 68, 0, 0] ∧ armed.pendingMember 0 = true) ∧
    (sets showing [0, 1, 0, 40, 12, 0, 0] ∧ showing.pendingMember 0 = false ∧ showing.screens[0].state = .showing) ∧
    (sets idle [0, 1, 0, 240, 68, 1, 127] ∧ idle.screens[0] = Screen.powerOn) ∧
    (sets idle [0, 1, 1, 240, 68, 0, 0] ∧ idle.pendingMember 0 = false) ∧
    (sets off [0, 1, 0, 240, 68, 0, 0] ∧ off.screens[0].enabled = false ∧ off.pendingMember 0 = false) ∧
    sets showing [0, 0, 0, 240, 68, 0, 0] ∧ (sets idle [0, 1, 0, 40, 12, 0, 0] ∧ idle.screens[0].state = .dark) ∧
    sets off [0, 0, 0, 40, 12, 0, 0] := by
  refine ⟨?_, ?_, ?_, ?_, ?_, ?_, ?_, ?_⟩ <;> decide +kernel

/-- Changes together, of a DISABLED screen and of a SHOWING one. -/
theorem witness_SetScreenWritesTheSettings_together :
    (sets off [0, 1, 1, 40, 12, 1, 127] ∧ off.pendingMember 0 = false ∧ off.screens[0].state ≠ .showing) ∧
    (sets showing [0, 0, 1, 240, 68, 0, 0] ∧ showing.pendingMember 0 = false ∧ showing.screens[0].width = 240 ∧
      showing.screens[0].height = 68) := by refine ⟨?_, ?_⟩ <;> decide +kernel

/-- Disables of a PENDING member: of an ARMED job with another member PENDING and with none; of a LOADING job while another
load is IN PROGRESS, with a load to begin, and with none to begin. -/
theorem witness_SetScreenWritesTheSettings_member :
    let one (c : Fin 24) (l : Load) : Member := ⟨c, some 0, some l, .pending⟩
    let off : List Byte := [0, 0, 0, 240, 68, 0, 0]
    let loads (ms : List Member) : State := { idle with job := some { job .loading .inProgress .pending with members := ms } }
    (sets (armedWith [one 0 .completed, one 23 .completed]) off ∧
      (armedWith [one 0 .completed, one 23 .completed]).pendingMember 0 = true ∧
      (job .armed .completed .pending).phase ≠ .loading) ∧
    (sets (armedWith [one 0 .completed]) off ∧ (armedWith [one 0 .completed]).pendingMember 0 = true) ∧
    (sets (loads [one 0 .notBegun, one 23 .inProgress]) off ∧
      (loads [one 0 .notBegun, one 23 .inProgress]).pendingMember 0 = true ∧ (one 23 .inProgress).loadIs .inProgress = true) ∧
    (sets (loads [one 0 .inProgress, one 23 .notBegun]) off ∧ (one 23 .notBegun).loadIs .notBegun = true ∧
      (one 23 .notBegun).loadIs .inProgress = false) ∧
    (sets (loads [one 0 .inProgress, one 23 .completed]) off ∧ (one 23 .completed).loadIs .notBegun = false ∧
      (one 23 .completed).loadIs .inProgress = false) ∧
    (sets (loads [one 0 .inProgress]) off ∧ (loads [one 0 .inProgress]).pendingMember 0 = true) := by
  refine ⟨?_, ?_, ?_, ?_, ?_, ?_⟩ <;> decide +kernel

theorem witness_SetCadenceAndSetPalette :
    served idle 11 [2, 24] ∧ served idle 11 [1, 26] ∧ served (saving .erasing []) 11 [1, 60] ∧
    (saving .erasing []).saving = true ∧ served idle 11 [0, 24] ∧
    (∃ c : Fin 24, idle.screens[c].enabled = true ∧ idle.screens[c].cadence = cadenceOf 0) ∧ served idle 11 [1, 60] ∧
    (¬ ∃ c : Fin 24, idle.screens[c].enabled = true ∧ idle.screens[c].cadence = cadenceOf 1) ∧
    served idle 12 (List.replicate 48 255) ∧ idle.saving = false := by decide +kernel

theorem witness_FreezeAndSetPulseActOnAWindow :
    let bare := { livePane with copy := { pane with border := none } }
    (served idle 13 [23, 3, 1] ∧ firstBad 0 (freezeTests [23, 3, 1]) = none ∧ idle.screens[23].state ≠ .showing) ∧
    (served showing 13 [0, 3, 0] ∧ paneContext.windows.find? (fun y => y.copy.number = 3) = none) ∧
    (served showing 13 [0, 0, 1] ∧ firstBad 0 (freezeTests [0, 0, 1]) = none ∧ showing.Shows 0 0 paneContext livePane) ∧
    (served showing 14 [0, 0, 1, 255, 255] ∧ firstBad 0 (setPulseTests [0, 0, 1, 255, 255]) = none ∧
      livePane.copy.border ≠ none) ∧
    ((shows (contextWith bare)).Shows 0 0 (contextWith bare) bare ∧ bare.copy.border = none ∧
      firstBad 0 (setPulseTests [0, 0, 0, 0, 0]) = none ∧ served (shows (contextWith bare)) 14 [0, 0, 0, 0, 0]) := by
  decide +kernel

/-! ### Witnesses: window takes, the ramp, rotation -/

theorem witness_WindowTakesCutOrDissolve :
    let mixing := { livePane with dissolve := some ⟨1, none, 0, 2⟩ }
    let wide := { livePane with copy := { pane with height := 68, width := 240 } }
    let cut : List Byte := [0, 0, 19, 1, 0, 0]
    let mix : List Byte := [0, 0, 1, 1, 1, 64]
    let same : List Byte := [0, 0, 0, 0, 0, 0]
    let ok (ps : List Byte) : Prop := firstBad 0 (windowTakeTests (ps.map (·.toNat))) = none
    (served showing 16 same ∧ ok same ∧ showing.Shows 0 0 paneContext livePane ∧ livePane.dissolve = none ∧
      livePane.current = 0) ∧
    (served (shows (contextWith mixing)) 16 same ∧ (shows (contextWith mixing)).Shows 0 0 (contextWith mixing) mixing) ∧
    (served showing 16 cut ∧ ok cut ∧ transitionOf (cut.map (·.toNat)) livePane = .cut) ∧
    (served showing 16 mix ∧ ok mix ∧ transitionOf (mix.map (·.toNat)) livePane = .dissolve 64 ∧
      areaWith 0 paneContext.windows ≤ 24480) ∧
    (served (shows (contextWith wide)) 16 mix ∧ (shows (contextWith wide)).Shows 0 0 (contextWith wide) wide ∧
      24480 < areaWith 0 (contextWith wide).windows) := by decide +kernel

theorem witness_RotationListsStepAWindow :
    let away := contextWith { livePane with current := 1 }
    let s := { shows away with rotations := put showing.rotations 7 ⟨[5, 0], 0⟩ }
    let ps : List Byte := [0, 0, 7, 1]
    (served s 17 ps ∧ firstBad 0 (rotateTests (ps.map (·.toNat))) = none ∧ s.Shows 0 0 away { livePane with current := 1 } ∧
      rotateSearch s s.rotations[7] 1 = some (1, 0)) ∧
    (served showing 17 ps ∧ rotateSearch showing showing.rotations[7] 0 = none) ∧
    (Rotation.mk [5, 0] 0).tries = [1, 0] ∧
    served idle 19 [8, 1, 0] ∧ (served idle 19 [7, 2, 3, 3] ∧ rotationBad 2 [3, 3] = some 3) ∧
    (served (saving .erasing []) 19 [7, 1, 15] ∧ served idle 19 [7, 1, 15] ∧ rotationBad 1 [15] = none) := by decide +kernel

/-- A cut, a dissolve within the area budget and one above it; a screen that is not SHOWING and a window not held. -/
theorem witness_RotationListsStepAWindow_takes :
    let at_ (w : LiveWindow) := { shows (contextWith w) with rotations := put showing.rotations 7 ⟨[5, 0], 0⟩ }
    let fade : LiveWindow := { livePane with current := 1, copy := { pane with transition := .dissolve 2 } }
    let wide : LiveWindow := { fade with copy := { fade.copy with height := 68, width := 240 } }
    let ps : List Byte := [0, 0, 7, 0]
    livePane.copy.transition = .cut ∧
    (served (at_ fade) 17 ps ∧ (at_ fade).Shows 0 0 (contextWith fade) fade ∧ areaWith 0 (contextWith fade).windows ≤ 24480 ∧
      rotateSearch (at_ fade) (at_ fade).rotations[7] 1 = some (1, 0)) ∧
    (served (at_ wide) 17 ps ∧ (at_ wide).Shows 0 0 (contextWith wide) wide ∧
      24480 < areaWith 0 (contextWith wide).windows ∧ rotateSearch (at_ wide) (at_ wide).rotations[7] 1 = some (1, 0)) ∧
    (served idle 17 ps ∧ idle.screens[0].state ≠ .showing) ∧
    (served showing 17 [0, 3, 7, 0] ∧ firstBad 0 (rotateTests [0, 3, 7, 0]) = none ∧
      paneContext.windows.find? (fun y => y.copy.number = 3) = none) := by decide +kernel

theorem witness_SetRampReplacesTheEntries :
    let ramp : List Byte := [0, 2, 4, 6, 8, 10, 12, 14, 16, 18, 20, 22, 24, 26, 28, 32]
    (served idle 18 (ramp.set 15 33) ∧ 32 < (byteAt (ramp.set 15 33) 15).toNat ∧
      ∀ j < 15, (byteAt (ramp.set 15 33) j).toNat ≤ 32) ∧
    served idle 18 ramp ∧ (∀ i < 16, (byteAt ramp i).toNat ≤ 32) ∧ served (saving .erasing []) 18 ramp ∧
    (asks (observing idle) 18 ramp).nextRequest = some (0, request 18 ramp) ∧
    (asks (observing idle) 18 ramp).ports[0].grant = .observe ∧ (asks (observing idle) 18 ramp).ports[0].attention = false := by
  decide +kernel

/-! ### Witnesses: scenes and takes -/

/-- Layout 0 is the pane's, scene 31 names it twice on two screens. -/
def staged : State :=
  { idle with
    library := put idle.library 0 (some paneLayout)
    scenes := put (put idle.scenes 31 (some [(0, 0), (23, 0)])) 30 (some [(0, 0), (1, 127)]) }

/-- The part with a load of layout 0 into screen 0 IN PROGRESS, and further members of the job. -/
def loading (rest : List Member) : State :=
  { staged with job := some { job .loading .inProgress .pending with
      members := ⟨0, some 0, some .inProgress, .pending⟩ :: rest } }

theorem witness_ScenesAreLoadedAndErased :
    served idle 22 [32, 1, 0, 0] ∧ (served (saving .erasing []) 22 [31, 1, 0, 0] ∧ (saving .erasing []).sceneBusy 31 = true) ∧
    (served idle 22 [31, 2, 5, 0, 5, 1] ∧ idle.sceneBusy 31 = false ∧ sceneBad 2 [5, 0, 5, 1] = some (.duplicateScreen, 4)) ∧
    (served idle 22 [31, 1, 23, 127] ∧ sceneBad 1 [23, 127] = none) ∧
    served idle 23 [32] ∧ served (saving .erasing []) 23 [31] ∧ served idle 23 [31] := by decide +kernel

theorem witness_TakesAreAccepted :
    (served (loading []) 25 [31] ∧ (loading []).engineBusy = true) ∧
    (served idle 25 [31] ∧ idle.engineBusy = false ∧ idle.scenes[31] = none) ∧
    (served staged 25 [31] ∧ staged.engineBusy = false ∧ staged.scenes[31] = some [(0, 0), (23, 0)] ∧
      ∀ y ∈ ([(0, 0), (23, 0)] : Scene), staged.library[y.2] ≠ none ∧ staged.screens[y.1].enabled = true) ∧
    (served staged 25 [30] ∧ staged.scenes[30] = some [(0, 0), (1, 127)] ∧ staged.library[0] ≠ none ∧
      staged.library[127] = none) ∧
    served (loading []) 26 [23, 127] ∧ (served idle 26 [23, 127] ∧ idle.library[127] = none) ∧
    (served staged 26 [23, 0] ∧ staged.library[0] ≠ none ∧ staged.screens[23].enabled = true) := by
  refine ⟨?_, ?_, ?_, ?_, ?_, ?_, ?_⟩ <;> decide +kernel

/-- A scene whose first screen is DISABLED, and one whose screens all are. -/
theorem witness_TakesAreAccepted_skips :
    let off (c : Fin 24) (s : State) := s.withScreen c { Screen.powerOn with enabled := false }
    (served (off 0 staged) 25 [31] ∧ (off 0 staged).scenes[31] = some [(0, 0), (23, 0)] ∧ (off 0 staged).engineBusy = false ∧
      (off 0 staged).screens[0].enabled = false ∧ (off 0 staged).screens[23].enabled = true ∧ (off 0 staged).library[0] ≠ none) ∧
    (served (off 0 (off 23 staged)) 25 [31] ∧ (off 0 (off 23 staged)).screens[23].enabled = false) ∧
    (served (off 23 staged) 26 [23, 0] ∧ (off 23 staged).screens[23].enabled = false) := by
  refine ⟨?_, ?_, ?_⟩ <;> decide +kernel

/-- A REVERT of three screens with three outcomes, and one that is DONE at once. -/
theorem witness_RevertArmsThePreviousContexts_outcomes :
    let s := (idle.withScreen 23 { Screen.powerOn with standby := .previous paneContext }).withScreen 22
      { Screen.powerOn with enabled := false }
    (served s 27 [3, 21, 22, 23] ∧ revertBad [3, 21, 22, 23] = none ∧ s.engineBusy = false ∧ s.screens[21].standby = .empty ∧
      s.screens[22].enabled = false ∧ s.screens[23].standby = .previous paneContext) ∧
    (served s 27 [2, 21, 22] ∧ revertBad [2, 21, 22] = none) := by decide +kernel

theorem witness_RevertArmsThePreviousContexts :
    let s := staged.withScreen 23 { Screen.powerOn with standby := .previous paneContext }
    (served idle 27 [2, 5, 5] ∧ revertBad [2, 5, 5] = some (.duplicateScreen, 2)) ∧
    (served (loading []) 27 [1, 23] ∧ revertBad [1, 23] = none ∧ (loading []).engineBusy = true) ∧
    (served s 27 [1, 23] ∧ s.engineBusy = false ∧ s.screens[23].enabled = true ∧
      s.screens[23].standby = .previous paneContext) := by decide +kernel

theorem witness_AbortTakeEndsTheJob :
    (served idle 28 [] ∧ idle.engineBusy = false) ∧
    (served armed 28 [] ∧ armed.job = some (job .armed .completed .pending) ∧
      (job .armed .completed .pending).phase ≠ .done ∧ armed.NoneWaits) := by decide +kernel

/-- What an abort leaves in a standby. -/
theorem test_abortedStandbys :
    (Standby.loaded paneContext).aborted .layout = .empty ∧ (Standby.armed paneContext).aborted .layout = .empty ∧
    (Standby.armed paneContext).aborted .revert = .previous paneContext ∧
    (Standby.previous paneContext).aborted .layout = .previous paneContext := by decide +kernel

/-- The last load of a job, with a member PENDING beside it and with none. -/
theorem witness_LoadsCompleteIntoTheStandby_last :
    let other (o : MemberOutcome) : Member := ⟨23, some 0, some .completed, o⟩
    let narrow (s : State) := s.withScreen 0 { Screen.powerOn with width := 39 }
    (narrow (loading [other .pending])).loadInProgress = some (0, 0, paneLayout) ∧
    (narrow (loading [other .skippedDisabled])).loadInProgress = some (0, 0, paneLayout) ∧
    ((other .pending).loadIs .notBegun = false ∧ (other .skippedDisabled).outcome ≠ .pending) := by decide +kernel

theorem witness_LoadsCompleteIntoTheStandby :
    let next : Member := ⟨23, some 0, some .notBegun, .pending⟩
    let narrow := (loading [next]).withScreen 0 { Screen.powerOn with width := 39 }
    ((loading [next]).loadInProgress = some (0, 0, paneLayout) ∧ next.loadIs .notBegun = true ∧
      fits paneLayout.windows 240 68 = true ∧ ∀ j ∈ (loading [next]).job, j.phase = .loading) ∧
    ((loading []).loadInProgress = some (0, 0, paneLayout) ∧
      ∀ j ∈ (loading []).job, ∀ m ∈ j.members, m.loadIs .notBegun = false) ∧
    (narrow.loadInProgress = some (0, 0, paneLayout) ∧ fits paneLayout.windows 39 68 = false) := by decide +kernel

/-! ### Witnesses: cue lists and runners -/

/-- The last address of the store and one JUMP to it. -/
def oneCue : List Byte := [3, 255, 1, 14, 0, 0, 3, 255, 0, 0, 0, 0, 0, 0, 0, 0, 0, 0]

theorem witness_LoadCuesWritesTheRun :
    (served idle 30 (oneCue.set 0 4) ∧ runBad 1279 1 = some 0) ∧
    (served (saving .erasing []) 30 oneCue ∧ runBad 1023 1 = none) ∧
    (served idle 30 (oneCue.set 3 18) ∧ firstBad 2 ((cueFields 1 (oneCue.set 3 18 |>.drop 3)).flatMap entryTests) = some 2) ∧
    (served idle 30 oneCue ∧ firstBad 2 ((cueFields 1 (oneCue.drop 3)).flatMap entryTests) = none) := by decide +kernel

theorem witness_RunnersAreStartedAndResumed :
    let past := idle.withRunner 3 { Runner.startedAt 1024 .request with state := .faulted }
    let failed := idle.withRunner 3 { Runner.startedAt 1023 .request with state := .faulted }
    served idle 31 [4, 0, 0] ∧ served idle 31 [3, 4, 0] ∧ (served idle 31 [3, 3, 255] ∧ idle.runners[3].state = .idle) ∧
    (served (runner .running) 31 [0, 0, 0] ∧ (runner .running).runners[0].state ≠ .idle) ∧
    (served failed 33 [3, 0] ∧ served failed 33 [3, 1] ∧ failed.runners[3].state = .faulted ∧
      failed.runners[3].position < 1024) ∧
    (served past 33 [3, 1] ∧ past.runners[3].position = 1024) ∧ (served idle 33 [3, 1] ∧ idle.runners[3].state ≠ .faulted) := by
  decide +kernel

theorem witness_StopCueMakesTheRunnerIdle : served idle 32 [4] ∧ served idle 32 [3] := by decide +kernel

theorem witness_ExecutionIsTestedFirst :
    let x := Runner.startedAt 0 .request
    let spun (k : CueKind) := (runs k 0 0 0 0).withRunner 0 { x with spin := 64 }
    let last := (runs .jump 0 0 0 0).withRunner 0 { x with spin := 63, position := 1024 }
    let blank := idle.withRunner 0 { x with spin := 63, position := 1023 }
    (∀ k ∈ [CueKind.empty, .takeScene, .takeLayout, .revert, .windowTake, .freeze, .setPulse, .capture, .releaseStill, .rotate,
        .requalify, .waitPictures, .waitTime, .waitQualified, .jump, .call, .ret, .halt],
      ((spun k).entryAt 0).kind = k ∧ (spun k).runners[0].state = .running ∧ 64 ≤ (spun k).runners[0].spin) ∧
    ((last.entryAt 0).kind = .empty ∧ last.runners[0].state = .running ∧ last.runners[0].spin < 64 ∧
      1024 ≤ last.runners[0].position) ∧
    ((blank.entryAt 0).kind = .empty ∧ blank.runners[0].state = .running ∧ blank.runners[0].spin < 64 ∧
      blank.runners[0].position < 1024) := by
  decide +kernel

theorem witness_JumpCallReturnAndHalt :
    let deep (n : Nat) (s : State) := s.withRunner 0 { Runner.startedAt 0 .request with stack := List.replicate n 5, spin := 63 }
    let at0 (k : CueKind) (s : State) : Prop := s.Executes k 0 ⟨k, 1023, 0, 0, 0, 0, 0⟩
    at0 .jump (deep 0 (runs .jump 1023 0 0 0)) ∧ at0 .call (deep 3 (runs .call 1023 0 0 0)) ∧
    at0 .call (deep 4 (runs .call 1023 0 0 0)) ∧ at0 .ret (deep 1 (runs .ret 1023 0 0 0)) ∧
    at0 .ret (deep 0 (runs .ret 1023 0 0 0)) ∧ at0 .halt (deep 4 (runs .halt 1023 0 0 0)) := by
  refine ⟨?_, ?_, ?_, ?_, ?_, ?_⟩ <;> decide +kernel

theorem witness_WaitsBeginAndEnd :
    (runs .waitPictures 1 65535 0 0).Executes .waitPictures 0 ⟨.waitPictures, 1, 65535, 0, 0, 0, 0⟩ ∧
    (runs .waitTime 86399 0 0 0).Executes .waitTime 0 ⟨.waitTime, 86399, 0, 0, 0, 0, 0⟩ ∧
    (runs .waitTime 86399 0 0 0).time.valid = false ∧
    { (runs .waitTime 0 0 0 0) with time := ⟨0, 0, true⟩ }.Executes .waitTime 0 ⟨.waitTime, 0, 0, 0, 0, 0, 0⟩ ∧
    ((runs .waitQualified 0 1 0 0).withSource 0 qualified).Executes .waitQualified 0 ⟨.waitQualified, 0, 1, 0, 0, 0, 0⟩ ∧
    (runs .waitQualified 15 600 1 0).Executes .waitQualified 0 ⟨.waitQualified, 15, 600, 1, 0, 0, 0⟩ ∧
    (runs .waitQualified 15 600 1 0).sources[15].state ≠ .qualified ∧
    (runner (.waiting (.pictures .b 1 true))).runners[0].state = .waiting (.pictures .b 1 true) ∧
    (runner (.waiting (.qualified 15 .fault 1000))).runners[0].state = .waiting (.qualified 15 .fault 1000) ∧
    (runner (.waiting (.qualified 15 .continue 1000))).runners[0].state = .waiting (.qualified 15 .continue 1000) ∧
    (runner (.waiting (.takeDone 1 (some .complete)))).runners[0].state = .waiting (.takeDone 1 (some .complete)) ∧
    (runner (.waiting (.takeDone 1 (some .aborted)))).runners[0].state = .waiting (.takeDone 1 (some .aborted)) := by
  refine ⟨?_, ?_, ?_, ?_, ?_, ?_, ?_, ?_, ?_, ?_, ?_, ?_⟩ <;> decide +kernel

/-- A state whose runner 0 executes the entry given. -/
def runsIn (s : State) (e : CueEntry) : State :=
  { s.withRunner 0 (Runner.startedAt 0 .request) with cues := put s.cues 0 e }

/-- Whether an answer is DONE. -/
def isDone : State × Answer → Bool
  | (_, .done _) => true
  | _ => false

/-- Whether an answer is a refusal with the given code. -/
def isRefused (code : Code) : State × Answer → Bool
  | (_, .refused c _) => c = code
  | _ => false

theorem witness_EntriesActAsRequestsDo :
    let e (k : CueKind) (a b c d f g : Nat) : CueEntry := ⟨k, a, b, c, d, f, g⟩
    (let x := e .windowTake 0 0 19 0 0 0; (runsIn showing x).Executes .windowTake 0 x ∧
      isDone (windowTakeFields x.operands (runsIn showing x)) = true) ∧
    (let x := e .freeze 0 3 1 0 0 0; (runsIn showing x).Executes .freeze 0 x ∧
      isRefused .noSuchWindow (freezeFields x.operands (runsIn showing x)) = true) ∧
    (let x := e .setPulse 0 0 0 0 0 0; isDone (setPulseFields x.operands (runsIn showing x)) = true) ∧
    (let x := e .capture 3 0 0 0 0 0; isDone (captureFields x.operands (runsIn showing x)) = true) ∧
    (let x := e .releaseStill 3 0 0 0 0 0; isRefused .stillNotPinned (releaseStillFields x.operands (runsIn showing x)) = true) ∧
    (let x := e .requalify 15 0 0 0 0 0; isDone (requalifyFields x.operands (runsIn showing x)) = true) ∧
    (let x := e .rotate 0 0 7 0 0 0; (runsIn showing x).Executes .rotate 0 x ∧
      (rotateFields x.operands (runsIn showing x)).2.2 = true) ∧
    (let x := e .rotate 0 0 7 1 0 0
     let s := { runsIn (shows (contextWith { livePane with current := 1 })) x with
      rotations := put idle.rotations 7 ⟨[5, 0], 0⟩ }
     s.Executes .rotate 0 x ∧ (rotateFields x.operands s).2.2 = false ∧
      isDone ((rotateFields x.operands s).1, (rotateFields x.operands s).2.1) = true) := by
  refine ⟨?_, ?_, ?_, ?_, ?_, ?_, ?_, ?_⟩ <;> decide +kernel

/-- A ROTATE entry on a DISABLED screen is refused before its list is searched. -/
theorem test_rotateNotShowing :
    let x : CueEntry := ⟨.rotate, 0, 0, 7, 0, 0, 0⟩
    let s := runsIn (idle.withScreen 0 { Screen.powerOn with enabled := false, active := some paneContext }) x
    s.Executes .rotate 0 x ∧ (rotateFields x.operands s).2 = (.refused .screenNotShowing none, false) ∧
    (∃ t, exec (.cueRotate 0) s = .next t ∧ t.runners[0].faultRecord.map (·.kind) = some .screenNotShowing) :=
  ⟨by decide +kernel, by decide +kernel, _, rfl, by decide +kernel⟩

/-- What an acceptance answers. -/
def verdict : Except (Code × Nat) State → Option (Bool ⊕ (Code × Nat))
  | .ok u => some (.inl u.engineBusy)
  | .error x => some (.inr x)

theorem witness_TakeEntriesShareTheEngine :
    let scene : CueEntry := ⟨.takeScene, 31, 1, 0, 0, 0, 0⟩
    let layout : CueEntry := ⟨.takeLayout, 23, 127, 0, 0, 0, 0⟩
    let back : CueEntry := ⟨.revert, 23, 1, 0, 0, 0, 0⟩
    let s := staged.withScreen 23 { Screen.powerOn with standby := .previous paneContext }
    ((runsIn (loading []) scene).Executes .takeScene 0 scene ∧ (runsIn (loading []) scene).engineBusy = true) ∧
    ((runsIn staged scene).Executes .takeScene 0 scene ∧ (runsIn staged scene).engineBusy = false ∧
      verdict ((runsIn staged scene).accept (.runner 0) (.scene 31 true)) = some (.inl true)) ∧
    ((runsIn s back).Executes .revert 0 back ∧
      verdict ((runsIn s back).accept (.runner 0) (.revert 23 true)) = some (.inl true)) ∧
    ((runsIn idle layout).Executes .takeLayout 0 layout ∧ (runsIn idle layout).NoneWaits ∧
      verdict ((runsIn idle layout).accept (.runner 0) (.layout 23 127 false)) = some (.inr (.emptyLayout, 0))) := by
  refine ⟨?_, ?_, ?_, ?_⟩ <;> decide +kernel

/-- A take that is DONE within its acceptance; the offer of an IDLE engine to runner 3, accepted, DONE at once, refused. -/
theorem witness_TakeEntriesShareTheEngine_offers :
    let back : CueEntry := ⟨.revert, 23, 1, 0, 0, 0, 0⟩
    let waits (s : State) (take : Take) := s.withRunner 3 { Runner.startedAt 0 .request with state := .waiting (.takeGrant take) }
    let offered (s : State) (take : Take) : Prop :=
      (waits s take).engineBusy = false ∧ (waits s take).waitingTake 3 = some take ∧
        ∀ q : Fin 4, q < 3 → (waits s take).waitingTake q = none
    ((runsIn idle back).Executes .revert 0 back ∧
      verdict ((runsIn idle back).accept (.runner 0) (.revert 23 true)) = some (.inl false)) ∧
    (offered staged (.scene 31 true) ∧
      verdict ((waits staged (.scene 31 true)).accept (.runner 3) (.scene 31 true)) = some (.inl true)) ∧
    (offered idle (.revert 23 true) ∧
      verdict ((waits idle (.revert 23 true)).accept (.runner 3) (.revert 23 true)) = some (.inl false)) ∧
    (offered idle (.scene 31 true) ∧
      verdict ((waits idle (.scene 31 true)).accept (.runner 3) (.scene 31 true)) = some (.inr (.emptyScene, 0))) := by
  refine ⟨?_, ?_, ?_, ?_⟩ <;> decide +kernel

/-! ### Witnesses: the schedule -/

theorem witness_TheScheduleIsSet :
    served idle 36 [0, 1, 81, 128, 0] ∧ served idle 36 [0, 1, 81, 127, 7] ∧ served idle 36 [0, 1, 81, 127, 6] ∧
    (served idle 37 [15, 1, 0, 1, 81, 127, 127, 3, 3, 255] ∧
      alarmBad (splitFields alarmWidths [15, 1, 0, 1, 81, 127, 127, 3, 3, 255]) = none) ∧
    (served idle 38 [15, 1, 15, 2, 3, 3, 255, 1] ∧
      firstBad 0 (triggerTests (splitFields triggerWidths [15, 1, 15, 2, 3, 3, 255, 1])) = none) ∧ idle.saving = false := by
  refine ⟨?_, ?_, ?_, ?_, ?_, ?_⟩ <;> decide +kernel

theorem witness_SecondTicksAdvanceTheTime :
    (runner (.waiting (.time 86399))).runners[0].state = .waiting (.time 86399) ∧ idle.time.valid = false ∧
    idle.time.seconds < 86399 ∧ ¬ ({ idle with time := ⟨86399, 6, true⟩ }).time.seconds < 86399 := by decide +kernel

theorem witness_DropsMoveAtTheSecondTick :
    (∃ t, exec .setTime (asks idle 36 [0, 0, 0, 0, 0]) = .next t) ∧
    0 < ({ idle with starvation := ⟨1, 0, 1, none⟩ }).starvation.thisSecond := ⟨⟨_, rfl⟩, by decide +kernel⟩

theorem witness_AlarmsAndTriggersStartRunners :
    let a : Alarm := ⟨true, 0, 64, 3, 1023, .none, none⟩
    let s := { idle with alarms := put idle.alarms 15 a, time := ⟨86399, 5, true⟩ }
    let two := { s with alarms := put s.alarms 14 a }
    let g : Trigger := ⟨true, 15, .down, 3, 1023, true, .none, none⟩
    let u := { idle with triggers := put idle.triggers 15 g }
    let pair := { u with triggers := put u.triggers 14 g }
    let busy (s : State) := s.withRunner 3 (Runner.startedAt 0 .request)
    (s.time.valid = true ∧ a.matches s.time.advance = true ∧ s.runners[3].state = .idle ∧
      ∀ m : Fin 16, m < 15 → ¬ (s.alarms[m].matches s.time.advance = true)) ∧
    ((busy s).runners[3].state ≠ .idle ∧ (busy s).runners[3].state ≠ .faulted) ∧
    (two.alarms[15].matches two.time.advance = true ∧ two.alarms[14].matches two.time.advance = true ∧
      two.alarms[14].runner = two.alarms[15].runner ∧ two.runners[3].state = .idle) ∧
    (u.triggers[15].Watches 15 .down ∧ u.runners[3].state = .idle ∧ ∀ m : Fin 16, m < 15 → ¬ u.triggers[m].Watches 15 .down) ∧
    ((busy u).runners[3].state ≠ .idle ∧ (busy u).runners[3].state ≠ .faulted) ∧
    (pair.triggers[15].Watches 15 .down ∧ pair.triggers[14].Watches 15 .down ∧
      pair.triggers[14].runner = pair.triggers[15].runner ∧ pair.runners[3].state = .idle) := by
  refine ⟨?_, ?_, ?_, ?_, ?_, ?_⟩ <;> decide +kernel

/-- What a second tick and an event leave: alarms and triggers that do not act, runners that none that acts names, and a
runner that is active. -/
theorem witness_AlarmsAndTriggersStartRunners_frame :
    let a : Alarm := ⟨true, 0, 64, 3, 1023, .none, none⟩
    let s := ({ idle with alarms := put idle.alarms 15 a, time := ⟨86399, 5, true⟩ }).withRunner 3 (Runner.startedAt 0 .request)
    let g : Trigger := ⟨true, 15, .down, 3, 1023, true, .none, none⟩
    let u := ({ idle with triggers := put idle.triggers 15 g }).withRunner 3 (Runner.startedAt 0 .request)
    (s.time.valid = true ∧ s.alarms[14].matches s.time.advance = false ∧ s.alarms[15].matches s.time.advance = true ∧
      (∀ n : Fin 16, s.alarms[n].matches s.time.advance = true → s.alarms[n].runner ≠ 2) ∧ s.runners[2].state = .idle ∧
      s.runners[3].state = .running) ∧
    (¬ u.triggers[14].Watches 15 .down ∧ ¬ u.triggers[15].Watches 14 .down ∧ ¬ u.triggers[15].Watches 15 .failed ∧
      u.triggers[15].Watches 15 .down ∧ (∀ n : Fin 16, u.triggers[n].Watches 15 .down → u.triggers[n].runner ≠ 2) ∧
      u.runners[3].state = .running) := by
  refine ⟨?_, ?_⟩ <;> decide +kernel

/-! ### Witnesses: the request unit -/

theorem witness_RequestsAreServedInTurnAndTested :
    let withoutGrant := asks (idle.withPort 0 { idle.ports[0] with grant := .none }) 6 []
    let attention := asks (idle.withPort 0 { idle.ports[0] with attention := true }) 6 []
    let unknown := asks idle 46 []
    let long := asks idle 6 [0]
    let reserved := asks idle 7 (0 :: paneRecord.set 24 1)
    let observe := asks (observing idle) 44 []
    (withoutGrant.nextRequest = some (0, request 6 []) ∧ withoutGrant.ports[0].grant = .none) ∧
    (attention.nextRequest = some (0, request 6 []) ∧ attention.ports[0].attention = true ∧
      attention.ports[0].grant ≠ .none) ∧
    (unknown.nextRequest = some (0, request 46 []) ∧ knownCode 46 = false ∧ knownCode 0 = false) ∧
    (long.nextRequest = some (0, request 6 [0]) ∧ requiredLength 6 [0] = some 0) ∧
    (reserved.nextRequest = some (0, request 7 (0 :: paneRecord.set 24 1)) ∧
      reservedOffset 7 (0 :: paneRecord.set 24 1) = some 25) ∧
    (observe.nextRequest = some (0, request 44 []) ∧ observe.ports[0].grant = .observe ∧ modifies 44 [] = true) := by
  refine ⟨?_, ?_, ?_, ?_, ?_, ?_⟩ <;> decide +kernel

theorem witness_BusyAndRangeAnswers :
    let s := saving .erasing []
    s.saving = true ∧ served s 1 [0, 1, 1, 0, 1, 1, 0, 20] ∧ served s 7 (127 :: paneRecord) ∧ served s 8 [127] ∧
    sets idle [0, 1, 0, 240, 68, 0, 0] ∧ served s 10 [0, 1, 0, 240, 68, 0, 0] ∧ served s 12 (List.replicate 48 0) ∧
    served s 22 [31, 1, 0, 0] ∧ served s 23 [31] ∧ served s 37 [15, 1, 0, 1, 81, 127, 127, 3, 3, 255] ∧
    served s 38 [15, 1, 15, 2, 3, 3, 255, 1] ∧ served s 40 [15, 2] ∧ served s 45 [] ∧
    (served idle 1 [0, 1, 1, 9, 8, 1, 0, 20] ∧ sourceBad (splitFields sourceWidths [0, 1, 1, 9, 8, 1, 0, 20]) = some 4) ∧
    (served idle 10 [24, 1, 0, 240, 68, 0, 0] ∧ firstBad 0 (screenTests [24, 1, 0, 240, 68, 0, 0]) = some 0) ∧
    (served idle 13 [0, 4, 2] ∧ firstBad 0 (freezeTests [0, 4, 2]) = some 1) ∧
    (served idle 14 [0, 0, 1, 1, 0] ∧ firstBad 0 (setPulseTests [0, 0, 1, 1, 0]) = some 3) ∧
    (served idle 16 [0, 0, 20, 0, 0, 0] ∧ firstBad 0 (windowTakeTests [0, 0, 20, 0, 0, 0]) = some 2) ∧
    (served idle 17 [0, 0, 8, 0] ∧ firstBad 0 (rotateTests [0, 0, 8, 0]) = some 2) ∧
    (served idle 37 [15, 1, 0, 0, 0, 0, 0, 0, 0, 0] ∧ alarmBad (splitFields alarmWidths [15, 1, 0, 0, 0, 0, 0, 0, 0, 0]) = some 3) ∧
    (served idle 38 [16, 0, 0, 0, 0, 0, 0, 0] ∧
      firstBad 0 (triggerTests (splitFields triggerWidths [16, 0, 0, 0, 0, 0, 0, 0])) = some 0) ∧
    (served idle 40 [15, 3] ∧ firstBad 0 [within 0 15 15, within 0 2 3] = some 1) := by
  refine ⟨?_, ?_, ?_, ?_, ?_, ?_, ?_, ?_, ?_, ?_, ?_, ?_, ?_, ?_, ?_, ?_, ?_, ?_, ?_, ?_, ?_, ?_⟩ <;> decide +kernel

theorem witness_ReadsChangeNothing :
    served idle 3 [15, 0] ∧ served idle 3 [15, 1] ∧ served idle 6 [] ∧ served idle 9 [127] ∧ served idle 15 [23] ∧ served idle 20 [] ∧
    served idle 21 [7] ∧ served idle 24 [31] ∧ served idle 29 [] ∧ (served idle 34 [3, 192, 64] ∧ runBad 960 64 = none) ∧
    served idle 39 [] ∧ served idle 41 [] ∧
    (served (runner (.waiting (.qualified 15 .fault 1000))) 35 [0] ∧ served idle 35 [3]) := by
  refine ⟨?_, ?_, ?_, ?_, ?_, ?_, ?_, ?_, ?_, ?_, ?_, ?_, ?_⟩ <;> decide +kernel

theorem witness_SetGrantKeepsAFullPort :
    (served idle 40 [0, 1] ∧ idle.ports[0].grant = .full ∧ ∀ o : Fin 16, o ≠ 0 → idle.ports[o].grant ≠ .full) ∧
    (served idle 40 [15, 2] ∧ idle.ports[15].grant ≠ .full) ∧
    (served (idle.withPort 15 (Port.powerOn .full)) 40 [0, 0] ∧
      (∃ o : Fin 16, o ≠ 0 ∧ (idle.withPort 15 (Port.powerOn .full)).ports[o].grant = .full)) ∧ idle.saving = false := by
  decide +kernel

theorem witness_FetchConditionAndStatusClear :
    served (idle.withPort 0 { idle.ports[0] with attention := true, condition := some ⟨.powerOnEmpty, 0, 0⟩ }) 43 [] ∧
    served idle 43 [] ∧ served idle 42 [] := by decide +kernel

/-- The marks: a job of another view and one of the same, and a command that goes on. -/
theorem witness_FetchConditionAndStatusClear_marks :
    idle.jobView ≠ some (Phase.armed, [MemberOutcome.pending]) ∧ armed.job = some (job .armed .completed .pending) ∧
    armed.jobView = some (Phase.armed, [MemberOutcome.pending]) ∧ Instr.secondTick ≠ .status ∧
    ∃ t, exec .secondTick idle = .next t := ⟨by decide +kernel, by decide +kernel, by decide +kernel, by decide, _, rfl⟩

/-- A source that becomes SUSPECT is marked on a port of grant NONE, and no other source is. -/
theorem test_changeIsMarked :
    let s := (idle.withSource 0 qualified).modPorts fun x => { x with marks := .clear }
    ∃ t, step { s with pending := [.staleTimerExpiry 0] } = .next t ∧ t.ports[15].grant = .none ∧
      t.ports[15].marks = { ChangeMarks.clear with sources := put ChangeMarks.clear.sources 0 true } :=
  ⟨_, rfl, by decide +kernel⟩

theorem witness_RestartKeepsTheTables :
    served idle 44 [] ∧ idle.engineBusy = false ∧ idle.saving = false ∧ served armed 44 [] ∧ armed.engineBusy = true ∧
    armed.job = some (job .armed .completed .pending) ∧ armed.pendingMember 0 = true ∧ armed.pendingMember 1 = false ∧
    served (saving .erasing []) 44 [] ∧ (saving .erasing []).saving = true := by
  decide +kernel

theorem witness_WallFaultIsTheHighest :
    ({ idle with starvation := ⟨0, 1, 1, none⟩ }).wallFault = 8 ∧ (runner .faulted).wallFault = 7 ∧
    (showing.withSource 0 { qualified with state := .failed }).wallFault = 6 ∧
    (showing.withSource 0 { qualified with state := .suspect }).wallFault = 5 ∧
    (shows (contextWith { livePane with status := some .held })).wallFault = 4 ∧
    ({ idle with job := some { job .done .completed .aborted with result := some .aborted } }).wallFault = 3 ∧
    ({ idle with alarms := put idle.alarms 15 { Alarm.powerOn with enabled := true } }).wallFault = 2 ∧
    ({ idle with store := ⟨.idle, .abandoned, .erased⟩ }).wallFault = 1 ∧ idle.wallFault = 0 := by
  refine ⟨?_, ?_, ?_, ?_, ?_, ?_, ?_, ?_, ?_⟩ <;> decide +kernel

/-! ### Witnesses: the store and the laws -/

theorem witness_SavesBeginAndAreGivenUp :
    served idle 45 [] ∧ idle.store.state = .idle ∧ served (saving .erasing [1]) 45 [] ∧
    (saving .erasing [1]).store.state ≠ .idle ∧ (saving .readingBack [1]).store.state = .saving .readingBack [1] ∧
    (saving .programming [1]).store.state = .saving .programming [1] ∧
    State.reset.store.state = .startUpLoad true := by decide +kernel

theorem witness_SavesGoThroughTheirStages :
    (saving .erasing [1]).store.state = .saving .erasing [1] ∧ (saving .programming [1]).FlashLaw ∧
    (saving .programming [1]).store.state = .saving .programming [1] ∧
    (saving .readingBack [1]).store.state = .saving .readingBack [1] ∧
    (∀ c ∈ ([(0, 2), (262143, 3)] : List Host.Cell), c.1 < 262144) ∧
    (∃ c ∈ ([(262144, 0)] : List Host.Cell), 262144 ≤ c.1) := by decide +kernel

/-- The tables of power-on with a layout in the last library entry and another rate. -/
def stocked : State := { State.reset with library := put State.reset.library 127 (some paneLayout), rateA := 60 }

/-- Its tables pass the checks. -/
theorem stocked_tables : stocked.TablesLaw := by
  obtain ⟨h1, h2, h3, h4, h5, h6, h7, h8, h9, h10, h11⟩ := reset_tables
  refine ⟨put_law (P := fun y : Option Layout => ∀ l, y = some l → l.Checked) _ h1 ?_, h2, h3, h4, h5, h6, h7, by decide, h9,
    h10, h11⟩
  rintro l ⟨⟩
  exact ⟨paneRecord, by decide, by decide, by decide⟩

/-- A start-up that finds their image in the flash. -/
theorem witness_SavesGoThroughTheirStages_image :
    let image := imageHeader (imageContent stocked) ++ imageContent stocked
    let v : State := { State.reset with store := ⟨.startUpLoad true, .none, ⟨memWriteBytes [] 0 image, none, false⟩⟩ }
    stocked.TablesLaw ∧ stocked.GrantLaw ∧ v.store.state = .startUpLoad true ∧ v.store.flash.crcFails = false ∧
    ∀ i : Nat, i < image.length → v.store.flash.read i = image.getD i 0 :=
  ⟨stocked_tables, by decide +kernel, rfl, rfl, fun i h => by simpa only [Nat.zero_add] using readBytes_eq.1 (readBytes_programmed _ false) i h⟩

/-- The laws of every step have states that meet them and steps that change what they speak of. -/
theorem witness_Laws : ∃ t, step { asks idle 6 [] with pending := [.readPool] } = .next t ∧
    (asks idle 6 []).QueueLaw ∧ (asks idle 6 []).RunnerLaw ∧ (asks idle 6 []).FlashLaw ∧ (asks idle 6 []).RetiredLaw ∧
    (asks idle 6 []).GrantLaw ∧ t.ports[0].queue ≠ (asks idle 6 []).ports[0].queue := by
  refine ⟨_, rfl, ?_, ?_, ?_, ?_, ?_, ?_⟩ <;> decide +kernel

/-- The law of the stored tables holds of a state whose next step writes one. -/
theorem witness_TheFlashAndTheTablesKeepTheirLaws :
    ∃ t, step { asks idle 7 (127 :: paneRecord) with pending := [.loadLayout] } = .next t ∧
      (asks idle 7 (127 :: paneRecord)).TablesLaw ∧ t.library[127] = some paneLayout :=
  ⟨_, rfl, tablesLaw_congr (s := State.reset) rfl reset_tables, by decide +kernel⟩

/-- The area law holds of a state with a SHOWING screen. -/
theorem witness_TheAreaBudgetIsKept : paneLayout.AreaFits ∧ paneContext.AreaFits ∧ paneContext.NoDissolve := by
  decide +kernel

end Sys2Proof.Tests
end

