-- ==== Sys2Proof/Proofs/PicturePool.lean ====
section
/-! PROOFS. The picture pool (03): the cycle of a RETIRED slot (R43) and the starvation record (R49). -/

namespace Sys2Proof.Machine

/-! ### A RETIRED slot (R43) -/

/-- R38: a slot that is not READY is the READY slot of no source. -/
theorem readySlot_ne_of_not_ready {s : State} {k : Fin 64} (h : s.slots[k].state ≠ .ready) (i : Fin 16) :
    s.readySlot i ≠ some k :=
  fun e => h (readySlot_some e).1

/-- R42: a retirement leaves a slot that is not READY. -/
theorem retire_slot_of_not_ready {s : State} {k : Fin 64} (h : s.slots[k].state ≠ .ready) (i : Fin 16) :
    (s.retire i).slots[k] = s.slots[k] := by
  rw [retire_slots, if_neg (readySlot_ne_of_not_ready h i)]

/-- R40: a PUBLISH leaves a slot that is not READY and is not the one published. -/
theorem publish_slot_of_not_ready {s : State} {k : Fin 64} (h : s.slots[k].state ≠ .ready) (i : Fin 16) {j : Fin 64}
    (hj : j ≠ k) : (s.publish i j).slots[k] = s.slots[k] := by
  rw [publish_slots, if_neg hj, retire_slot_of_not_ready h]

/-- R45: the slot that a RELEASE names. -/
theorem release_slot (s : State) (k : Fin 64) :
    (s.release k).slots[k] = if s.slots[k].state = .retired ∧ s.slots[k].holds ≤ 1 then Slot.empty
      else { s.slots[k] with holds := s.slots[k].holds - 1 } := by
  rw [release_eq]
  exact put_same ..

/-- R47: an UNPIN does to the slots what a RELEASE of the pinned slot does. -/
theorem unpin_slots (s : State) (n : Fin 4) (k : Fin 64) : (s.unpin n k).slots = (s.release k).slots := rfl

/-- R43: the RELEASE of the last hold of a RETIRED slot frees it. -/
theorem release_last_hold {s : State} {k : Fin 64} (hr : s.slots[k].state = .retired) (hh : s.slots[k].holds = 1) :
    (s.release k).slots[k] = Slot.empty := by
  rw [release_slot, if_pos ⟨hr, hh.le⟩]

/-- R43, R45: the RELEASE of a slot with further holds takes one hold away, whatever the slot's state. -/
theorem release_further_hold {s : State} {k : Fin 64} (hh : 1 < s.slots[k].holds) :
    (s.release k).slots[k] = { s.slots[k] with holds := s.slots[k].holds - 1 } := by
  rw [release_slot, if_neg fun ⟨_, hle⟩ => Nat.not_le.2 hh hle]

/-- Settles O13: only a READY slot is touched by a publish or a retirement, a source's state is no part of the pool, and a
RELEASE and an UNPIN do the same to the slot they name. -/
theorem retiredSlotsWaitForTheirHolds : Obligations.RetiredSlotsWaitForTheirHolds := by
  intro s k hr
  have hn : s.slots[k].state ≠ .ready := by rw [hr]; nofun
  refine ⟨fun i j hj => publish_slot_of_not_ready hn i hj, fun i => retire_slot_of_not_ready hn i, fun i st => ?_,
    fun hh => ⟨release_last_hold hr hh, fun n => ?_⟩, fun hh => ⟨release_further_hold hh, fun n => ?_⟩⟩
  · rw [State.setSourceState_slots]
  · rw [unpin_slots, release_last_hold hr hh]
  · rw [unpin_slots, release_further_hold hh]

/-! ### The starvation record (R49) -/

/-- R49: a second tick moves the drops, whether or not the time base is valid. -/
theorem secondTick_starvation (s : State) :
    s.secondTick.starvation = { s.starvation with thisSecond := 0, lastSecond := s.starvation.thisSecond } := by
  obtain ⟨-, -, -, hAlarms, -⟩ :=
    matchAlarms_frame ((List.finRange 4).foldl State.timeMeets { s with time := s.time.advance }.moveDrops)
  obtain ⟨-, -, -, hTimes, -⟩ := timesMeet_frame { s with time := s.time.advance }.moveDrops (List.finRange 4)
  exact hAlarms.trans hTimes

/-- A service leaves the starvation record when the owning block's part, before and after the reply, leaves it. -/
theorem serve_starvation {code : Nat} {body : Fin 16 → List Byte → State → Served} (s : State)
    (hbody : ∀ p ps u, (body p ps u).state.starvation = u.starvation)
    (hafter : ∀ p ps u t, ((body p ps u).after t).starvation = t.starvation) :
    (s.serve code body).starvation = s.starvation :=
  serve_keeps (I := fun t => t.starvation = s.starvation) (fun p u h => (beginService_starvation p u).trans h)
    (fun p r u h => (reply_starvation p r .refused [] u).trans h) (fun p r a u h => by simp [h])
    (fun p ps u h => (hbody p ps u).trans h) (fun p ps u t h => (hafter p ps u t).trans h) rfl

/-- R49: SET TIME leaves the starvation record. -/
theorem setTime_starvation (s : State) : (s.serve 36 setTimeBody).starvation = s.starvation :=
  serve_starvation s (fun p ps u => by simp) fun p ps u t => by rw [setTimeBody_after]

/-- R49: starvation is active while either count of drops is above 0. -/
theorem starving_iff (s : State) : s.starving = true ↔ 0 < s.starvation.thisSecond ∨ 0 < s.starvation.lastSecond := by
  unfold State.starving
  rw [Bool.or_eq_true, decide_eq_true_iff, decide_eq_true_iff]

/-- Settles O44: what a second tick, SET TIME and the two counts come to, one lemma for each. -/
theorem dropsMoveAtTheSecondTick : Obligations.DropsMoveAtTheSecondTick := by
  refine ⟨fun s => ⟨s.secondTick, exec_secondTick s, secondTick_starvation s⟩, fun s t h => ?_, starving_iff⟩
  rw [exec_setTime] at h
  cases h
  exact setTime_starvation s

end Sys2Proof.Machine
end

