-- ==== Sys2Proof/Proofs/LayoutLibrary.lean ====
section
/-! PROOFS. The layout library (04): the cases of ERASE LAYOUT (R67). -/

namespace Sys2Proof.Machine

/-! ### The owning block's part of ERASE LAYOUT (R67) -/

section
variable {ps : List Byte} {s : State}

/-- R67: an entry number above 127. -/
theorem eraseLayoutBody_outOfRange (p : Fin 16) (h : 127 < (byteAt ps 0).toNat) :
    eraseLayoutBody p ps s = unchanged s (outOfRange 0) :=
  if_pos h

/-- R66, R67: an entry that a save or a load holds. -/
theorem eraseLayoutBody_busy (p : Fin 16) (h : (byteAt ps 0).toNat ≤ 127)
    (hb : s.entryBusy (Fin.ofNat 128 (byteAt ps 0).toNat) = true) : eraseLayoutBody p ps s = unchanged s .busy :=
  (if_neg (Nat.not_lt.2 h)).trans (if_pos hb)

/-- R67: any other entry becomes empty, and the result tells whether it held a record. -/
theorem eraseLayoutBody_done (p : Fin 16) (h : (byteAt ps 0).toNat ≤ 127)
    (hb : s.entryBusy (Fin.ofNat 128 (byteAt ps 0).toNat) = false) :
    eraseLayoutBody p ps s = ⟨s.setEntry (Fin.ofNat 128 (byteAt ps 0).toNat) none,
      .done (byte1 (byteAt ps 0).toNat ++ flag s.library[Fin.ofNat 128 (byteAt ps 0).toNat].isSome), id⟩ :=
  (if_neg (Nat.not_lt.2 h)).trans (if_neg (Bool.not_eq_true _ ▸ hb))

end

/-! ### The request as a whole -/

/-- The write of an entry once a service has begun is that of the part before, with the request gone from its queue. -/
theorem setEntry_beginService_same (p : Fin 16) (e : Fin 128) (l : Option Layout) (s : State) :
    SameButMarks ((s.beginService p).setEntry e l) { ({ s with library := put s.library e l } : State) with
      served := p, ports := (s.beginService p).ports } := by
  unfold State.setEntry State.beginService State.modPort
  rfl

/-- R160 step 6: an ERASE LAYOUT of one parameter byte, from a port of OBSERVE grant. -/
theorem screenRequest_eraseLayout_observe {x : Port} {r : Request} (hc : r.code = 8) (hl : r.params.length = 1)
    (hg : x.grant = .observe) (ha : x.attention = false) : screenRequest x r = .refuse .observeOnly none := by
  have hn : r.code.toNat = 8 := congrArg BitVec.toNat hc
  apply screenRequest_observe hg ha <;> rw [hn]
  · decide
  · exact congrArg some hl.symm
  · rfl
  · rfl

/-- Settles O17: a request that passes the tests meets one of the three cases of its owning block, and one from a port of
OBSERVE grant is refused before it. -/
theorem eraseLayoutEmptiesTheEntry : Obligations.EraseLayoutEmptiesTheEntry := by
  intro s p r
  refine ⟨fun hs hn => ⟨_, exec_eraseLayout s, ?outOfRange⟩, fun hnext hc hl hg ha => ⟨_, exec_eraseLayout s, ?observe⟩,
    fun hs hn hb => ⟨_, exec_eraseLayout s, ?busy⟩, fun hs hn hb => ⟨_, exec_eraseLayout s, ?done⟩⟩
  case outOfRange => exact serve_refused hs (by decide) (eraseLayoutBody_outOfRange p hn)
  case observe =>
    have hcode : r.code.toNat = 8 := congrArg BitVec.toNat hc
    rw [← hcode]
    exact serve_screened eraseLayoutBody hnext ha (screenRequest_eraseLayout_observe hc hl hg ha)
  case busy =>
    rw [← beginService_entryBusy p s] at hb
    exact serve_busy hs (eraseLayoutBody_busy p hn hb)
  case done =>
    rw [← beginService_entryBusy p s] at hb
    have hbody := eraseLayoutBody_done p hn hb
    rw [beginService_library] at hbody
    exact serve_done _ hs hbody (setEntry_beginService_same p _ none s)

end Sys2Proof.Machine
end

