-- ==== Sys2Proof/Proofs/WindowTakes.lean ====
section
/-! PROOFS. Window takes and dissolves (06): the cases of SET RAMP (R104). -/

namespace Sys2Proof.Machine

/-! ### The length of a request that is served (R160 step 4) -/

/-- R160: a request that passes the tests has the length its code requires. -/
theorem requiredLength_of_pass {x : Port} {r : Request} (h : screenRequest x r = .pass) :
    requiredLength r.code.toNat r.params = some r.params.length := by
  unfold screenRequest screenForm at h
  split at h
  · nomatch h
  split at h
  · nomatch h
  split at h
  · nomatch h
  split at h
  · nomatch h
  · next hl => exact not_not.1 hl

/-- R104: a SET RAMP that is served carries all 16 entries. -/
theorem setRamp_params_length {s : State} {p : Fin 16} {r : Request} (h : s.Serves 18 p r) : r.params.length = 16 := by
  obtain ⟨-, hcode, hpass⟩ := h
  have hlen := requiredLength_of_pass hpass
  rw [hcode] at hlen
  exact (Option.some.inj hlen).symm

/-! ### The range tests of the entries (R104) -/

section
variable {ps : List Byte}

/-- The test of a parameter byte that is there. -/
theorem rampTests_getElem? {i : Nat} (h : i < ps.length) :
    ((ps.map (·.toNat)).map (within 0 32))[i]? = some (within 0 32 (byteAt ps i).toNat) := by
  simp [byteAt, h]

/-- A byte above 0 is one of the parameters, since a byte past their end reads as 0. -/
theorem lt_length_of_byteAt_pos {i : Nat} (h : 0 < (byteAt ps i).toNat) : i < ps.length := by
  by_contra hi
  simp [byteAt, hi] at h

/-- The first entry above 32 is the index that the tests find. -/
theorem rampTests_firstBad {i : Nat} (hi : 32 < (byteAt ps i).toNat) (hj : ∀ j : Nat, j < i → (byteAt ps j).toNat ≤ 32) :
    firstBad 0 ((ps.map (·.toNat)).map (within 0 32)) = some i := by
  have hlen : i < ps.length := lt_length_of_byteAt_pos (Nat.zero_lt_of_lt hi)
  refine firstBad_eq_some.2 ⟨i, (Nat.zero_add i).symm, ?_, fun j h => ?_⟩
  · rw [rampTests_getElem? hlen, show within 0 32 (byteAt ps i).toNat = false by simp [within, hi]]
  · rw [rampTests_getElem? (h.trans hlen), within_eq_true.2 ⟨Nat.zero_le _, hj j h⟩]

/-- Entries none of which is above 32 pass the tests. -/
theorem rampTests_pass (h : ∀ i : Nat, i < ps.length → (byteAt ps i).toNat ≤ 32) :
    firstBad 0 ((ps.map (·.toNat)).map (within 0 32)) = none := by
  refine firstBad_eq_none.2 fun b hb => ?_
  obtain ⟨i, hi⟩ := List.mem_iff_getElem?.1 hb
  have hlen : i < ps.length := by simpa using (List.getElem?_eq_some_iff.1 hi).1
  rw [rampTests_getElem? hlen, Option.some.injEq] at hi
  rw [← hi]
  exact within_eq_true.2 ⟨Nat.zero_le _, h i hlen⟩

/-- The ramp that the parameter bytes spell. -/
theorem rampOf_byteAt (i : Fin 16) : (rampOf (ps.map (·.toNat)))[i] = (byteAt ps i.val).toNat := by
  unfold rampOf
  rw [ofFn_get, fld_map_toNat]

/-! ### The owning block's part of SET RAMP (R104) -/

variable {s : State}

/-- R104: an entry above 32, the first such, is refused. -/
theorem setRampBody_outOfRange (p : Fin 16) {i : Nat} (hi : 32 < (byteAt ps i).toNat)
    (hj : ∀ j : Nat, j < i → (byteAt ps j).toNat ≤ 32) : setRampBody p ps s = unchanged s (outOfRange i) := by
  simp only [setRampBody, rampTests_firstBad hi hj]

/-- R104: entries in range meet a save. -/
theorem setRampBody_busy (p : Fin 16) (h : ∀ i : Nat, i < ps.length → (byteAt ps i).toNat ≤ 32) (hb : s.saving = true) :
    setRampBody p ps s = unchanged s .busy := by
  simp only [setRampBody, rampTests_pass h, hb, if_true]

/-- R104: entries in range replace the ramp, and nothing else. -/
theorem setRampBody_done (p : Fin 16) (h : ∀ i : Nat, i < ps.length → (byteAt ps i).toNat ≤ 32) (hb : s.saving = false) :
    setRampBody p ps s = ⟨{ s with ramp := rampOf (ps.map (·.toNat)) }, .done [], id⟩ := by
  simp only [setRampBody, rampTests_pass h, hb, Bool.false_eq_true, if_false]

end

/-! ### The request as a whole -/

/-- A new ramp once a service has begun is that of the part before, with the request gone from its queue. -/
theorem ramp_beginService_same (p : Fin 16) (v : Vector Nat 16) (s : State) :
    SameButMarks { s.beginService p with ramp := v } { ({ s with ramp := v } : State) with
      served := p, ports := (s.beginService p).ports } := by
  unfold State.beginService State.modPort
  rfl

/-- R160 step 6: a SET RAMP of 16 parameter bytes, from a port of OBSERVE grant. -/
theorem screenRequest_setRamp_observe {x : Port} {r : Request} (hc : r.code = 18) (hl : r.params.length = 16)
    (hg : x.grant = .observe) (ha : x.attention = false) : screenRequest x r = .refuse .observeOnly none := by
  have hn : r.code.toNat = 18 := congrArg BitVec.toNat hc
  apply screenRequest_observe hg ha <;> rw [hn]
  · decide
  · exact congrArg some hl.symm
  · rfl
  · rfl

/-- R104: the answer to a SET RAMP whose entries are in range, while no save is in flight. -/
theorem serve_setRamp_done {s : State} {p : Fin 16} {r : Request} (hs : s.Serves 18 p r)
    (h : ∀ i : Nat, i < r.params.length → (byteAt r.params i).toNat ≤ 32) (hb : s.saving = false) :
    AnsweredAs s (s.serve 18 setRampBody) { s with ramp := rampOf (r.params.map (·.toNat)) } p r .done [] :=
  serve_done _ hs (setRampBody_done p h ((beginService_saving p s).trans hb)) (ramp_beginService_same p _ s)

/-- Settles O28: a request that passes the tests meets one of the three cases of its owning block, and one from a port of
OBSERVE grant is refused before it. -/
theorem setRampReplacesTheEntries : Obligations.SetRampReplacesTheEntries := by
  intro s p r
  have inRange (hs : s.Serves 18 p r) (h : ∀ i : Nat, i < 16 → (byteAt r.params i).toNat ≤ 32) :
      ∀ i : Nat, i < r.params.length → (byteAt r.params i).toNat ≤ 32 :=
    fun i hi => h i (hi.trans_eq (setRamp_params_length hs))
  refine ⟨fun i hs _ hi hj => ⟨_, exec_setRamp s, ?outOfRange⟩, fun hnext hc hl hg ha => ⟨_, exec_setRamp s, ?observe⟩,
    fun hs h hb => ⟨_, exec_setRamp s, ?busy⟩, fun hs h hb => ⟨_, exec_setRamp s, ?done⟩⟩
  case outOfRange => exact serve_refused hs (by decide) (setRampBody_outOfRange p hi hj)
  case observe =>
    have hcode : r.code.toNat = 18 := congrArg BitVec.toNat hc
    rw [← hcode]
    exact serve_screened setRampBody hnext ha (screenRequest_setRamp_observe hc hl hg ha)
  case busy => exact serve_busy hs (setRampBody_busy p (inRange hs h) ((beginService_saving p s).trans hb))
  case done =>
    have answered := serve_setRamp_done hs (inRange hs h) hb
    have hramp : (s.serve 18 setRampBody).ramp = rampOf (r.params.map (·.toNat)) := SameButMarks.ramp answered
    rw [hramp]
    exact ⟨answered, rampOf_byteAt⟩

end Sys2Proof.Machine
end

