-- ==== Sys2Proof/Proofs/CueRunners.lean ====
section
/-! PROOFS. Cue lists and runners (08): the cases of STOP CUE (R144). -/

namespace Sys2Proof.Machine

/-! ### The waiting set (R124) -/

/-- R124: an IDLE runner is not in the waiting set. -/
theorem waitingTake_of_idle {s : State} {k : Fin 4} (h : s.runners[k].state = .idle) : s.waitingTake k = none := by
  unfold State.waitingTake
  rw [h]

/-! ### The owning block's part of STOP CUE (R144) -/

section
variable {ps : List Byte} {s : State}

/-- R144: a runner number above 3. -/
theorem stopCueBody_outOfRange (p : Fin 16) (h : 3 < (byteAt ps 0).toNat) :
    stopCueBody p ps s = unchanged s (outOfRange 0) :=
  if_pos h

/-- R144: a runner of the part is stopped, whatever its state. -/
theorem stopCueBody_done (p : Fin 16) (h : (byteAt ps 0).toNat ≤ 3) :
    stopCueBody p ps s = ⟨s.stopRunner (Fin.ofNat 4 (byteAt ps 0).toNat), .done [], id⟩ :=
  if_neg (Nat.not_lt.2 h)

end

/-! ### The request as a whole -/

/-- The write of a runner once a service has begun is that of the part before, with the request gone from its queue. -/
theorem withRunner_beginService_same (p : Fin 16) (k : Fin 4) (x : Runner) (s : State) :
    SameButMarks ((s.beginService p).withRunner k x) { s.withRunner k x with
      served := p, ports := (s.beginService p).ports } := by
  unfold State.withRunner State.beginService State.modPort
  rfl

/-- R144: a stop once a service has begun leaves the named runner IDLE, and its other fields as they were. -/
theorem stopRunner_beginService_same (p : Fin 16) (k : Fin 4) (s : State) :
    SameButMarks ((s.beginService p).stopRunner k) { s.withRunner k { s.runners[k] with state := .idle } with
      served := p, ports := (s.beginService p).ports } := by
  have stopped := stopRunner_same k (s.beginService p)
  rw [beginService_runners] at stopped
  exact stopped.trans (withRunner_beginService_same p k _ s)

/-- R144: the answer to a STOP CUE that names a runner of the part. -/
theorem serve_stopCue_done {s : State} {p : Fin 16} {r : Request} (hs : s.Serves 32 p r)
    (h : (byteAt r.params 0).toNat ≤ 3) :
    let k : Fin 4 := Fin.ofNat 4 (byteAt r.params 0).toNat
    AnsweredAs s (s.serve 32 stopCueBody) (s.withRunner k { s.runners[k] with state := .idle }) p r .done [] :=
  serve_done _ hs (stopCueBody_done p h) (stopRunner_beginService_same p _ s)

/-- Settles O36: a request that passes the tests meets one of the two cases of its owning block, and the runner that an
answered one names is IDLE, so that it waits for nothing. -/
theorem stopCueMakesTheRunnerIdle : Obligations.StopCueMakesTheRunnerIdle := by
  intro s p r hs n k
  refine ⟨fun hn => ⟨_, exec_stopCue s, ?outOfRange⟩, fun hn => ⟨_, exec_stopCue s, ?waitsNoMore, ?done⟩⟩
  case outOfRange => exact serve_refused hs (by decide) (stopCueBody_outOfRange p hn)
  case done => exact serve_stopCue_done hs hn
  case waitsNoMore =>
    have hrunners : (s.serve 32 stopCueBody).runners = put s.runners k { s.runners[k] with state := .idle } :=
      SameButMarks.runners (serve_stopCue_done hs hn)
    apply waitingTake_of_idle
    rw [hrunners, put_same]

end Sys2Proof.Machine
end

section
/-! PROOFS. What a command can be, and what a step keeps (the laws of every step). -/

namespace Sys2Proof.Machine

/-- The requests by their codes and owning blocks (12 section 12.3). -/
inductive Service : Nat → (Fin 16 → List Byte → State → Served) → Prop
  | setSource : Service 1 setSourceBody
  | requalify : Service 2 requalifyBody
  | readSource : Service 3 readSourceBody
  | capture : Service 4 captureBody
  | releaseStill : Service 5 releaseStillBody
  | readPool : Service 6 (readRequest poolReport)
  | loadLayout : Service 7 loadLayoutBody
  | eraseLayout : Service 8 eraseLayoutBody
  | readLayout : Service 9 readLayoutBody
  | setScreen : Service 10 setScreenBody
  | setCadence : Service 11 setCadenceBody
  | setPalette : Service 12 setPaletteBody
  | freeze : Service 13 freezeBody
  | setPulse : Service 14 setPulseBody
  | readScreen : Service 15 readScreenBody
  | windowTake : Service 16 windowTakeBody
  | rotate : Service 17 rotateBody
  | setRamp : Service 18 setRampBody
  | loadRotation : Service 19 loadRotationBody
  | readRamp : Service 20 (readRequest rampReport)
  | readRotation : Service 21 readRotationBody
  | loadScene : Service 22 loadSceneBody
  | eraseScene : Service 23 eraseSceneBody
  | readScene : Service 24 readSceneBody
  | takeScene : Service 25 takeSceneBody
  | takeLayout : Service 26 takeLayoutBody
  | revert : Service 27 revertBody
  | abortTake : Service 28 abortTakeBody
  | readTake : Service 29 (readRequest takeReport)
  | loadCues : Service 30 loadCuesBody
  | readCues : Service 34 readCuesBody
  | startCue : Service 31 startCueBody
  | stopCue : Service 32 stopCueBody
  | resumeCue : Service 33 resumeCueBody
  | readRunner : Service 35 readRunnerBody
  | setTime : Service 36 setTimeBody
  | setAlarm : Service 37 setAlarmBody
  | setTrigger : Service 38 setTriggerBody
  | readSchedule : Service 39 (readRequest scheduleReport)
  | setGrant : Service 40 setGrantBody
  | readGrants : Service 41 (readRequest grantBytes)
  | status : Service 42 statusBody
  | fetchCondition : Service 43 fetchConditionBody
  | restart : Service 44 restartBody
  | saveTables : Service 45 saveTablesBody

/-- The effects of the entries that act as the requests of their names (R130); ROTATE's without its exhausted mark. -/
def actFields : List (List Nat → State → State × Answer) :=
  [windowTakeFields, freezeFields, setPulseFields, captureFields, releaseStillFields, requalifyFields]

/-- The entries by their kinds and effects (08 section 8.4). -/
inductive Execution : CueKind → (Fin 4 → CueEntry → State → State) → Prop
  | take {kind : CueKind} (take : CueEntry → Take) : Execution kind (State.takeEntry take)
  | act {kind : CueKind} {fields : List Nat → State → State × Answer} (h : fields ∈ actFields) :
      Execution kind (State.actAs fields)
  | rotate : Execution .rotate State.rotateEntry
  | waitPictures : Execution .waitPictures State.waitPicturesEntry
  | waitTime : Execution .waitTime State.waitTimeEntry
  | waitQualified : Execution .waitQualified State.waitQualifiedEntry
  | jump : Execution .jump State.jumpEntry
  | call : Execution .call State.callEntry
  | ret : Execution .ret fun r _ s => s.returnFrom r
  | halt : Execution .halt fun r _ s => s.haltRunner r
  | empty : Execution .empty fun _ _ s => s

/-- The events that are neither the service of a known request nor the execution of an entry, with what each makes of
the part. -/
inductive Event (s : State) : State → Prop
  | powerOn : Event s s.powerOn
  | startUpEnd : Event s s.endStartUp
  | cell (p : Fin 16) (cell : List Byte) : Event s (s.cellArrives p cell)
  | silence (p : Fin 16) : Event s (s.silenceExpires p)
  | stale (i : Fin 16) : Event s ((s.startStale i).takeMiss i)
  | cadenceTick (k : Cadence) : Event s (s.deliverTick k)
  | screenTick (c : Fin 24) : Event s (s.takeTick c)
  | countEnd (r : Fin 4) : Event s (s.countEnds r)
  | secondTick : Event s s.secondTick
  | timer (r : Fin 4) : Event s (s.timerExpires r)
  | load {c : Fin 24} {e : Fin 128} {l : Layout} (h : s.loadInProgress = some (c, e, l)) : Event s (s.loadCompletes c e l)
  | result (r : Fin 4) : Event s (s.resultTaken r)
  | erased : Event s s.eraseCompletes
  | programmed : Event s s.programCompletes
  | readBack (l : List Host.Cell) : Event s (s.readBackCompletes l)
  | flashSilent : Event s s.flashUnanswered
  | unknown : Event s s.serveUnknown
  | none : Event s s

/-- What a command that is carried out can be. -/
theorem exec_cases {c : Instr} {s t : State} (h : exec c s = .next t) :
    (∃ code body, Service code body ∧ commandOf code = c ∧ t = s.serve code body) ∨
    (∃ kind run r, Execution kind run ∧ t = s.cueEvent kind (run r) r) ∨ Event s t := by
  cases c
  case readBackComplete l =>
    rw [exec_readBackComplete] at h
    unfold execReadBackComplete at h
    split at h
    · cases h
    · cases h
      exact .inr (.inr (.readBack l))
  all_goals obtain rfl := Host.Outcome.next.inj h
  case setSource => exact .inl ⟨_, _, .setSource, rfl, rfl⟩
  case requalify => exact .inl ⟨_, _, .requalify, rfl, rfl⟩
  case readSource => exact .inl ⟨_, _, .readSource, rfl, rfl⟩
  case capture => exact .inl ⟨_, _, .capture, rfl, rfl⟩
  case releaseStill => exact .inl ⟨_, _, .releaseStill, rfl, rfl⟩
  case readPool => exact .inl ⟨_, _, .readPool, rfl, rfl⟩
  case loadLayout => exact .inl ⟨_, _, .loadLayout, rfl, rfl⟩
  case eraseLayout => exact .inl ⟨_, _, .eraseLayout, rfl, rfl⟩
  case readLayout => exact .inl ⟨_, _, .readLayout, rfl, rfl⟩
  case setScreen => exact .inl ⟨_, _, .setScreen, rfl, rfl⟩
  case setCadence => exact .inl ⟨_, _, .setCadence, rfl, rfl⟩
  case setPalette => exact .inl ⟨_, _, .setPalette, rfl, rfl⟩
  case freeze => exact .inl ⟨_, _, .freeze, rfl, rfl⟩
  case setPulse => exact .inl ⟨_, _, .setPulse, rfl, rfl⟩
  case readScreen => exact .inl ⟨_, _, .readScreen, rfl, rfl⟩
  case windowTake => exact .inl ⟨_, _, .windowTake, rfl, rfl⟩
  case rotate => exact .inl ⟨_, _, .rotate, rfl, rfl⟩
  case setRamp => exact .inl ⟨_, _, .setRamp, rfl, rfl⟩
  case loadRotation => exact .inl ⟨_, _, .loadRotation, rfl, rfl⟩
  case readRamp => exact .inl ⟨_, _, .readRamp, rfl, rfl⟩
  case readRotation => exact .inl ⟨_, _, .readRotation, rfl, rfl⟩
  case loadScene => exact .inl ⟨_, _, .loadScene, rfl, rfl⟩
  case eraseScene => exact .inl ⟨_, _, .eraseScene, rfl, rfl⟩
  case readScene => exact .inl ⟨_, _, .readScene, rfl, rfl⟩
  case takeScene => exact .inl ⟨_, _, .takeScene, rfl, rfl⟩
  case takeLayout => exact .inl ⟨_, _, .takeLayout, rfl, rfl⟩
  case revert => exact .inl ⟨_, _, .revert, rfl, rfl⟩
  case abortTake => exact .inl ⟨_, _, .abortTake, rfl, rfl⟩
  case readTake => exact .inl ⟨_, _, .readTake, rfl, rfl⟩
  case loadCues => exact .inl ⟨_, _, .loadCues, rfl, rfl⟩
  case readCues => exact .inl ⟨_, _, .readCues, rfl, rfl⟩
  case startCue => exact .inl ⟨_, _, .startCue, rfl, rfl⟩
  case stopCue => exact .inl ⟨_, _, .stopCue, rfl, rfl⟩
  case resumeCue => exact .inl ⟨_, _, .resumeCue, rfl, rfl⟩
  case readRunner => exact .inl ⟨_, _, .readRunner, rfl, rfl⟩
  case setTime => exact .inl ⟨_, _, .setTime, rfl, rfl⟩
  case setAlarm => exact .inl ⟨_, _, .setAlarm, rfl, rfl⟩
  case setTrigger => exact .inl ⟨_, _, .setTrigger, rfl, rfl⟩
  case readSchedule => exact .inl ⟨_, _, .readSchedule, rfl, rfl⟩
  case setGrant => exact .inl ⟨_, _, .setGrant, rfl, rfl⟩
  case readGrants => exact .inl ⟨_, _, .readGrants, rfl, rfl⟩
  case status => exact .inl ⟨_, _, .status, rfl, rfl⟩
  case fetchCondition => exact .inl ⟨_, _, .fetchCondition, rfl, rfl⟩
  case restart => exact .inl ⟨_, _, .restart, rfl, rfl⟩
  case saveTables => exact .inl ⟨_, _, .saveTables, rfl, rfl⟩
  case cueTakeScene r | cueTakeLayout r | cueRevert r => exact .inr (.inl ⟨_, _, r, .take _, rfl⟩)
  case cueWindowTake r | cueFreeze r | cueSetPulse r | cueCapture r | cueReleaseStill r | cueRequalify r =>
    exact .inr (.inl ⟨_, _, r, .act (by simp [actFields]), rfl⟩)
  case cueRotate r => exact .inr (.inl ⟨_, _, r, .rotate, rfl⟩)
  case waitPictures r => exact .inr (.inl ⟨_, _, r, .waitPictures, rfl⟩)
  case waitTime r => exact .inr (.inl ⟨_, _, r, .waitTime, rfl⟩)
  case waitQualified r => exact .inr (.inl ⟨_, _, r, .waitQualified, rfl⟩)
  case jump r => exact .inr (.inl ⟨_, _, r, .jump, rfl⟩)
  case call r => exact .inr (.inl ⟨_, _, r, .call, rfl⟩)
  case returnEntry r => exact .inr (.inl ⟨_, _, r, .ret, rfl⟩)
  case haltEntry r => exact .inr (.inl ⟨_, _, r, .halt, rfl⟩)
  case emptyEntry r => exact .inr (.inl ⟨_, _, r, .empty, rfl⟩)
  case powerOn => exact .inr (.inr .powerOn)
  case startUpEnd => exact .inr (.inr .startUpEnd)
  case bandCell p cell | controlCell p cell | idleCell p cell | malformedCell p cell | controlCellOutOfSync p cell =>
    exact .inr (.inr (.cell p cell))
  case silenceTimerExpiry p => exact .inr (.inr (.silence p))
  case staleTimerExpiry i =>
    split
    · exact .inr (.inr (.stale i))
    · exact .inr (.inr .none)
  case cadenceTick k => exact .inr (.inr (.cadenceTick k))
  case screenTick c =>
    split
    · exact .inr (.inr (.screenTick c))
    · exact .inr (.inr .none)
  case waitPicturesCountEnd r => exact .inr (.inr (.countEnd r))
  case secondTick => exact .inr (.inr .secondTick)
  case waitQualifiedTimerExpiry r => exact .inr (.inr (.timer r))
  case memberLoadCompletion =>
    split
    · exact .inr (.inr .none)
    · next e => exact .inr (.inr (.load e))
  case takeResultTaken r => exact .inr (.inr (.result r))
  case eraseComplete => exact .inr (.inr .erased)
  case programComplete => exact .inr (.inr .programmed)
  case flashNoAnswer => exact .inr (.inr .flashSilent)
  case unknownRequest => exact .inr (.inr .unknown)

/-- A step keeps what every service, every execution and every other event keeps. -/
theorem step_keeps_of {I : State → Prop} (hq : ∀ (s : State) (l : List Instr), I s → I { s with pending := l })
    (hs : ∀ {code body}, Service code body → ∀ s, I s → I (s.serve code body))
    (hx : ∀ {kind run}, Execution kind run → ∀ r s, I s → I (s.cueEvent kind (run r) r))
    (he : ∀ {s t}, Event s t → I s → I t) (s t : State) (h : I s) (ht : step s = .next t) : I t := by
  refine step_keeps hq (fun c u v hu hv => ?_) s t h ht
  obtain ⟨code, body, k, _, rfl⟩ | ⟨kind, run, r, k, rfl⟩ | k := exec_cases hv
  · exact hs k u hu
  · exact hx k r u hu
  · exact he k hu

section
variable {I : State → Prop} (hrun : ∀ r x s, I s → I (s.setRunner r x)) (hdraw : ∀ d s, I s → I (s.drawDetail d).2)
include hrun hdraw

/-- A fault keeps what the write of a runner and the draw of a detail keep. -/
theorem faultRunner_keeps {s : State} (r : Fin 4) (k : Code) (d : Option Nat) (h : I s) : I (s.faultRunner r k d) :=
  hrun _ _ _ (hdraw d s h)

variable (haccept : ∀ {q t s u}, I s → State.accept q t s = .ok u → I u)
include haccept

/-- A take that is submitted keeps what an acceptance and the writes of the runner keep. -/
theorem submitTake_keeps {s : State} (r : Fin 4) (t : Take) (granted : Bool) (h : I s) : I (s.submitTake r t granted) := by
  unfold State.submitTake
  split
  · exact faultRunner_keeps hrun hdraw _ _ _ h
  · next u hu =>
    have hu : I u := haccept h hu
    split
    · exact hrun _ _ _ hu
    · split
      · exact hrun _ _ _ hu
      · exact hrun _ _ _ hu

/-- An offer of the engine keeps what the takes that are submitted keep. -/
theorem offerEngine_keeps {s : State} (h : I s) : I s.offerEngine := by
  unfold State.offerEngine
  generalize List.finRange 4 = l
  induction l generalizing s with
  | nil => exact h
  | cons r l ih =>
    refine ih ?_
    unfold State.offerTo
    split
    · exact h
    · split
      · exact submitTake_keeps hrun hdraw haccept _ _ _ h
      · exact h

/-- R139: an execution keeps what the writes of a runner, the draw of a detail, the acceptance of a take and the requests
that entries act as keep. -/
theorem execution_keeps {kind : CueKind} {run : Fin 4 → CueEntry → State → State} (hx : Execution kind run)
    (hact : ∀ fields ∈ actFields, ∀ f s, I s → I (fields f s).1) (hrotate : ∀ f s, I s → I (rotateFields f s).1)
    (r : Fin 4) (s : State) (h : I s) : I (s.cueEvent kind (run r) r) := by
  have hfault {s : State} (k d) (h : I s) : I (s.faultRunner r k d) := faultRunner_keeps hrun hdraw r k d h
  refine cueEvent_keeps (fun k d u hu => hfault k d hu) (fun _ _ _ _ h => ?_) h
  generalize s.entryAt r = e
  cases hx with
  | take take =>
    unfold State.takeEntry
    split
    · exact hrun _ _ _ h
    · exact offerEngine_keeps hrun hdraw haccept (submitTake_keeps hrun hdraw haccept _ _ _ h)
  | act hf => exact followRequest_keeps (fun k d u hu => hfault k d hu) (hrun _ _ _) (hact _ hf _ _ h)
  | rotate =>
    unfold State.rotateEntry
    dsimp only
    split
    · exact hfault _ _ h
    · exact followRequest_keeps (fun k d u hu => hfault k d hu) (hrun _ _ _) (hrotate _ _ h)
  | waitPictures => exact hrun _ _ _ h
  | waitTime =>
    unfold State.waitTimeEntry
    split
    · exact hrun _ _ _ h
    · exact hfault _ _ h
  | waitQualified =>
    unfold State.waitQualifiedEntry
    split
    · exact hrun _ _ _ h
    · exact hrun _ _ _ h
  | jump => exact hrun _ _ _ h
  | call =>
    unfold State.callEntry
    split
    · exact hfault _ _ h
    · exact hrun _ _ _ h
  | ret =>
    dsimp only
    unfold State.returnFrom
    split
    · exact hfault _ _ h
    · exact hrun _ _ _ h
  | halt => exact hrun _ _ _ h
  | empty => exact h

end

end Sys2Proof.Machine
end

section
/-! PROOFS. The laws of what the ports hold: a request queue holds at most 4 (R157), and some port holds FULL (R165). -/

namespace Sys2Proof.Machine

/-! ### Laws of what the ports hold: the request queues (R157) and the grants (R165) -/

section
variable {I : State → Prop} (hc : ∀ {s t : State}, t.holdings = s.holdings → I s → I t)
  (harrives : ∀ p r s, I s → I (State.requestArrives p r s)) (hbegin : ∀ p s, I s → I (State.beginService p s))
include hc

/-- A cell keeps what the arrival of a request keeps, if it is read from the queues and the grants. -/
theorem cellArrives_keeps_holdings (harrives : ∀ p r s, I s → I (State.requestArrives p r s)) {s : State} (p : Fin 16)
    (cell : List Byte) (h : I s) : I (s.cellArrives p cell) := by
  have wellFormed (c : Cell) {u : State} (hu : I u) : I (u.wellFormedArrives p c) := by
    unfold State.wellFormedArrives
    split
    · dsimp only
      split
      · exact hc (by simp [modPort_holdings]) hu
      · exact hc (by simp [modPort_holdings]) hu
    · have hv : I (u.modPort p fun x => { x with badRun := 0 }) := hc (by simp [modPort_holdings]) hu
      unfold State.sortCell
      split
      · exact hv
      · exact hv
      · exact harrives _ _ _ hv
      · exact hc (by simp) hv
  have hu : I (s.modPort p fun x => { x with silence := true }) := hc (by simp [modPort_holdings]) h
  unfold State.cellArrives
  dsimp only
  split
  · exact hc (by simp) hu
  · exact wellFormed _ hu
  · exact wellFormed _ hu
  · exact wellFormed _ hu

/-- A service keeps what its beginning, a SET GRANT and a RESTART keep, if it is read from the queues and the grants. -/
theorem service_keeps_holdings (hbegin : ∀ p s, I s → I (State.beginService p s))
    (hgrant : ∀ p ps s, I s → I (setGrantBody p ps s).state) (hrestart : ∀ p s, I s → I (State.restartBlocks p s))
    {code : Nat} {body : Fin 16 → List Byte → State → Served} (hs : Service code body) {s : State} (h : I s) :
    I (s.serve code body) := by
  refine serve_keeps hbegin (fun p r u k => hc (by simp) k) (fun p r a u k => hc (by simp) k) (fun p ps u k => ?_)
    (fun p ps u t k => ?_) h
  case refine_1 =>
    cases hs
    case setGrant => exact hgrant p ps u k
    all_goals exact hc (by simp [readRequest, unchanged, restartBody]) k
  case refine_2 =>
    cases hs
    case restart => exact hrestart p t k
    all_goals exact hc (by simp [readRequest, unchanged]) k

/-- An execution keeps what is read from the queues and the grants. -/
theorem execution_keeps_holdings {kind : CueKind} {run : Fin 4 → CueEntry → State → State} (hx : Execution kind run)
    (r : Fin 4) (s : State) (h : I s) : I (s.cueEvent kind (run r) r) := by
  refine execution_keeps (fun r x s k => hc (by simp) k) (fun d s k => hc (by simp) k)
    (fun {q t s u} k hu => hc (by simp [accept_frame s q t u hu]) k) hx
    (fun fields hf f s k => hc ?_ k) (fun f s k => hc (by simp) k) r s h
  simp only [actFields, List.mem_cons, List.not_mem_nil, or_false] at hf
  obtain rfl | rfl | rfl | rfl | rfl | rfl := hf <;> simp

/-- The events but for power-on and the end of start-up keep what an arrival and a beginning keep, if it is read from the
queues and the grants. -/
theorem event_keeps_holdings (harrives : ∀ p r s, I s → I (State.requestArrives p r s))
    (hbegin : ∀ p s, I s → I (State.beginService p s)) {s t : State} (e : Event s t) (hp : I s.powerOn)
    (hu : I s → I s.endStartUp) (h : I s) : I t := by
  cases e
  case powerOn => exact hp
  case startUpEnd => exact hu h
  case cell p cell => exact cellArrives_keeps_holdings hc harrives p cell h
  case unknown => exact serveUnknown_keeps hbegin (fun p r u k => hc (by simp) k) (fun p r a u k => hc (by simp) k) h
  all_goals exact hc (by simp) h

end

/-- The length of every request queue is read from what the ports hold. -/
theorem queueLaw_congr {s t : State} (h : t.holdings = s.holdings) (k : s.QueueLaw) : t.QueueLaw := fun p => by
  have hp := congrArg (fun v => (v[p]).1.length) h
  simp only [State.holdings, mapTable_get] at hp
  exact hp.trans_le (k p)

/-- A change of one port keeps the law when the port's new queue does. -/
theorem modPort_queueLaw {s : State} (h : s.QueueLaw) (p : Fin 16) (f : Port → Port)
    (hf : (f s.ports[p]).queue.length ≤ 4) : (s.modPort p f).QueueLaw := fun q => by
  rw [State.modPort_ports, put_get]
  split
  · exact hf
  · exact h q

/-- R158: a request that leaves its queue. -/
theorem beginService_queueLaw (p : Fin 16) (s : State) (h : s.QueueLaw) : (s.beginService p).QueueLaw :=
  modPort_queueLaw h p (fun x => { x with queue := x.queue.tail })
    (by rw [List.length_tail]; exact (Nat.sub_le _ 1).trans (h p))

/-- R157: a request joins a queue of fewer than 4. -/
theorem requestArrives_queueLaw (p : Fin 16) (r : Request) (s : State) (h : s.QueueLaw) : (s.requestArrives p r).QueueLaw := by
  unfold State.requestArrives
  split
  · exact h
  · split
    · exact queueLaw_congr (by simp) h
    · split
      · exact queueLaw_congr (by simp) h
      · next hl => exact modPort_queueLaw h p _ (by rw [List.length_append]; exact Nat.not_le.1 hl)

/-- R166: a SET GRANT leaves the request queues. -/
theorem setGrantBody_queueLaw (p : Fin 16) (ps : List Byte) (s : State) (h : s.QueueLaw) :
    (setGrantBody p ps s).state.QueueLaw := by
  unfold setGrantBody
  dsimp only
  split
  · exact h
  · split
    · exact h
    · split
      · exact h
      · exact modPort_queueLaw h _ _ (h _)

/-- R167: the ports after a RESTART, the marks, conditions and attention marks left out. -/
theorem restartBlocks_holdings (p : Fin 16) (s : State) :
    (s.restartBlocks p).holdings = mapTable (fun x : Port => ([], x.grant)) s.ports := by
  have aborted : s.abortJob.holdings = s.holdings := by simp
  unfold State.restartBlocks
  simp only [raiseAttention_frame, abandonSave_frame]
  refine table_ext fun q => ?_
  have hq := congrArg (fun v => v[q]) aborted
  simp only [State.holdings, mapTable_get, Prod.mk.injEq] at hq ⊢
  exact ⟨rfl, hq.2⟩

/-- R158, R167: a RESTART empties the request queues. -/
theorem restartBlocks_queueLaw (p : Fin 16) (s : State) (_ : s.QueueLaw) : (s.restartBlocks p).QueueLaw := fun q => by
  have e := congrArg (fun v => (v[q]).1.length) (restartBlocks_holdings p s)
  simp only [State.holdings, mapTable_get] at e
  exact e.trans_le (Nat.zero_le 4)

/-- R176: the end of start-up leaves the request queues. -/
theorem endStartUp_queueLaw (s : State) (h : s.QueueLaw) : s.endStartUp.QueueLaw := by
  unfold State.endStartUp
  split
  · split
    · next im _ =>
      refine queueLaw_congr (s := s.restoreTables im) (by simp) fun p => ?_
      have hp := (restoreTables_rest im s).port_queue p
      simp only [ofFn_get] at hp
      exact (congrArg List.length hp).trans_le (h p)
    · exact queueLaw_congr (by simp) h
  · exact h
  · exact h

/-- Settles O55: only an arrival lengthens a queue, and it tests the length first. -/
theorem queuesHoldAtMostFour : Obligations.QueuesHoldAtMostFour := by
  refine step_keeps_of (fun s l h => h) (fun hs s h => service_keeps_holdings queueLaw_congr beginService_queueLaw
    setGrantBody_queueLaw restartBlocks_queueLaw hs h) (fun hx r s h => execution_keeps_holdings queueLaw_congr hx r s h)
    fun e h => event_keeps_holdings queueLaw_congr requestArrives_queueLaw beginService_queueLaw e ?_ (endStartUp_queueLaw _) h
  intro p
  simp [State.powerOn, State.reset, Port.powerOn]

/-! ### The grants (R165) -/

/-- Whether some port holds FULL is read from what the ports hold. -/
theorem grantLaw_congr {s t : State} (h : t.holdings = s.holdings) (k : s.GrantLaw) : t.GrantLaw := by
  obtain ⟨p, hp⟩ := k
  have e := congrArg (fun v => (v[p]).2) h
  simp only [State.holdings, mapTable_get] at e
  exact ⟨p, e.trans hp⟩

/-- The port that holds FULL still does when every port has its grant. -/
theorem grantLaw_of_grants {s t : State} (h : ∀ p : Fin 16, t.ports[p].grant = s.ports[p].grant) (k : s.GrantLaw) : t.GrantLaw := by
  obtain ⟨p, hp⟩ := k
  exact ⟨p, (h p).trans hp⟩

/-- A change of one port that leaves its grant. -/
theorem modPort_grant {s : State} {p : Fin 16} {f : Port → Port} (hf : ∀ x : Port, (f x).grant = x.grant) (q : Fin 16) :
    (s.modPort p f).ports[q].grant = s.ports[q].grant := by
  rw [State.modPort_ports, put_get]
  split
  · next e => rw [hf, e]
  · rfl

/-- R158: the beginning of a service leaves the grants. -/
theorem beginService_grantLaw (p : Fin 16) (s : State) (h : s.GrantLaw) : (s.beginService p).GrantLaw :=
  grantLaw_of_grants (s := s) (modPort_grant (p := p) (f := fun x => { x with queue := x.queue.tail }) fun _ => rfl) h

/-- R157: an arrival leaves the grants. -/
theorem requestArrives_grantLaw (p : Fin 16) (r : Request) (s : State) (h : s.GrantLaw) : (s.requestArrives p r).GrantLaw := by
  unfold State.requestArrives
  split
  · exact h
  · split
    · exact grantLaw_congr (by simp) h
    · split
      · exact grantLaw_congr (by simp) h
      · exact grantLaw_of_grants (modPort_grant fun _ => rfl) h

/-- R166: the port named is not the only one that holds FULL, or keeps FULL. -/
theorem setGrantBody_grantLaw (p : Fin 16) (ps : List Byte) (s : State) (h : s.GrantLaw) :
    (setGrantBody p ps s).state.GrantLaw := by
  unfold setGrantBody
  dsimp only
  split
  · exact h
  · split
    · exact h
    · split
      · exact h
      · next hg =>
        generalize Fin.ofNat 16 (fld (splitFields [1, 1] ps) 0) = q at hg ⊢
        generalize Grant.ofNum (fld (splitFields [1, 1] ps) 1) = g at hg ⊢
        by_cases hfull : g = .full
        · exact ⟨q, by simp [hfull]⟩
        · obtain ⟨k, hk⟩ := h
          have hq : ∃ r, r ≠ q ∧ s.ports[r].grant = .full := by
            by_contra hno
            have hq : s.ports[q].grant = .full := by
              by_contra hn
              exact hno ⟨k, fun e => hn (e ▸ hk), hk⟩
            refine hg ⟨hfull, List.all_eq_true.2 fun r _ => ?_⟩
            by_cases hr : r = q
            · simpa [hr] using hq
            · simpa [hr] using fun hf => hno ⟨r, hr, hf⟩
          obtain ⟨r, hr, hf⟩ := hq
          refine ⟨r, ?_⟩
          rw [State.modPort_ports, put_get, if_neg (Ne.symm hr)]
          exact hf

/-- R167: a RESTART leaves the grants. -/
theorem restartBlocks_grantLaw (p : Fin 16) (s : State) (h : s.GrantLaw) : (s.restartBlocks p).GrantLaw := by
  obtain ⟨q, hq⟩ := h
  have e := congrArg (fun v => (v[q]).2) (restartBlocks_holdings p s)
  simp only [State.holdings, mapTable_get] at e
  exact ⟨q, e.trans hq⟩

/-- R165: the grants of an image, with F0 made FULL where none is. -/
theorem storedGrant_full (bs : List Byte) : ∃ p : Fin 16, storedGrant bs p = .full := by
  by_cases hany : ((List.range 16).any fun i => (byteAt bs i).toNat = 2) = true
  · obtain ⟨i, hi, hb⟩ := List.any_eq_true.1 hany
    refine ⟨⟨i, List.mem_range.1 hi⟩, ?_⟩
    unfold storedGrant
    rw [hany, if_neg (by simp), of_decide_eq_true hb]
    rfl
  · refine ⟨0, ?_⟩
    unfold storedGrant
    rw [if_pos ⟨rfl, by simpa using hany⟩]

/-- R176: the end of start-up leaves the grants, or takes those of an image. -/
theorem endStartUp_grantLaw (s : State) (h : s.GrantLaw) : s.endStartUp.GrantLaw := by
  unfold State.endStartUp
  split
  · split
    · next im _ =>
      refine grantLaw_congr (s := s.restoreTables im) (by simp) ?_
      obtain ⟨p, hp⟩ := storedGrant_full (im.body 10)
      refine ⟨p, ?_⟩
      have e := (restoreTables_rest im s).port_grant p
      simp only [ofFn_get] at e
      exact e.trans hp
    · exact grantLaw_congr (by simp) h
  · exact h
  · exact h

/-- Settles O59: only SET GRANT, START_UP_END, POWER_ON change a grant, and each leaves a port that holds FULL. -/
theorem somePortIsFull : Obligations.SomePortIsFull := by
  refine step_keeps_of (fun s l h => h) (fun hs s h => service_keeps_holdings grantLaw_congr beginService_grantLaw
    setGrantBody_grantLaw restartBlocks_grantLaw hs h) (fun hx r s h => execution_keeps_holdings grantLaw_congr hx r s h)
    fun e h => event_keeps_holdings grantLaw_congr requestArrives_grantLaw beginService_grantLaw e ?_ (endStartUp_grantLaw _) h
  exact ⟨0, by simp [State.powerOn, State.reset, Port.powerOn, Grant.powerOn]⟩

end Sys2Proof.Machine
end

section
/-! PROOFS. The laws of the flash and of the stored tables: the image area stays in its canonical form (log 10), and every
stored table within its owner's checks. -/

namespace Sys2Proof.Machine

/-! ### The image area -/

/-- The canonical form is read from the flash's cells. -/
theorem flashLaw_congr {s t : State} (h : t.store.flash = s.store.flash) (k : s.FlashLaw) : t.FlashLaw :=
  (congrArg (fun f : Flash => memWf f.cells) h).trans k

/-- A state with the store of another keeps its image area. -/
theorem flashLaw_of_store {s t : State} (h : t.store = s.store) (k : s.FlashLaw) : t.FlashLaw :=
  flashLaw_congr (congrArg Store.flash h) k

/-- R173, R174: an image area whose contents are not given lists no byte. -/
theorem loseImageArea_flashLaw (b : Bool) (s : State) : (s.loseImageArea b).FlashLaw := rfl

/-- R174: a save that is abandoned keeps the canonical form. -/
theorem abandonSave_flashLaw {s : State} (h : s.FlashLaw) : s.abandonSave.FlashLaw := by
  unfold State.abandonSave
  split
  · rfl
  · exact h

/-- R167: a RESTART keeps the canonical form. -/
theorem restartBlocks_flashLaw (p : Fin 16) {s : State} (h : s.FlashLaw) : (s.restartBlocks p).FlashLaw := by
  unfold State.restartBlocks
  exact abandonSave_flashLaw (flashLaw_of_store (s := s) (by simp) h)

/-- R172: SAVE TABLES takes a snapshot and writes no byte yet. -/
theorem saveTablesBody_flashLaw (p : Fin 16) (ps : List Byte) {s : State} (h : s.FlashLaw) :
    (saveTablesBody p ps s).state.FlashLaw := by
  unfold saveTablesBody
  split
  · exact flashLaw_congr rfl h
  · exact h
  · exact h

/-- A service keeps the canonical form: a RESTART alone can change the image area. -/
theorem service_flashLaw {code : Nat} {body : Fin 16 → List Byte → State → Served} (hs : Service code body) (s : State)
    (h : s.FlashLaw) : (s.serve code body).FlashLaw := by
  refine serve_keeps (I := State.FlashLaw) (fun p u k => flashLaw_of_store (by simp) k)
    (fun p r u k => flashLaw_of_store (by simp) k) (fun p r a u k => flashLaw_of_store (by simp) k) (fun p ps u k => ?_)
    (fun p ps u t k => ?_) h
  case refine_1 =>
    cases hs
    case saveTables => exact saveTablesBody_flashLaw p ps k
    all_goals exact flashLaw_of_store (by simp [readRequest, unchanged, restartBody]) k
  case refine_2 =>
    cases hs
    case restart => exact restartBlocks_flashLaw p k
    all_goals exact flashLaw_of_store (by simp [readRequest, unchanged]) k

/-- An execution leaves the image area. -/
theorem execution_flashLaw {kind : CueKind} {run : Fin 4 → CueEntry → State → State} (hx : Execution kind run) (r : Fin 4)
    (s : State) (h : s.FlashLaw) : (s.cueEvent kind (run r) r).FlashLaw := by
  refine execution_keeps (I := State.FlashLaw) (fun r x s k => flashLaw_of_store (by simp) k)
    (fun d s k => flashLaw_of_store (by simp) k) (fun {q t s u} k hu => flashLaw_of_store (by simp [accept_frame s q t u hu]) k)
    hx (fun fields hf f s k => flashLaw_of_store ?_ k) (fun f s k => flashLaw_of_store (by simp) k) r s h
  simp only [actFields, List.mem_cons, List.not_mem_nil, or_false] at hf
  obtain rfl | rfl | rfl | rfl | rfl | rfl := hf <;> simp

/-- R173: the erase empties the area. -/
theorem eraseCompletes_flashLaw {s : State} (h : s.FlashLaw) : s.eraseCompletes.FlashLaw := by
  unfold State.eraseCompletes
  split
  · rfl
  · exact h

/-- R173: the program writes the image byte by byte. -/
theorem programCompletes_flashLaw {s : State} (h : s.FlashLaw) : s.programCompletes.FlashLaw := by
  unfold State.programCompletes
  split
  · exact memWriteBytes_wf _ _ h
  · exact h

/-- R173, log 11: the bytes that read back otherwise are written in their places. -/
theorem readBackCompletes_flashLaw (l : List Host.Cell) {s : State} (h : s.FlashLaw) : (s.readBackCompletes l).FlashLaw := by
  unfold State.readBackCompletes
  split
  · exact memWriteCells_wf _ h
  · exact h

/-- R173: a flash that does not answer keeps its area or loses it whole. -/
theorem flashUnanswered_flashLaw {s : State} (h : s.FlashLaw) : s.flashUnanswered.FlashLaw := by
  unfold State.flashUnanswered
  split
  · rfl
  · rfl
  · exact flashLaw_congr rfl h
  · exact flashLaw_congr rfl h
  · exact h

/-- R175: power-on keeps the image area, or loses it whole with a save in flight. -/
theorem powerOn_flashLaw {s : State} (h : s.FlashLaw) : s.powerOn.FlashLaw := by
  unfold State.powerOn
  dsimp only
  split
  · rfl
  · exact h

/-- R176: the end of start-up leaves the image area. -/
theorem endStartUp_flashLaw {s : State} (h : s.FlashLaw) : s.endStartUp.FlashLaw := by
  have settled (c : Code) {u : State} (hu : u.FlashLaw) : (u.settleStart c).FlashLaw := by
    obtain ⟨-, -, -, hrest⟩ := settleStart_settled c u
    exact (congrArg (fun v : State => memWf v.store.flash.cells) hrest).trans hu
  unfold State.endStartUp
  split
  · split
    · next im _ =>
      have restored := restoreTables_rest im s
      generalize s.restoreTables im = w at restored ⊢
      exact settled _ (flashLaw_of_store (s := s) restored.store h)
    · exact settled _ h
  · exact h
  · exact h

/-- An event keeps the canonical form. -/
theorem event_flashLaw {s t : State} (e : Event s t) (h : s.FlashLaw) : t.FlashLaw := by
  cases e
  case powerOn => exact powerOn_flashLaw h
  case startUpEnd => exact endStartUp_flashLaw h
  case erased => exact eraseCompletes_flashLaw h
  case programmed => exact programCompletes_flashLaw h
  case readBack l => exact readBackCompletes_flashLaw l h
  case flashSilent => exact flashUnanswered_flashLaw h
  case unknown =>
    exact serveUnknown_keeps (I := State.FlashLaw) (fun p u k => flashLaw_of_store (by simp) k)
      (fun p r u k => flashLaw_of_store (by simp) k) (fun p r a u k => flashLaw_of_store (by simp) k) h
  all_goals exact flashLaw_of_store (by simp) h

/-! ### The stored tables -/

section
variable {s : State}

/-- R114: a take that a port submits leaves the stored tables. -/
theorem requestTake_stored (p : Fin 16) (t : Take) : (requestTake p t s).state.stored = s.stored := by
  unfold requestTake
  split
  · rfl
  · split
    · rfl
    · next u hu => exact (offerEngine_stored (t := u)).trans (accept_stored hu)

/-- What the owning block of a request that edits no stored table leaves. -/
theorem service_stored {code : Nat} {body : Fin 16 → List Byte → State → Served} (hs : Service code body)
    (hc : code ∉ [1, 7, 8, 10, 11, 18, 19, 22, 23, 30, 37, 38]) (p : Fin 16) (ps : List Byte) :
    (body p ps s).state.stored = s.stored := by
  cases hs
  case requalify => exact requalifyFields_stored _
  case freeze => exact freezeFields_stored _
  case setPulse => exact setPulseFields_stored _
  case windowTake => exact windowTakeFields_stored _
  case rotate => exact rotateFields_stored _
  case readSource =>
    unfold readSourceBody
    dsimp only
    (repeat' split) <;> simp [unchanged, State.clearCounters]
  case takeScene =>
    unfold takeSceneBody
    dsimp only
    split
    · rfl
    · exact requestTake_stored _ _
  case takeLayout =>
    unfold takeLayoutBody
    dsimp only
    split
    · rfl
    · exact requestTake_stored _ _
  case revert =>
    unfold revertBody
    dsimp only
    (repeat' split) <;> simp [unchanged]
  case abortTake =>
    unfold abortTakeBody
    split <;> simp [unchanged]
  case setSource | loadLayout | eraseLayout | setScreen | setCadence | setRamp | loadRotation | loadScene | eraseScene |
      loadCues | setAlarm | setTrigger => exact absurd (by decide) hc
  all_goals unfold State.stored
  all_goals simp [readRequest, unchanged, restartBody]

end

/-- A service leaves in every stored table only what its owner's checks pass. -/
theorem service_tablesLaw {code : Nat} {body : Fin 16 → List Byte → State → Served} (hs : Service code body) (s : State)
    (h : s.TablesLaw) : (s.serve code body).TablesLaw := by
  refine serve_tables (fun p ps u hl k => ?_) (fun p ps u t k => tablesLaw_congr ?_ k) h
  case refine_1 =>
    cases hs
    case setSource => exact setSourceBody_tables p ps k
    case loadLayout => exact loadLayoutBody_tables p ps hl k
    case eraseLayout => exact eraseLayoutBody_tables p ps k
    case setScreen => exact setScreenBody_tables p ps k
    case setCadence => exact setCadenceBody_tables p ps k
    case setRamp => exact setRampBody_tables p ps k
    case loadRotation => exact loadRotationBody_tables p ps hl k
    case loadScene => exact loadSceneBody_tables p ps hl k
    case eraseScene => exact eraseSceneBody_tables p ps k
    case loadCues => exact loadCuesBody_tables p ps k
    case setAlarm => exact setAlarmBody_tables p ps k
    case setTrigger => exact setTriggerBody_tables p ps k
    all_goals exact tablesLaw_congr (service_stored (by constructor) (by decide) p ps) k
  case refine_2 =>
    cases hs
    case setSource =>
      unfold setSourceBody
      dsimp only
      (repeat' split) <;> simp only [unchanged, id]
      all_goals simp
    case setScreen =>
      unfold setScreenBody
      dsimp only
      (repeat' split) <;> simp [unchanged]
    case restart => exact restartBlocks_stored p
    all_goals unfold State.stored
    all_goals simp [readRequest, unchanged]

/-- An execution leaves the stored tables. -/
theorem execution_tablesLaw {kind : CueKind} {run : Fin 4 → CueEntry → State → State} (hx : Execution kind run) (r : Fin 4)
    (s : State) (h : s.TablesLaw) : (s.cueEvent kind (run r) r).TablesLaw := by
  refine execution_keeps (I := State.TablesLaw) (fun r x s k => tablesLaw_congr (by simp) k)
    (fun d s k => tablesLaw_congr (by simp) k) (fun {q t s u} k hu => tablesLaw_congr (accept_stored hu) k)
    hx (fun fields hf f s k => tablesLaw_congr ?_ k) (fun f s k => tablesLaw_congr (by simp) k) r s h
  simp only [actFields, List.mem_cons, List.not_mem_nil, or_false] at hf
  obtain rfl | rfl | rfl | rfl | rfl | rfl := hf <;> simp

/-- An event leaves in every stored table only what its owner's checks pass. -/
theorem event_tablesLaw {s t : State} (e : Event s t) (h : s.TablesLaw) : t.TablesLaw := by
  cases e
  case powerOn => exact powerOn_tables s
  case startUpEnd => exact endStartUp_tables h
  case unknown =>
    exact serveUnknown_keeps (I := State.TablesLaw) (fun p u k => tablesLaw_congr (by simp) k)
      (fun p r u k => tablesLaw_congr (by simp) k) (fun p r a u k => tablesLaw_congr (by simp) k) h
  all_goals exact tablesLaw_congr (by simp) h

/-- Settles O57: the image area is written byte by byte, or lost whole, by the stages of a save alone; a stored table is
written by the requests that edit one, each after its checks, and by the end of start-up. -/
theorem theFlashAndTheTablesKeepTheirLaws : Obligations.TheFlashAndTheTablesKeepTheirLaws :=
  ⟨step_keeps_of (fun _ _ h => h) service_flashLaw execution_flashLaw event_flashLaw,
    step_keeps_of (fun _ _ h => tablesLaw_congr rfl h) service_tablesLaw execution_tablesLaw event_tablesLaw⟩

end Sys2Proof.Machine
end

section
/-! PROOFS. The laws of the runners (R136, R140) and of the RETIRED slots (R43). -/

namespace Sys2Proof.Machine

/-! ### What cells, stale expiries and the loss of sync keep -/

/-- What a property of the part has to be kept by, for cells, reports and the loss of sync to keep it. -/
structure KeptByFeeds (I : State → Prop) : Prop where
  port (p : Fin 16) (f : Port → Port) (s : State) : I s → I (s.modPort p f)
  source (i : Fin 16) (f : Source → Source) (s : State) : I s → I (s.modSource i f)
  state (i : Fin 16) (st : SourceState) (s : State) : I s → I (s.setSourceState i st)
  waits (i : Fin 16) (s : State) : I s → I (s.endQualifiedWaits i)
  event (i : Fin 16) (e : SourceEvent) (s : State) : I s → I (s.raiseEvent i e)
  grant (i : Fin 16) (n : Byte) (f : Format) (s : State) : I s → I (s.grant i n f).2
  write (k : Fin 64) (l : List Byte) (s : State) : I s → I (s.writeBand k l)
  retire (i : Fin 16) (s : State) : I s → I (s.retire i)
  publish (i : Fin 16) (k : Fin 64) (s : State) : I s → I (s.publish i k)
  abandon (k : Fin 64) (s : State) : I s → I (s.abandon k)
  arrives (p : Fin 16) (r : Request) (s : State) : I s → I (s.requestArrives p r)

section
variable {I : State → Prop} (kept : KeptByFeeds I)
include kept

/-- R24, R27: the entry to FAILED. -/
theorem failSource_keeps (i : Fin 16) {s : State} (h : I s) : I (s.failSource i) :=
  kept.event _ _ _ (kept.state _ _ _ (kept.source _ _ _ h))

/-- R26, R27: a miss. -/
theorem takeMiss_keeps (i : Fin 16) {s : State} (h : I s) : I (s.takeMiss i) := by
  unfold State.takeMiss
  dsimp only
  split
  · exact kept.state _ _ _ (kept.source _ _ _ h)
  · split
    · exact failSource_keeps kept i (kept.source _ _ _ h)
    · exact kept.source _ _ _ h
  all_goals exact h

/-- R24: the test that follows a report in ACQUIRING. -/
theorem testAcquiring_keeps (i : Fin 16) {s : State} (h : I s) : I (s.testAcquiring i) := by
  unfold State.testAcquiring
  dsimp only
  split
  · exact kept.event _ _ _ (kept.waits _ _ (kept.state _ _ _ (kept.source _ _ _ (kept.source _ _ _ h))))
  · split
    · exact failSource_keeps kept i h
    · exact h

/-- R24 to R29: a CLEAN report. -/
theorem reportClean_keeps (i : Fin 16) (f : Format) (n : Nat) {s : State} (h : I s) : I (s.reportClean i f n) := by
  have count {u : State} (hu : I u) : I (u.countClean i) := testAcquiring_keeps kept i (kept.source _ _ _ hu)
  have restart {u : State} (hu : I u) : I ((u.enterAcquiring i).countClean i) := count (kept.state _ _ _ (kept.source _ _ _ hu))
  have hu := kept.source i (fun x => { x with
    completed := x.completed + 1
    skipped := x.skipped + BitVec.ofNat 32 n
    format := some f }) s h
  unfold State.reportClean
  dsimp only
  generalize s.modSource i _ = u at hu ⊢
  unfold State.takeClean
  split
  · split
    · exact restart hu
    · exact count hu
  · split
    · exact restart hu
    · exact kept.source _ _ _ (kept.source _ _ _ hu)
  · split
    · exact restart hu
    · unfold State.cleanWhileSuspect
      dsimp only
      split
      · exact kept.waits _ _ (kept.state _ _ _ (kept.source _ _ _ (kept.source _ _ _ (kept.source _ _ _ hu))))
      · exact kept.source _ _ _ (kept.source _ _ _ hu)
  all_goals exact hu

/-- R19, R24, R26 to R28: an ERRORED report. -/
theorem reportErrored_keeps (i : Fin 16) (n : Nat) {s : State} (h : I s) : I (s.reportErrored i n) := by
  unfold State.reportErrored
  dsimp only
  split
  · exact testAcquiring_keeps kept i (kept.source _ _ _ (kept.source _ _ _ h))
  · exact takeMiss_keeps kept i (kept.source _ _ _ h)
  · exact takeMiss_keeps kept i (kept.source _ _ _ h)
  all_goals exact kept.source _ _ _ h

/-- R7, R9: a picture that can not go on. -/
theorem gapPicture_keeps (p : Fin 16) {s : State} (h : I s) : I (s.gapPicture p) :=
  reportErrored_keeps kept p 0 (kept.port _ _ _ (kept.port _ _ _ (kept.port _ _ _ h)))

/-- R6, R10: a band is written. -/
theorem writeChecked_keeps (p : Fin 16) (k : Fin 64) (b : BandCell) (fails : Bool) {s : State} (h : I s) :
    I (s.writeChecked p k b fails) := by
  unfold State.writeChecked
  dsimp only
  split
  · exact kept.port _ _ _ (kept.write _ _ _ h)
  · exact kept.write _ _ _ h

/-- R7: a first band. -/
theorem firstBand_keeps (p : Fin 16) (b : BandCell) (f : Format) {s : State} (h : I s) : I (s.firstBand p b f) := by
  unfold State.firstBand
  split
  · exact gapPicture_keeps kept p h
  · have hg := kept.grant p b.number f s h
    split
    · next e =>
      rw [e] at hg
      exact kept.source _ _ _ (kept.port _ _ _ (kept.port _ _ _ hg))
    · next e =>
      rw [e] at hg
      exact kept.port _ _ _ (writeChecked_keeps kept p _ b _ hg)

/-- R9 to R12: a later band. -/
theorem laterBand_keeps (p : Fin 16) (b : BandCell) (k : Fin 64) (n : Byte) (f : Format) (e : Nat) (m : Bool) {s : State}
    (h : I s) : I (s.laterBand p b k n f e m) := by
  have written : I (s.writeChecked p k b (bandFails b f.width)) := writeChecked_keeps kept p k b _ h
  unfold State.laterBand
  split
  · exact gapPicture_keeps kept p (kept.abandon _ _ h)
  · dsimp only
    split
    · unfold State.completePicture
      dsimp only
      split
      · exact reportErrored_keeps kept p _ (kept.abandon _ _ (kept.port _ _ _ written))
      · exact reportClean_keeps kept p f _ (kept.publish _ _ _ (kept.port _ _ _ written))
    · exact kept.port _ _ _ written

/-- R5, R7 to R13: a band handed to the assembler. -/
theorem assemble_keeps (p : Fin 16) (b : BandCell) {s : State} (h : I s) : I (s.assemble p b) := by
  have first {f : Format} {u : State} (hu : I u) : I (u.firstBand p b f) :=
    firstBand_keeps kept p b f hu
  unfold State.assemble
  split
  · exact kept.port _ _ _ h
  · split
    · split
      · exact first (reportErrored_keeps kept p 0 (kept.port _ _ _ (kept.abandon _ _ h)))
      · exact first h
      · exact first h
    · split
      · exact laterBand_keeps kept p b _ _ _ _ _ h
      · exact kept.port _ _ _ h
      · exact kept.port _ _ _ h

/-- R3, R14, R22: the link goes OUT OF SYNC. -/
theorem loseSync_keeps (p : Fin 16) {s : State} (h : I s) : I (s.loseSync p) := by
  have dropped {u : State} (hu : I u) : I (u.dropAssembly p) := by
    unfold State.dropAssembly
    dsimp only
    split
    · exact kept.port _ _ _ (kept.abandon _ _ hu)
    · exact kept.port _ _ _ hu
    · exact kept.port _ _ _ hu
  have lost {u : State} (hu : I u) : I (u.syncLost p) := by
    unfold State.syncLost
    split
    · exact hu
    · exact hu
    all_goals exact kept.event _ _ _ (kept.state _ _ _ (kept.source _ _ _ (kept.retire _ _ hu)))
  exact lost (dropped (kept.port _ _ _ h))

/-- R3: the silence timer expires. -/
theorem silenceExpires_keeps (p : Fin 16) {s : State} (h : I s) : I (s.silenceExpires p) := by
  unfold State.silenceExpires
  split
  · exact h
  · split
    · exact kept.port _ _ _ h
    · exact loseSync_keeps kept p h

/-- R1 to R4: a cell arrives. -/
theorem cellArrives_keeps (p : Fin 16) (cell : List Byte) {s : State} (h : I s) : I (s.cellArrives p cell) := by
  have malformed {u : State} (hu : I u) : I (u.malformedArrives p) := by
    unfold State.malformedArrives
    dsimp only
    split
    · exact kept.port _ _ _ (kept.port _ _ _ hu)
    · split
      · exact loseSync_keeps kept p (kept.port _ _ _ (kept.port _ _ _ hu))
      · exact kept.port _ _ _ (kept.port _ _ _ hu)
  have gained {u : State} (hu : I u) : I (u.gainSync p) := by
    unfold State.gainSync State.syncGained
    split
    · exact kept.state _ _ _ (kept.source _ _ _ (kept.port _ _ _ hu))
    · exact kept.port _ _ _ hu
  have wellFormed (c : Cell) {u : State} (hu : I u) : I (u.wellFormedArrives p c) := by
    unfold State.wellFormedArrives
    split
    · dsimp only
      split
      · exact gained (kept.port _ _ _ hu)
      · exact kept.port _ _ _ hu
    · unfold State.sortCell
      split
      · exact kept.port _ _ _ hu
      · exact kept.port _ _ _ hu
      · exact kept.arrives _ _ _ (kept.port _ _ _ hu)
      · exact assemble_keeps kept p _
          (kept.port _ _ _ (kept.port _ _ _ hu))
  unfold State.cellArrives
  dsimp only
  split
  · exact malformed (kept.port _ _ _ h)
  all_goals exact wellFormed _ (kept.port _ _ _ h)

end

/-! ### Return stacks and spin counts (R136, R140) -/

/-- R136, R140: a runner within its bounds. -/
def Runner.Bounded (x : Runner) : Prop := x.stack.length ≤ 4 ∧ x.spin ≤ 64

/-- The return stacks and spin counts of the runners. -/
def State.loads (s : State) : Vector (List Nat × Nat) 4 := mapTable (fun x => (x.stack, x.spin)) s.runners

/-- A runner's stack and spin count are read from the view. -/
theorem loads_get {s t : State} (h : t.loads = s.loads) (r : Fin 4) :
    t.runners[r].stack = s.runners[r].stack ∧ t.runners[r].spin = s.runners[r].spin := by
  have e := congrArg (fun v => v[r]) h
  simpa only [State.loads, mapTable_get, Prod.mk.injEq] using e

/-- The law is read from the view. -/
theorem runnerLaw_congr {s t : State} (h : t.loads = s.loads) (k : s.RunnerLaw) : t.RunnerLaw := fun r => by
  obtain ⟨hstack, hspin⟩ := loads_get h r
  rw [hstack, hspin]
  exact k r

/-- The view is read from the runners. -/
theorem loads_congr {s t : State} (h : t.runners = s.runners) : t.loads = s.loads := congrArg (mapTable _) h

/-- A runner written within its bounds. -/
theorem setRunner_runnerLaw {s : State} {r : Fin 4} {x : Runner} (hx : x.Bounded) (h : s.RunnerLaw) :
    (s.setRunner r x).RunnerLaw := fun q => by
  rw [State.setRunner_runners, put_get]
  split
  · exact hx
  · exact h q

/-- A runner of which the stack and the spin count are kept. -/
theorem setRunner_loads {s : State} {r : Fin 4} {x : Runner}
    (hx : x.stack = s.runners[r].stack ∧ x.spin = s.runners[r].spin) : (s.setRunner r x).loads = s.loads := by
  unfold State.loads
  rw [State.setRunner_runners]
  exact mapTable_put_same _ _ _ _ (Prod.ext hx.1 hx.2)

section
variable (s : State)

@[simp] theorem setScreen_loads (c : Fin 24) (x : Screen) : (s.setScreen c x).loads = s.loads := loads_congr (by simp)
@[simp] theorem setJob_loads (j : Job) : (s.setJob j).loads = s.loads := loads_congr (by simp)
@[simp] theorem endWait_loads (r : Fin 4) : (s.endWait r).loads = s.loads := setRunner_loads ⟨rfl, rfl⟩

/-- R141: a fault keeps the stack. -/
@[simp] theorem faultRunner_loads (r : Fin 4) (k : Code) (d : Option Nat) : (s.faultRunner r k d).loads = s.loads := by
  have drawn : (s.drawDetail d).2.loads = s.loads := loads_congr (by simp)
  rw [← drawn]
  exact setRunner_loads ⟨by simp, by simp⟩

/-- R132: a result is handed on. -/
@[simp] theorem handResult_loads (j : Job) : (s.handResult j).loads = s.loads := by
  unfold State.handResult
  split
  · rfl
  · split
    · split
      · exact setRunner_loads ⟨rfl, rfl⟩
      · rfl
    · rfl

@[simp] theorem finishJob_loads (b : Bool) (j : Job) : (s.finishJob b j).loads = s.loads :=
  (handResult_loads _ _).trans (setJob_loads _ _)

@[simp] theorem settle_loads : s.settle.loads = s.loads := by
  unfold State.settle
  split
  · rfl
  · split
    · rfl
    · simp

@[simp] theorem armJob_loads (j : Job) : (s.armJob j).loads = s.loads := by
  unfold State.armJob
  rw [settle_loads, setJob_loads]
  exact loads_congr (by simp)

@[simp] theorem advanceLoading_loads : s.advanceLoading.loads = s.loads := by
  unfold State.advanceLoading
  split
  · rfl
  · split
    · simp
    · split <;> simp

@[simp] theorem acceptRevert_loads (q : Requester) (cs : List (Fin 24)) : (s.acceptRevert q cs).loads = s.loads := by
  unfold State.acceptRevert State.newJob
  rw [settle_loads, setJob_loads]
  exact loads_congr (by simp)

/-- R114, R115: an acceptance. -/
theorem accept_loads {s u : State} {q : Requester} {t : Take} (h : s.accept q t = .ok u) : u.loads = s.loads := by
  have members {kind : JobKind} {ms : Scene} (h : s.acceptMembers kind q ms = .ok u) : u.loads = s.loads := by
    unfold State.acceptMembers at h
    split at h
    · cases h
    · cases h
      rw [advanceLoading_loads]
      exact setJob_loads _ _
  unfold State.accept at h
  split at h
  · split at h
    · cases h
    · exact members h
  · exact members h
  · cases h
    exact acceptRevert_loads _ _ _

@[simp] theorem abortJob_loads : s.abortJob.loads = s.loads := by
  unfold State.abortJob
  split
  · rfl
  · rw [finishJob_loads]
    exact loads_congr (by simp)

@[simp] theorem completeLoad_loads (o : MemberOutcome) : (s.completeLoad o).loads = s.loads := loads_congr (by simp)

/-- R133: a tick counted by a runner. -/
@[simp] theorem deliverTick_loads (k : Cadence) : (s.deliverTick k).loads = s.loads := by
  refine table_ext fun r => ?_
  simp only [State.loads, State.deliverTick, mapTable_get]
  unfold Runner.deliver
  (repeat' split) <;> rfl

/-- R134: a runner that waits for a second. -/
@[simp] theorem timeMeets_loads (r : Fin 4) : (s.timeMeets r).loads = s.loads := by
  unfold State.timeMeets
  (repeat' split) <;> simp

@[simp] theorem stopRunner_loads (r : Fin 4) : (s.stopRunner r).loads = s.loads := setRunner_loads ⟨rfl, rfl⟩

/-- R135: the waits for a source. -/
@[simp] theorem endQualifiedWaits_loads (i : Fin 16) : (s.endQualifiedWaits i).loads = s.loads := by
  unfold State.endQualifiedWaits
  refine foldl_keeps State.loads _ (fun u r => ?_) _ s
  unfold State.endQualifiedWait
  (repeat' split) <;> simp

end

section
variable {s : State}

/-- R143: a start empties the stack and the spin count. -/
theorem startRunner_runnerLaw (r : Fin 4) (a : Nat) (c : StartCause) (h : s.RunnerLaw) : (s.startRunner r a c).RunnerLaw :=
  setRunner_runnerLaw ⟨Nat.zero_le 4, Nat.zero_le 64⟩ h

/-- R140: a wait ends the spin count. -/
theorem enterWait_runnerLaw (r : Fin 4) (w : Wait) (h : s.RunnerLaw) : (s.enterWait r w).RunnerLaw :=
  setRunner_runnerLaw ⟨(h r).1, Nat.zero_le 64⟩ h

/-- R139: an execution counts one entry, below the limit. -/
theorem advanceRunner_runnerLaw {r : Fin 4} (hr : s.runners[r].spin < 64) (h : s.RunnerLaw) :
    (s.advanceRunner r).RunnerLaw := setRunner_runnerLaw ⟨(h r).1, hr⟩ h

/-- R136, R137: a runner moved elsewhere, with a stack within its bound. -/
theorem moveRunner_runnerLaw {r : Fin 4} (a : Nat) {l : List Nat} (hl : l.length ≤ 4) (hr : s.runners[r].spin < 64)
    (h : s.RunnerLaw) : (s.moveRunner r a l).RunnerLaw := setRunner_runnerLaw ⟨hl, hr⟩ h

/-- R153: the triggers that meet an event start runners. -/
theorem raiseEvent_runnerLaw (i : Fin 16) (e : SourceEvent) (h : s.RunnerLaw) : (s.raiseEvent i e).RunnerLaw := by
  unfold State.raiseEvent
  generalize List.finRange 16 = l
  induction l generalizing s with
  | nil => exact h
  | cons n l ih =>
    refine ih ?_
    unfold State.triggerMeets
    dsimp only
    split
    · split
      · exact startRunner_runnerLaw _ _ _ h
      · exact h
    · exact h

/-- R151: the alarms of a second start runners. -/
theorem alarmsMeet_runnerLaw (l : List (Fin 16)) (h : s.RunnerLaw) : (l.foldl State.alarmMeets s).RunnerLaw := by
  induction l generalizing s with
  | nil => exact h
  | cons n l ih =>
    refine ih ?_
    unfold State.alarmMeets
    dsimp only
    split
    · split
      · exact startRunner_runnerLaw _ _ _ h
      · exact h
    · exact h

/-- R151: an alarm acts while the time base is valid. -/
theorem matchAlarms_runnerLaw (h : s.RunnerLaw) : s.matchAlarms.RunnerLaw := by
  unfold State.matchAlarms
  split
  · exact alarmsMeet_runnerLaw _ h
  · exact h

/-- R148: a second tick. -/
theorem secondTick_runnerLaw (h : s.RunnerLaw) : s.secondTick.RunnerLaw := by
  unfold State.secondTick
  exact matchAlarms_runnerLaw (runnerLaw_congr (s := s) (foldl_keeps State.loads _ timeMeets_loads _ _) h)

/-- R131: a take that is submitted; a runner that goes on at once has executed fewer entries than the limit. -/
theorem submitTake_runnerLaw {r : Fin 4} {t : Take} {granted : Bool} (hr : granted = true ∨ s.runners[r].spin < 64)
    (h : s.RunnerLaw) : (s.submitTake r t granted).RunnerLaw := by
  unfold State.submitTake
  split
  · exact runnerLaw_congr (by simp) h
  · next u hu =>
    have accepted := accept_loads hu
    have hu := runnerLaw_congr accepted h
    split
    · exact enterWait_runnerLaw _ _ hu
    · split
      · exact runnerLaw_congr (by simp) hu
      · next hg => exact advanceRunner_runnerLaw ((loads_get accepted r).2.trans_lt (hr.resolve_left hg)) hu

/-- R125: an offer of the engine. -/
theorem offerEngine_runnerLaw (h : s.RunnerLaw) : s.offerEngine.RunnerLaw := by
  unfold State.offerEngine
  generalize List.finRange 4 = l
  induction l generalizing s with
  | nil => exact h
  | cons r l ih =>
    refine ih ?_
    unfold State.offerTo
    split
    · exact h
    · split
      · exact submitTake_runnerLaw (.inl rfl) h
      · exact h

/-- R120: the disable of a member screen. -/
theorem memberDisabled_runnerLaw (c : Fin 24) (h : s.RunnerLaw) : (s.memberDisabled c).RunnerLaw := by
  unfold State.memberDisabled
  split
  · exact h
  · split
    · refine offerEngine_runnerLaw (runnerLaw_congr (s := s) ?_ h)
      rw [advanceLoading_loads]
      split <;> simp [State.setStandby]
    · exact h

/-- R118: the swap of a member screen. -/
theorem memberSwapped_runnerLaw (c : Fin 24) (h : s.RunnerLaw) : (s.memberSwapped c).RunnerLaw := by
  unfold State.memberSwapped
  split
  · exact h
  · split
    · exact offerEngine_runnerLaw (runnerLaw_congr (by simp) h)
    · exact h

/-- R116: the completion of a load. -/
theorem loadCompletes_runnerLaw (c : Fin 24) (e : Fin 128) (l : Layout) (h : s.RunnerLaw) :
    (s.loadCompletes c e l).RunnerLaw := by
  unfold State.loadCompletes
  split
  · exact offerEngine_runnerLaw (runnerLaw_congr (by simp [State.setStandby]) h)
  · exact offerEngine_runnerLaw (runnerLaw_congr (by simp) h)

/-- R71, R76: a screen's tick, whose swap can end a job. -/
theorem takeTick_runnerLaw (c : Fin 24) (h : s.RunnerLaw) : (s.takeTick c).RunnerLaw := by
  have swapped {u : State} (hu : u.RunnerLaw) : (u.swapStage c).RunnerLaw := by
    unfold State.swapStage
    split
    · unfold State.swapContexts
      split
      · exact memberSwapped_runnerLaw c (runnerLaw_congr (by simp) hu)
      · exact memberSwapped_runnerLaw c (runnerLaw_congr (loads_congr (by simp)) hu)
    all_goals exact hu
  have hv := swapped (u := s.setScreen c { s.screens[c] with ticksDue := s.screens[c].ticksDue - 1 })
    (runnerLaw_congr (by simp) h)
  unfold State.takeTick
  dsimp only
  generalize State.swapStage c _ = v at hv ⊢
  split
  · exact runnerLaw_congr (loads_congr (by simp)) hv
  · exact runnerLaw_congr (loads_congr (by simp)) hv

/-- R92: what follows the reply to a SET SCREEN. -/
theorem applySettings_runnerLaw (c : Fin 24) (was : Screen) (h : s.RunnerLaw) : (s.applySettings c was).RunnerLaw := by
  have disabled {u : State} (hu : u.RunnerLaw) : (u.disableScreen c).RunnerLaw := by
    unfold State.disableScreen
    refine memberDisabled_runnerLaw c (runnerLaw_congr (s := u) (loads_congr ?_) hu)
    dsimp only
    split <;> simp
  have refitted : (if was.state = .disabled ∧ (was.width ≠ s.screens[c].width ∨ was.height ≠ s.screens[c].height) then
      s.setScreen c s.screens[c].refit else s).RunnerLaw := by
    split
    · exact runnerLaw_congr (by simp) h
    · exact h
  unfold State.applySettings
  dsimp only
  split
  · split
    · exact disabled refitted
    · exact refitted
  · refine runnerLaw_congr (setScreen_loads _ _ _) ?_
    split
    · exact disabled refitted
    · exact refitted

end

/-- Cells, reports and the loss of sync keep the bounds: they reach runners by events and the ends of waits alone. -/
theorem runnerLaw_kept : KeptByFeeds State.RunnerLaw where
  port _ _ _ h := h
  source _ _ _ h := h
  state _ _ _ h := runnerLaw_congr (loads_congr (by simp)) h
  waits _ _ h := runnerLaw_congr (by simp) h
  event i e _ h := raiseEvent_runnerLaw i e h
  grant _ _ _ _ h := runnerLaw_congr (loads_congr (by simp)) h
  write _ _ _ h := h
  retire _ _ h := runnerLaw_congr (loads_congr (by simp)) h
  publish _ _ _ h := runnerLaw_congr (loads_congr (by simp)) h
  abandon _ _ h := h
  arrives _ _ _ h := runnerLaw_congr (loads_congr (by simp)) h

section
variable {s : State}

/-- R176: the end of start-up leaves the runners. -/
theorem endStartUp_runnerLaw (h : s.RunnerLaw) : s.endStartUp.RunnerLaw := by
  unfold State.endStartUp
  split
  · split
    · next im _ =>
      have restored := restoreTables_rest im s
      generalize s.restoreTables im = w at restored ⊢
      have runners : w.runners = s.runners := restored.runners
      exact runnerLaw_congr (s := s) (loads_congr (by simp [runners])) h
    · exact runnerLaw_congr (loads_congr (by simp)) h
  · exact h
  · exact h

/-- R114: a take that a port submits. -/
theorem requestTake_runnerLaw (p : Fin 16) (t : Take) (h : s.RunnerLaw) : (requestTake p t s).state.RunnerLaw := by
  unfold requestTake
  split
  · exact h
  · split
    · exact h
    · next u hu => exact offerEngine_runnerLaw (runnerLaw_congr (accept_loads hu) h)

/-- What the owning blocks that reach the runners keep. -/
theorem body_runnerLaw {code : Nat} {body : Fin 16 → List Byte → State → Served} (hs : Service code body) (p : Fin 16)
    (ps : List Byte) (h : s.RunnerLaw) : (body p ps s).state.RunnerLaw := by
  cases hs
  case takeScene =>
    unfold takeSceneBody
    dsimp only
    split
    · exact h
    · exact requestTake_runnerLaw _ _ h
  case takeLayout =>
    unfold takeLayoutBody
    dsimp only
    split
    · exact h
    · exact requestTake_runnerLaw _ _ h
  case revert =>
    unfold revertBody
    dsimp only
    split
    · exact h
    · split
      · exact h
      · exact offerEngine_runnerLaw (runnerLaw_congr (by simp) h)
  case abortTake =>
    unfold abortTakeBody
    split
    · exact h
    · exact offerEngine_runnerLaw (runnerLaw_congr (by simp) h)
  case startCue =>
    unfold startCueBody
    dsimp only
    split
    · exact h
    · split
      · exact startRunner_runnerLaw _ _ _ h
      · exact h
  case stopCue =>
    unfold stopCueBody
    dsimp only
    split
    · exact h
    · exact runnerLaw_congr (by simp) h
  case resumeCue =>
    unfold resumeCueBody
    dsimp only
    split
    · exact h
    · split
      · exact setRunner_runnerLaw ⟨(h _).1, Nat.zero_le 64⟩ h
      · exact h
  all_goals exact runnerLaw_congr (loads_congr (by simp [readRequest, unchanged, restartBody])) h

/-- R167: a RESTART empties the stacks. -/
theorem restartBlocks_runnerLaw (p : Fin 16) : (s.restartBlocks p).RunnerLaw := fun r => by
  have runners : (s.restartBlocks p).runners = Vector.replicate 4 Runner.powerOn := by
    unfold State.restartBlocks
    simp
  rw [runners]
  simp [Runner.powerOn]

end

/-- An event keeps the bounds. -/
theorem event_runnerLaw {s t : State} (e : Event s t) (h : s.RunnerLaw) : t.RunnerLaw := by
  cases e
  case powerOn => exact fun r => by simp [State.powerOn, State.reset, Runner.powerOn]
  case startUpEnd => exact endStartUp_runnerLaw h
  case cell p cell => exact cellArrives_keeps runnerLaw_kept p cell h
  case silence p => exact silenceExpires_keeps runnerLaw_kept p h
  case stale i => exact takeMiss_keeps runnerLaw_kept i h
  case screenTick c => exact takeTick_runnerLaw c h
  case secondTick => exact secondTick_runnerLaw h
  case load c e l _ => exact loadCompletes_runnerLaw c e l h
  case unknown =>
    exact serveUnknown_keeps (I := State.RunnerLaw) (fun p u k => k) (fun p r u k => k)
      (fun p r a u k => runnerLaw_congr (loads_congr (by simp)) k) h
  case timer r =>
    unfold State.timerExpires
    (repeat' split) <;> exact runnerLaw_congr (by simp) h
  case countEnd r =>
    unfold State.countEnds
    (repeat' split) <;> exact runnerLaw_congr (by simp) h
  case result r =>
    unfold State.resultTaken
    (repeat' split) <;> exact runnerLaw_congr (by simp) h
  case cadenceTick k => exact runnerLaw_congr (by simp) h
  all_goals exact runnerLaw_congr (loads_congr (by simp)) h

/-- R139: an execution keeps the bounds: it meets a runner below the spin limit. -/
theorem execution_runnerLaw {kind : CueKind} {run : Fin 4 → CueEntry → State → State} (hx : Execution kind run) (r : Fin 4)
    (s : State) (h : s.RunnerLaw) : (s.cueEvent kind (run r) r).RunnerLaw := by
  refine cueEvent_keeps (I := State.RunnerLaw) (fun k d u hu => runnerLaw_congr (by simp) hu) (fun _ hspin _ _ h => ?_) h
  generalize s.entryAt r = e
  have follow {x : State × Answer} (hx : x.1.runners = s.runners) : (State.followRequest r x).RunnerLaw := by
    have hs : x.1.RunnerLaw := runnerLaw_congr (loads_congr hx) h
    exact followRequest_keeps (I := State.RunnerLaw) (fun k d u hu => runnerLaw_congr (by simp) hu)
      (fun hs => advanceRunner_runnerLaw (by rw [hx]; exact hspin) hs) hs
  cases hx with
  | take take =>
    unfold State.takeEntry
    split
    · exact enterWait_runnerLaw _ _ h
    · exact offerEngine_runnerLaw (submitTake_runnerLaw (.inr hspin) h)
  | act hf =>
    refine follow ?_
    simp only [actFields, List.mem_cons, List.not_mem_nil, or_false] at hf
    obtain rfl | rfl | rfl | rfl | rfl | rfl := hf <;> simp
  | rotate =>
    unfold State.rotateEntry
    dsimp only
    split
    · exact runnerLaw_congr (by simp) h
    · exact follow (by simp)
  | waitPictures => exact enterWait_runnerLaw _ _ h
  | waitTime =>
    unfold State.waitTimeEntry
    split
    · exact enterWait_runnerLaw _ _ h
    · exact runnerLaw_congr (by simp) h
  | waitQualified =>
    unfold State.waitQualifiedEntry
    split
    · exact advanceRunner_runnerLaw hspin h
    · exact enterWait_runnerLaw _ _ h
  | jump => exact moveRunner_runnerLaw _ (h r).1 hspin h
  | call =>
    unfold State.callEntry
    split
    · exact runnerLaw_congr (by simp) h
    · next hl => exact moveRunner_runnerLaw _ (by rw [List.length_append]; exact Nat.not_le.1 hl) hspin h
  | ret =>
    dsimp only
    unfold State.returnFrom
    split
    · exact runnerLaw_congr (by simp) h
    · exact moveRunner_runnerLaw _ (by rw [List.length_dropLast]; exact (Nat.sub_le _ 1).trans (h r).1) hspin h
  | halt => exact setRunner_runnerLaw ⟨Nat.zero_le 4, (h r).2⟩ h
  | empty => exact h

/-- A service keeps the bounds. -/
theorem service_runnerLaw {code : Nat} {body : Fin 16 → List Byte → State → Served} (hs : Service code body) (s : State)
    (h : s.RunnerLaw) : (s.serve code body).RunnerLaw := by
  refine serve_keeps (I := State.RunnerLaw) (fun p u k => k) (fun p r u k => k)
    (fun p r a u k => runnerLaw_congr (loads_congr (by simp)) k) (fun p ps u k => body_runnerLaw hs p ps k)
    (fun p ps u t k => ?_) h
  cases hs
  case setScreen =>
    unfold setScreenBody
    dsimp only
    split
    · exact k
    · split
      · exact k
      · split
        · exact k
        · exact applySettings_runnerLaw _ _ k
  case restart => exact restartBlocks_runnerLaw p
  all_goals exact runnerLaw_congr (loads_congr (by simp [readRequest, unchanged])) k

/-- Settles O56: a call tests the stack, and an execution the spin count, before either grows. -/
theorem runnersKeepTheirLaws : Obligations.RunnersKeepTheirLaws :=
  step_keeps_of (fun _ _ h => h) service_runnerLaw execution_runnerLaw event_runnerLaw

/-! ### RETIRED slots (R43) -/

/-- R43: a slot that is held if it is RETIRED. -/
def Slot.HeldIfRetired (x : Slot) : Prop := x.state = .retired → 1 ≤ x.holds

/-- The law is read from the slots. -/
theorem retiredLaw_congr {s t : State} (h : t.slots = s.slots) (k : s.RetiredLaw) : t.RetiredLaw := fun j => by
  rw [h]
  exact k j

/-- A change of one slot. -/
theorem modSlot_retiredLaw {s : State} {k : Fin 64} {f : Slot → Slot} (hf : (f s.slots[k]).HeldIfRetired) (h : s.RetiredLaw) :
    (s.modSlot k f).RetiredLaw := fun j => by
  rw [State.modSlot_slots, put_get]
  split
  · exact hf
  · exact h j

section
variable {s : State}

/-- R42: a READY slot becomes RETIRED only if it is held. -/
theorem retire_retiredLaw (i : Fin 16) (h : s.RetiredLaw) : (s.retire i).RetiredLaw := by
  unfold State.retire
  split
  · exact h
  · refine modSlot_retiredLaw ?_ h
    split
    · next hh => exact fun _ => hh
    · nofun

/-- R45: the last hold of a RETIRED slot frees it. -/
theorem release_retiredLaw (k : Fin 64) (h : s.RetiredLaw) : (s.release k).RetiredLaw := by
  refine modSlot_retiredLaw ?_ h
  split
  · nofun
  · next hk =>
    intro hr
    have hmore : 1 < s.slots[k].holds := Nat.not_le.1 fun hle => hk ⟨hr, hle⟩
    exact Nat.le_sub_one_of_lt hmore

theorem releaseOpt_retiredLaw (k : Option (Fin 64)) (h : s.RetiredLaw) : (s.releaseOpt k).RetiredLaw := by
  cases k with
  | none => exact h
  | some k => exact release_retiredLaw k h

/-- R76, R90: every latch and from-latch of the windows of a context. -/
theorem releaseWindows_retiredLaw (ws : List LiveWindow) (h : s.RetiredLaw) : (s.releaseWindows ws).RetiredLaw := by
  induction ws generalizing s with
  | nil => exact h
  | cons w ws ih => exact ih (releaseOpt_retiredLaw _ (releaseOpt_retiredLaw _ h))

/-- R44: a LATCH adds a hold. -/
theorem latch_retiredLaw (k : Fin 64) (h : s.RetiredLaw) : (s.latch k).RetiredLaw :=
  modSlot_retiredLaw (fun _ => Nat.le_add_left 1 _) h

/-- R81: a leg that moves to another slot. -/
theorem moveLatch_retiredLaw (old new : Option (Fin 64)) (h : s.RetiredLaw) : (s.moveLatch old new).RetiredLaw := by
  unfold State.moveLatch
  split
  · exact h
  · split
    · exact releaseOpt_retiredLaw _ (latch_retiredLaw _ h)
    · exact releaseOpt_retiredLaw _ h

/-- R90: a disable releases the latches of the active context. -/
theorem disableScreen_retiredLaw (c : Fin 24) (h : s.RetiredLaw) : (s.disableScreen c).RetiredLaw := by
  unfold State.disableScreen
  split
  · exact retiredLaw_congr (by simp) h
  · next x _ => exact retiredLaw_congr (by simp) (releaseWindows_retiredLaw x.windows h)

/-- R92: what follows the reply to a SET SCREEN. -/
theorem applySettings_retiredLaw (c : Fin 24) (was : Screen) (h : s.RetiredLaw) : (s.applySettings c was).RetiredLaw := by
  have refitted : (if was.state = .disabled ∧ (was.width ≠ s.screens[c].width ∨ was.height ≠ s.screens[c].height) then
      s.setScreen c s.screens[c].refit else s).RetiredLaw := by
    split
    · exact retiredLaw_congr (by simp) h
    · exact h
  unfold State.applySettings
  dsimp only
  split
  · split
    · exact disableScreen_retiredLaw c refitted
    · exact refitted
  · refine retiredLaw_congr (State.setScreen_slots _ _ _) ?_
    split
    · exact disableScreen_retiredLaw c refitted
    · exact refitted

/-- R76, R81, R82: the swap, the latch stage and the dissolve stage of a tick. -/
theorem takeTick_retiredLaw (c : Fin 24) (h : s.RetiredLaw) : (s.takeTick c).RetiredLaw := by
  have swapped {u : State} (hu : u.RetiredLaw) : (u.swapStage c).RetiredLaw := by
    unfold State.swapStage
    split
    · unfold State.swapContexts
      split
      · exact retiredLaw_congr (by simp) hu
      · next x _ => exact retiredLaw_congr (by simp) (releaseWindows_retiredLaw x.windows hu)
    all_goals exact hu
  have moved (l : List (LiveWindow × LiveWindow)) {u : State} (hu : u.RetiredLaw) :
      (l.foldl State.moveWindow u).RetiredLaw := by
    induction l generalizing u with
    | nil => exact hu
    | cons x l ih => exact ih (moveLatch_retiredLaw _ _ (moveLatch_retiredLaw _ _ hu))
  have ended (l : List LiveWindow) {u : State} (hu : u.RetiredLaw) : (l.foldl State.releaseEnded u).RetiredLaw := by
    induction l generalizing u with
    | nil => exact hu
    | cons w l ih =>
      refine ih ?_
      unfold State.releaseEnded
      split
      · exact releaseOpt_retiredLaw _ hu
      · exact hu
  have hv := swapped (u := s.setScreen c { s.screens[c] with ticksDue := s.screens[c].ticksDue - 1 })
    (retiredLaw_congr (by simp) h)
  unfold State.takeTick
  dsimp only
  generalize State.swapStage c _ = v at hv ⊢
  split
  · exact retiredLaw_congr (by simp [State.emitFrame]) hv
  · next x _ =>
    refine retiredLaw_congr ?_ (ended (x.windows.map v.stageWindow) (moved (x.windows.zip (x.windows.map v.stageWindow)) hv))
    simp [State.emitFrame, State.composeStages]

/-- R46: a CAPTURE. -/
theorem captureFields_retiredLaw (f : List Nat) (h : s.RetiredLaw) : (captureFields f s).1.RetiredLaw := by
  unfold captureFields
  split
  · exact h
  · dsimp only
    split
    · split
      · exact latch_retiredLaw _ (releaseOpt_retiredLaw _ h)
      · exact h
    · exact h

/-- R47: a RELEASE STILL. -/
theorem releaseStillFields_retiredLaw (f : List Nat) (h : s.RetiredLaw) : (releaseStillFields f s).1.RetiredLaw := by
  unfold releaseStillFields
  split
  · exact h
  · dsimp only
    split
    · exact h
    · exact release_retiredLaw _ h

/-- R87: a request on a window keeps what its act keeps. -/
theorem onWindow_keeps {I : State → Prop} {c : Fin 24} {n : Nat} {act : Context → LiveWindow → State × Answer} (h : I s)
    (hact : ∀ x w, s.screens[c].active = some x → x.windows.find? (fun w => w.copy.number = n) = some w → I (act x w).1) :
    I (s.onWindow c n act).1 := by
  unfold State.onWindow
  split
  · exact h
  · split
    · exact h
    · next x hx =>
      split
      · exact h
      · next w hw => exact hact x w hx hw

/-- R100, R101: a take releases the from-latch of a dissolve that it completes. -/
theorem takeWindow_retiredLaw (c : Fin 24) (x : Context) (w : LiveWindow) (n : Nat) (t : Transition) (h : s.RetiredLaw) :
    (takeWindow c x w n t s).state.RetiredLaw := by
  have released := releaseOpt_retiredLaw (w.dissolve.bind (·.latch)) h
  unfold takeWindow
  dsimp only
  split
  · exact h
  · refine retiredLaw_congr ?_ released
    split
    · simp [State.modWindow]
    · split
      · simp [State.modWindow]
      · split <;> simp [State.modWindow]

/-- R96: a WINDOW TAKE. -/
theorem windowTakeFields_retiredLaw (f : List Nat) (h : s.RetiredLaw) : (windowTakeFields f s).1.RetiredLaw := by
  unfold windowTakeFields
  split
  · exact h
  · exact onWindow_keeps (I := State.RetiredLaw) h fun x w _ _ => takeWindow_retiredLaw _ x w _ _ h

/-- R107: a ROTATE. -/
theorem rotateFields_retiredLaw (f : List Nat) (h : s.RetiredLaw) : (rotateFields f s).1.RetiredLaw := by
  unfold rotateFields
  split
  · exact h
  · refine onWindow_keeps (I := State.RetiredLaw) h fun x w _ _ => ?_
    split
    · exact h
    · exact takeWindow_retiredLaw _ x w _ _ (retiredLaw_congr rfl h)

/-- R175: at power-on every slot is FREE. -/
theorem powerOn_retiredLaw : s.powerOn.RetiredLaw := fun k => by
  simp [State.powerOn, State.reset, Slot.empty]

/-- R167: a RESTART frees every slot. -/
theorem restartBlocks_retiredLaw (p : Fin 16) : (s.restartBlocks p).RetiredLaw := fun k => by
  have slots : (s.restartBlocks p).slots = Vector.replicate 64 Slot.empty := by
    unfold State.restartBlocks
    simp
  rw [slots]
  simp [Slot.empty]

/-- R15, R20, R42: a disable of a source. -/
theorem disableSource_retiredLaw (i : Fin 16) (h : s.RetiredLaw) : (s.disableSource i).RetiredLaw := by
  have dropped : (s.dropAssembly i).RetiredLaw := by
    unfold State.dropAssembly
    dsimp only
    split
    · next k _ _ _ _ _ => exact modSlot_retiredLaw (k := k) (f := fun _ => Slot.empty) (by nofun) h
    · exact h
    · exact h
  exact retiredLaw_congr (by unfold State.disableSource; simp) (retire_retiredLaw i dropped)

end

/-- Cells, reports and the loss of sync keep the law. -/
theorem retiredLaw_kept : KeptByFeeds State.RetiredLaw where
  port _ _ _ h := h
  source _ _ _ h := h
  state _ _ _ h := retiredLaw_congr (by simp) h
  waits _ _ h := retiredLaw_congr (by simp) h
  event _ _ _ h := retiredLaw_congr (by simp) h
  grant i n f s h := by
    unfold State.grant
    split
    · exact modSlot_retiredLaw (by nofun) h
    · exact h
  write k l s h := modSlot_retiredLaw (h k) h
  retire i _ h := retire_retiredLaw i h
  publish i _ _ h := modSlot_retiredLaw (by nofun) (retire_retiredLaw i h)
  abandon _ _ h := modSlot_retiredLaw (by nofun) h
  arrives _ _ _ h := retiredLaw_congr (by simp) h

/-- An event keeps the law. -/
theorem event_retiredLaw {s t : State} (e : Event s t) (h : s.RetiredLaw) : t.RetiredLaw := by
  cases e
  case powerOn => exact powerOn_retiredLaw
  case startUpEnd =>
    unfold State.endStartUp
    split
    · split
      · next im _ =>
        have restored := restoreTables_rest im s
        generalize s.restoreTables im = w at restored ⊢
        have slots : w.slots = s.slots := restored.slots
        exact retiredLaw_congr (s := s) (by simp [slots]) h
      · exact retiredLaw_congr (by simp) h
    · exact h
    · exact h
  case cell p cell => exact cellArrives_keeps retiredLaw_kept p cell h
  case silence p => exact silenceExpires_keeps retiredLaw_kept p h
  case screenTick c => exact takeTick_retiredLaw c h
  case unknown =>
    exact serveUnknown_keeps (I := State.RetiredLaw) (fun p u k => k) (fun p r u k => k)
      (fun p r a u k => retiredLaw_congr (by simp) k) h
  all_goals exact retiredLaw_congr (by simp) h

/-- An execution keeps the law. -/
theorem execution_retiredLaw {kind : CueKind} {run : Fin 4 → CueEntry → State → State} (hx : Execution kind run) (r : Fin 4)
    (s : State) (h : s.RetiredLaw) : (s.cueEvent kind (run r) r).RetiredLaw := by
  refine execution_keeps (I := State.RetiredLaw) (fun r x s k => retiredLaw_congr (by simp) k)
    (fun d s k => retiredLaw_congr (by simp) k) (fun {q t s u} k hu => retiredLaw_congr (by simp [accept_frame s q t u hu]) k)
    hx (fun fields hf f s k => ?_) (fun f s k => rotateFields_retiredLaw f k) r s h
  simp only [actFields, List.mem_cons, List.not_mem_nil, or_false] at hf
  obtain rfl | rfl | rfl | rfl | rfl | rfl := hf
  · exact windowTakeFields_retiredLaw f k
  · exact retiredLaw_congr (by simp) k
  · exact retiredLaw_congr (by simp) k
  · exact captureFields_retiredLaw f k
  · exact releaseStillFields_retiredLaw f k
  · exact retiredLaw_congr (by simp) k

/-- A service keeps the law. -/
theorem service_retiredLaw {code : Nat} {body : Fin 16 → List Byte → State → Served} (hs : Service code body) (s : State)
    (h : s.RetiredLaw) : (s.serve code body).RetiredLaw := by
  refine serve_keeps (I := State.RetiredLaw) (fun p u k => k) (fun p r u k => k)
    (fun p r a u k => retiredLaw_congr (by simp) k) (fun p ps u k => ?_) (fun p ps u t k => ?_) h
  case refine_1 =>
    cases hs
    case capture => exact captureFields_retiredLaw _ k
    case releaseStill => exact releaseStillFields_retiredLaw _ k
    case windowTake => exact windowTakeFields_retiredLaw _ k
    case rotate => exact rotateFields_retiredLaw _ k
    all_goals exact retiredLaw_congr (by simp [readRequest, unchanged, restartBody]) k
  case refine_2 =>
    cases hs
    case setSource =>
      unfold setSourceBody
      dsimp only
      split
      · exact k
      · split
        · exact k
        · dsimp only
          split
          · exact disableSource_retiredLaw _ k
          · split
            · exact retiredLaw_congr (by simp) k
            · exact k
    case setScreen =>
      unfold setScreenBody
      dsimp only
      split
      · exact k
      · split
        · exact k
        · split
          · exact k
          · exact applySettings_retiredLaw _ _ k
    case restart => exact restartBlocks_retiredLaw p
    all_goals exact retiredLaw_congr (by simp [readRequest, unchanged]) k

/-- Settles O58: a slot becomes RETIRED only while it is held, and the release of its last hold frees it. -/
theorem retiredSlotsAreHeld : Obligations.RetiredSlotsAreHeld :=
  step_keeps_of (fun _ _ h => h) service_retiredLaw execution_retiredLaw event_retiredLaw

end Sys2Proof.Machine
end

section
/-! PROOFS. The law of the area budget (R64, R99): the library's layouts, the active contexts with each dissolving window
counted twice, and the standby contexts, which carry no dissolve. -/

namespace Sys2Proof.Machine

/-! ### Areas of windows -/

/-- R99: windows that keep their rectangles, with no more of them counted twice, take no more area. -/
theorem countedArea_map_le {twice twice' : LiveWindow → Bool} {f : LiveWindow → LiveWindow} {ws : List LiveWindow}
    (hcopy : ∀ w : LiveWindow, (f w).copy = w.copy) (htwice : ∀ w : LiveWindow, twice' (f w) = true → twice w = true) :
    countedArea twice' (ws.map f) ≤ countedArea twice ws := by
  unfold countedArea
  rw [List.map_map]
  refine List.sum_le_sum fun w _ => ?_
  simp only [Function.comp_apply, hcopy]
  refine Nat.mul_le_mul_left _ ?_
  split
  · next h => rw [if_pos (htwice w h)]
  · split <;> omega

/-- R99: the area in use after a change of windows that begins no dissolve. -/
theorem areaInUse_map_le {f : LiveWindow → LiveWindow} {ws : List LiveWindow} (hcopy : ∀ w : LiveWindow, (f w).copy = w.copy)
    (hdissolve : ∀ w : LiveWindow, (f w).dissolve.isSome = true → w.dissolve.isSome = true) :
    areaInUse (ws.map f) ≤ areaInUse ws := countedArea_map_le hcopy hdissolve

/-- R59, R74: a context copied from a layout takes the layout's area, and carries no dissolve. -/
theorem contextOf_area {e : Fin 128} {l : Layout} (h : l.AreaFits) : (contextOf e l).AreaFits ∧ (contextOf e l).NoDissolve := by
  refine ⟨?_, fun w hw => ?_⟩
  · refine le_of_eq_of_le ?_ h
    simp [areaInUse, countedArea, contextOf, liveWindow, Function.comp_def]
  · obtain ⟨v, -, rfl⟩ := List.mem_map.1 hw
    rfl

/-- A context whose windows have been changed without a dissolve begun. -/
theorem mapWindows_areaFits {f : LiveWindow → LiveWindow} {x : Context} (hcopy : ∀ w : LiveWindow, (f w).copy = w.copy)
    (hdissolve : ∀ w : LiveWindow, (f w).dissolve.isSome = true → w.dissolve.isSome = true) (h : x.AreaFits) :
    (x.mapWindows f).AreaFits := (areaInUse_map_le hcopy hdissolve).trans h

/-- R75: a context that becomes PREVIOUS carries no dissolve. -/
theorem reduced_noDissolve (x : Context) : (x.mapWindows reduceWindow).NoDissolve := fun w hw => by
  obtain ⟨v, -, rfl⟩ := List.mem_map.1 hw
  rfl

/-- R64, R69: a record that passes the checks is within the budget. -/
theorem layoutOf_areaFits {bs : List Byte} (h : recordBad bs = none) : (layoutOf bs).AreaFits := by
  unfold recordBad at h
  dsimp only at h
  split at h
  · cases h
  · split at h
    · cases h
    · split at h
      · cases h
      · split at h
        · cases h
        · split at h
          · cases h
          · next hfits =>
            refine le_of_eq_of_le ?_ (Nat.not_lt.1 hfits)
            simp [layoutOf, rawArea, windowOf, Function.comp_def]

/-! ### Screens -/

/-- R99: what the law asks of one screen. -/
structure Screen.AreaKept (x : Screen) : Prop where
  /-- The active context, each dissolving window counted twice. -/
  active : ∀ y : Context, x.active = some y → y.AreaFits
  /-- The standby context, which carries no dissolve. -/
  standby : ∀ y : Context, x.standby.context = some y → y.AreaFits ∧ y.NoDissolve

/-- The law, by screens. -/
structure State.AreaKept (s : State) : Prop where
  /-- The layouts of the library. -/
  library : ∀ (e : Fin 128) (l : Layout), s.library[e] = some l → l.AreaFits
  /-- The contexts of the screens. -/
  screen : ∀ c : Fin 24, s.screens[c].AreaKept

/-- What is kept by screens is the law. -/
theorem areaLaw_iff_areaKept {s : State} : s.AreaLaw ↔ s.AreaKept :=
  ⟨fun h => ⟨h.1, fun c => ⟨h.2.1 c, h.2.2 c⟩⟩, fun h => ⟨h.library, fun c => (h.screen c).active, fun c => (h.screen c).standby⟩⟩

/-- The law is read from the library and the screens. -/
theorem areaKept_congr {s t : State} (hl : t.library = s.library) (hs : t.screens = s.screens) (h : s.AreaKept) : t.AreaKept :=
  ⟨by rw [hl]; exact h.library, by rw [hs]; exact h.screen⟩

/-- A screen whose active context is kept, and whose standby context is kept or gone. -/
theorem Screen.AreaKept.of_standby {x y : Screen} (h : x.AreaKept) (ha : y.active = x.active)
    (hs : y.standby.context = none ∨ y.standby.context = x.standby.context) : y.AreaKept := by
  refine ⟨fun z hz => h.1 z (ha ▸ hz), fun z hz => ?_⟩
  obtain hn | he := hs
  · rw [hn] at hz
    cases hz
  · exact h.2 z (he ▸ hz)

/-- A screen whose contexts are kept. -/
theorem Screen.AreaKept.congr {x y : Screen} (h : x.AreaKept) (ha : y.active = x.active) (hs : y.standby = x.standby) :
    y.AreaKept := h.of_standby ha (.inr (congrArg Standby.context hs))

/-- A screen that is written. -/
theorem setScreen_areaKept {s : State} {c : Fin 24} {x : Screen} (hx : x.AreaKept) (h : s.AreaKept) : (s.setScreen c x).AreaKept := by
  refine State.AreaKept.mk (by simpa using h.1) fun d => ?_
  rw [State.setScreen_screens, put_get]
  split
  · exact hx
  · exact h.screen d

section
variable {s : State}

/-- A standby that is written with the context it held, or with none. -/
theorem setStandby_areaKept {c : Fin 24} {b : Standby} (hb : b.context = none ∨ b.context = s.screens[c].standby.context)
    (h : s.AreaKept) : (s.setStandby c b).AreaKept := setScreen_areaKept ((h.screen c).of_standby rfl hb) h

/-- A fold of operations that keep the law. -/
theorem foldl_areaKept {α : Type} {g : State → α → State} (hg : ∀ (s : State) (a : α), s.AreaKept → (g s a).AreaKept) (l : List α)
    (h : s.AreaKept) : (l.foldl g s).AreaKept := by
  induction l generalizing s with
  | nil => exact h
  | cons a l ih => exact ih (hg _ _ h)

/-! ### The take engine -/

/-- R117: the arming of a member. -/
theorem armMember_areaKept (m : Member) (h : s.AreaKept) : (s.armMember m).AreaKept := by
  unfold State.armMember
  split
  · next hm => exact setStandby_areaKept (.inr (by rw [hm]; rfl)) h
  all_goals exact h

/-- R115: the arming of a REVERT's member. -/
theorem armPrevious_areaKept (m : Member) (h : s.AreaKept) : (s.armPrevious m).AreaKept := by
  unfold State.armPrevious
  split
  · next hm =>
    split
    · exact setStandby_areaKept (.inr (by rw [hm]; rfl)) h
    · exact h
  all_goals exact h

/-- R122: an abort of a member's standby. -/
theorem abortStandby_areaKept (k : JobKind) (m : Member) (h : s.AreaKept) : (State.abortStandby k s m).AreaKept := by
  unfold State.abortStandby
  split
  · split
    · exact setStandby_areaKept (.inl rfl) h
    · next hm =>
      split
      · exact setStandby_areaKept (.inr (by rw [hm]; rfl)) h
      · exact setStandby_areaKept (.inl rfl) h
    all_goals exact h
  · exact h

theorem armJob_areaKept (j : Job) (h : s.AreaKept) : (s.armJob j).AreaKept :=
  areaKept_congr (s := j.members.foldl State.armMember s) (by simp [State.armJob]) (by simp [State.armJob])
    (foldl_areaKept (fun _ m k => armMember_areaKept m k) _ h)

/-- R116, R117: the next load, or the arming. -/
theorem advanceLoading_areaKept (h : s.AreaKept) : s.advanceLoading.AreaKept := by
  unfold State.advanceLoading
  split
  · exact h
  · split
    · exact areaKept_congr (by simp) (by simp) h
    · split
      · exact areaKept_congr (by simp) (by simp) h
      · exact armJob_areaKept _ h

/-- R115: a REVERT is accepted. -/
theorem acceptRevert_areaKept (q : Requester) (cs : List (Fin 24)) (h : s.AreaKept) : (s.acceptRevert q cs).AreaKept :=
  areaKept_congr (s := (cs.map s.revertMember).foldl State.armPrevious s) (by simp [State.acceptRevert])
    (by simp [State.acceptRevert]) (foldl_areaKept (fun _ m k => armPrevious_areaKept m k) _ h)

/-- R114, R115: an acceptance. -/
theorem accept_areaKept {u : State} {q : Requester} {t : Take} (h : s.AreaKept) (hu : s.accept q t = .ok u) : u.AreaKept := by
  have members {kind : JobKind} {ms : Scene} (hu : s.acceptMembers kind q ms = .ok u) : u.AreaKept := by
    unfold State.acceptMembers at hu
    split at hu
    · cases hu
    · cases hu
      exact advanceLoading_areaKept (areaKept_congr (by simp) (by simp) h)
  unfold State.accept at hu
  split at hu
  · split at hu
    · cases hu
    · exact members hu
  · exact members hu
  · cases hu
    exact acceptRevert_areaKept _ _ h

/-- R125: an offer of the engine. -/
theorem offerEngine_areaKept (h : s.AreaKept) : s.offerEngine.AreaKept :=
  offerEngine_keeps (I := State.AreaKept) (fun _ _ _ k => areaKept_congr (by simp) (by simp) k)
    (fun _ _ k => areaKept_congr (by simp) (by simp) k) (fun k hu => accept_areaKept k hu) h

/-- R120: the disable of a member screen. -/
theorem memberDisabled_areaKept (c : Fin 24) (h : s.AreaKept) : (s.memberDisabled c).AreaKept := by
  unfold State.memberDisabled
  split
  · exact h
  · next j _ =>
    split
    · refine offerEngine_areaKept (advanceLoading_areaKept ?_)
      have marked : (s.setJob { j with members := j.members.map (Member.skip c) }).AreaKept :=
        areaKept_congr (by simp) (by simp) h
      split
      · exact setStandby_areaKept (.inl rfl) marked
      · exact setStandby_areaKept (.inl rfl) marked
      · exact marked
      · exact marked
    · exact h

/-- R118: the swap of a member screen. -/
theorem memberSwapped_areaKept (c : Fin 24) (h : s.AreaKept) : (s.memberSwapped c).AreaKept := by
  unfold State.memberSwapped
  split
  · exact h
  · split
    · exact offerEngine_areaKept (areaKept_congr (by simp) (by simp) h)
    · exact h

/-- R122: an abort. -/
theorem abortJob_areaKept (h : s.AreaKept) : s.abortJob.AreaKept := by
  unfold State.abortJob
  split
  · exact h
  · next j _ =>
    exact areaKept_congr (by simp) (by simp) (foldl_areaKept (fun _ m k => abortStandby_areaKept j.kind m k) j.members h)

/-- R116: the load in progress copies a layout of the library. -/
theorem loadInProgress_library {c : Fin 24} {e : Fin 128} {l : Layout} (h : s.loadInProgress = some (c, e, l)) :
    s.library[e] = some l := by
  unfold State.loadInProgress at h
  split at h
  · cases h
  · split at h
    · cases h
    · split at h
      · cases h
      · obtain ⟨k, hk, heq⟩ := Option.map_eq_some_iff.1 h
        cases heq
        exact hk

/-- R116: the completion of a load. -/
theorem loadCompletes_areaKept {c : Fin 24} {e : Fin 128} {l : Layout} (hl : s.loadInProgress = some (c, e, l)) (h : s.AreaKept) :
    (s.loadCompletes c e l).AreaKept := by
  unfold State.loadCompletes
  split
  · refine offerEngine_areaKept (advanceLoading_areaKept (areaKept_congr (s := s.setStandby c (.loaded (contextOf e l)))
      (by simp) (by simp) (setScreen_areaKept ⟨(h.screen c).1, fun y hy => ?_⟩ h)))
    cases hy
    exact contextOf_area (h.1 e l (loadInProgress_library hl))
  · exact offerEngine_areaKept (advanceLoading_areaKept (areaKept_congr (by simp) (by simp) h))

/-! ### Screens and windows -/

/-- R76: the swap. -/
theorem swapStage_areaKept (c : Fin 24) (h : s.AreaKept) : (s.swapStage c).AreaKept := by
  unfold State.swapStage
  split
  · next x hx =>
    have armed := (h.screen c).2 x (by rw [hx]; rfl)
    unfold State.swapContexts
    split
    · refine memberSwapped_areaKept c (setScreen_areaKept ⟨fun y hy => ?_, fun y hy => by cases hy⟩ h)
      cases hy
      exact armed.1
    · next old hold =>
      have released : (s.releaseWindows old.windows).AreaKept := areaKept_congr (by simp) (by simp) h
      refine memberSwapped_areaKept c (setScreen_areaKept ⟨fun y hy => ?_, fun y hy => ?_⟩ released)
      · cases hy
        exact armed.1
      · cases hy
        exact ⟨mapWindows_areaFits (fun _ => rfl) (fun _ hw => by cases hw) ((h.screen c).1 old hold), reduced_noDissolve old⟩
  all_goals exact h

/-- R77 to R84: a window through the stages of a tick keeps its rectangle, and begins no dissolve. -/
theorem stages_window (w : LiveWindow) : (stepPulse (stepDissolve (s.stageWindow w))).copy = w.copy ∧
    ((stepPulse (stepDissolve (s.stageWindow w))).dissolve.isSome = true → w.dissolve.isSome = true) := by
  have pulse (v : LiveWindow) : (stepPulse v).copy = v.copy ∧ (stepPulse v).dissolve = v.dissolve := by
    unfold stepPulse
    split <;> exact ⟨rfl, rfl⟩
  have dissolve (v : LiveWindow) : (stepDissolve v).copy = v.copy ∧
      ((stepDissolve v).dissolve.isSome = true → v.dissolve.isSome = true) := by
    unfold stepDissolve
    split
    · exact ⟨rfl, id⟩
    · next hd => split <;> exact ⟨rfl, fun _ => by rw [hd]; rfl⟩
  have stage : (s.stageWindow w).copy = w.copy ∧ (s.stageWindow w).dissolve.isSome = w.dissolve.isSome := by
    unfold State.stageWindow
    split
    · exact ⟨rfl, rfl⟩
    · exact ⟨rfl, by simp [State.planWindow]⟩
  rw [(pulse _).1, (pulse _).2, (dissolve _).1, stage.1, ← stage.2]
  exact ⟨rfl, (dissolve _).2⟩

/-- R71: a screen's tick. -/
theorem takeTick_areaKept (c : Fin 24) (h : s.AreaKept) : (s.takeTick c).AreaKept := by
  have hv := swapStage_areaKept c (s := s.setScreen c { s.screens[c] with ticksDue := s.screens[c].ticksDue - 1 })
    (setScreen_areaKept ((h.screen c).congr rfl rfl) h)
  have emitted {u : State} (hu : u.AreaKept) : (u.emitFrame c).AreaKept :=
    setScreen_areaKept ((hu.screen c).congr rfl rfl) hu
  unfold State.takeTick
  dsimp only
  generalize State.swapStage c _ = v at hv ⊢
  split
  · exact emitted hv
  · next x hx =>
    refine emitted ?_
    unfold State.composeStages
    dsimp only
    have moved : (List.foldl State.releaseEnded (List.foldl State.moveWindow v
        (x.windows.zip (x.windows.map v.stageWindow))) (x.windows.map v.stageWindow)).AreaKept :=
      areaKept_congr (by simp) (by simp) hv
    refine setScreen_areaKept ⟨fun y hy => ?_, (moved.screen c).2⟩ moved
    cases hy
    refine le_trans ?_ ((hv.screen c).1 x hx)
    dsimp only
    rw [List.map_map]
    exact areaInUse_map_le (fun w => (stages_window w).1) fun w => (stages_window w).2

/-- R90: a disable ends the dissolves. -/
theorem disableScreen_areaKept (c : Fin 24) (h : s.AreaKept) : (s.disableScreen c).AreaKept := by
  have darkened {u : State} (hu : u.AreaKept) : (u.setScreen c { u.screens[c] with
      enabled := false
      active := u.screens[c].active.map (Context.mapWindows darkenWindow)
      ticksDue := 0
      output := none }).AreaKept := by
    refine setScreen_areaKept ⟨fun y hy => ?_, (hu.screen c).2⟩ hu
    obtain ⟨x, hx, rfl⟩ := Option.map_eq_some_iff.1 hy
    exact mapWindows_areaFits (fun _ => rfl) (fun _ hw => by cases hw) ((hu.screen c).1 x hx)
  unfold State.disableScreen
  refine memberDisabled_areaKept c (darkened ?_)
  split
  · exact h
  · exact areaKept_congr (by simp) (by simp) h

/-- R92: the contexts of a screen tested against a new geometry are kept or dropped. -/
theorem refit_areaKept {x : Screen} (h : x.AreaKept) : x.refit.AreaKept := by
  unfold Screen.refit
  split
  · exact ⟨nofun, fun y hy => by cases hy⟩
  · split
    · split
      · exact h
      · exact h.of_standby rfl (.inl rfl)
    all_goals exact h

/-- R92: what follows the reply to a SET SCREEN. -/
theorem applySettings_areaKept (c : Fin 24) (was : Screen) (h : s.AreaKept) : (s.applySettings c was).AreaKept := by
  have refitted : (if was.state = .disabled ∧ (was.width ≠ s.screens[c].width ∨ was.height ≠ s.screens[c].height) then
      s.setScreen c s.screens[c].refit else s).AreaKept := by
    split
    · exact setScreen_areaKept (refit_areaKept (h.screen c)) h
    · exact h
  have disabled : (if (was.enabled && !s.screens[c].enabled) = true then
      State.disableScreen c (if was.state = .disabled ∧ (was.width ≠ s.screens[c].width ∨ was.height ≠ s.screens[c].height) then
        s.setScreen c s.screens[c].refit else s)
      else if was.state = .disabled ∧ (was.width ≠ s.screens[c].width ∨ was.height ≠ s.screens[c].height) then
        s.setScreen c s.screens[c].refit else s).AreaKept := by
    split
    · exact disableScreen_areaKept c refitted
    · exact refitted
  unfold State.applySettings
  dsimp only
  split
  · exact disabled
  · exact setScreen_areaKept ((disabled.screen c).congr rfl rfl) disabled

/-- A change of a window that begins no dissolve. -/
theorem modWindow_areaKept (c : Fin 24) (n : Nat) {f : LiveWindow → LiveWindow} (hcopy : ∀ w : LiveWindow, (f w).copy = w.copy)
    (hdissolve : ∀ w : LiveWindow, (f w).dissolve.isSome = true → w.dissolve.isSome = true) (h : s.AreaKept) :
    (s.modWindow c n f).AreaKept := by
  refine setScreen_areaKept ⟨fun y hy => ?_, (h.screen c).2⟩ h
  obtain ⟨x, hx, rfl⟩ := Option.map_eq_some_iff.1 hy
  refine mapWindows_areaFits (fun w => ?_) (fun w hw => ?_) ((h.screen c).1 x hx)
  · split
    · exact hcopy w
    · rfl
  · split at hw
    · exact hdissolve w hw
    · exact hw

/-- R99: a dissolve that is begun is within the budget by the test before it. -/
theorem dissolveWindow_areaKept {c : Fin 24} {n : Nat} {x : Context} (hx : s.screens[c].active = some x)
    (hfits : areaWith n x.windows ≤ Config.areaBudget) (source length : Nat) (h : s.AreaKept) :
    (s.modWindow c n (dissolveWindow source length)).AreaKept := by
  refine setScreen_areaKept ⟨fun y hy => ?_, (h.screen c).2⟩ h
  obtain ⟨z, hz, rfl⟩ := Option.map_eq_some_iff.1 hy
  obtain rfl : x = z := Option.some.inj (hx.symm.trans hz)
  refine (countedArea_map_le (twice := fun w => w.dissolve.isSome || w.copy.number = n) (fun w => ?_) fun w hw => ?_).trans hfits
  · split <;> rfl
  · split at hw
    · next hn => simp [hn]
    · simp [hw]

/-- R96 to R101: a take of a window of the active context. -/
theorem takeWindow_areaKept {c : Fin 24} {x : Context} (hx : s.screens[c].active = some x) (w : LiveWindow) (source : Nat)
    (t : Transition) (h : s.AreaKept) : (takeWindow c x w source t s).state.AreaKept := by
  have released : (s.releaseOpt (w.dissolve.bind (·.latch))).AreaKept := areaKept_congr (by simp) (by simp) h
  have cut (source : Nat) := modWindow_areaKept c w.copy.number (f := cutWindow source) (fun _ => rfl) (fun _ hw => by cases hw) released
  unfold takeWindow
  dsimp only
  split
  · exact h
  · split
    · exact modWindow_areaKept c _ (fun _ => rfl) (fun _ hw => by cases hw) released
    · split
      · exact cut source
      · split
        · next hfits => exact dissolveWindow_areaKept (by simpa using hx) hfits _ _ released
        · exact cut source

/-- R96: a WINDOW TAKE. -/
theorem windowTakeFields_areaKept (f : List Nat) (h : s.AreaKept) : (windowTakeFields f s).1.AreaKept := by
  unfold windowTakeFields
  split
  · exact h
  · exact onWindow_keeps (I := State.AreaKept) h fun x w hx _ => takeWindow_areaKept hx w _ _ h

/-- R107: a ROTATE. -/
theorem rotateFields_areaKept (f : List Nat) (h : s.AreaKept) : (rotateFields f s).1.AreaKept := by
  unfold rotateFields
  split
  · exact h
  · refine onWindow_keeps (I := State.AreaKept) h fun x w hx _ => ?_
    split
    · exact h
    · exact takeWindow_areaKept (s := s.setRotation _ _) hx w _ _ ⟨h.library, h.screen⟩

/-- R88: a FREEZE. -/
theorem freezeFields_areaKept (f : List Nat) (h : s.AreaKept) : (freezeFields f s).1.AreaKept := by
  unfold freezeFields
  split
  · exact h
  · exact onWindow_keeps (I := State.AreaKept) h fun x w _ _ => modWindow_areaKept _ _ (fun _ => rfl) (fun _ k => k) h

/-- R89: a SET PULSE. -/
theorem setPulseFields_areaKept (f : List Nat) (h : s.AreaKept) : (setPulseFields f s).1.AreaKept := by
  unfold setPulseFields
  split
  · exact h
  · refine onWindow_keeps (I := State.AreaKept) h fun x w _ _ => ?_
    split
    · exact h
    · exact modWindow_areaKept _ _ (fun _ => rfl) (fun _ k => k) h

/-! ### The library, start-up and RESTART -/

/-- R60, R67: a library entry that is written. -/
theorem setEntry_areaKept {e : Fin 128} {l : Option Layout} (hl : ∀ x, l = some x → x.AreaFits) (h : s.AreaKept) :
    (s.setEntry e l).AreaKept := by
  refine State.AreaKept.mk (fun i x hx => ?_) h.screen
  simp only [State.setEntry, put_get] at hx
  split at hx
  · exact hl x hx
  · exact h.1 i x hx

/-- R69: a stored layout that is taken. -/
theorem storedLayout_areaFits {entry : List Byte} {l : Layout} (h : storedLayout entry = some l) : l.AreaFits := by
  unfold storedLayout at h
  dsimp only at h
  split at h
  · next k =>
    cases h
    exact layoutOf_areaFits (Option.isNone_iff_eq_none.1 k.2)
  · cases h

/-- R94: a screen that takes its start layout. -/
theorem startScreen_areaKept (c : Fin 24) (h : s.AreaKept) : (s.startScreen c).AreaKept := by
  unfold State.startScreen
  dsimp only
  split
  · exact h
  · split
    · exact h
    · split
      · exact h
      · next l hl =>
        split
        · refine setScreen_areaKept ⟨fun y hy => ?_, fun y hy => by cases hy⟩ h
          cases hy
          exact (contextOf_area (h.1 _ l hl)).1
        · exact h

/-- R176: the end of start-up. -/
theorem endStartUp_areaKept (h : s.AreaKept) : s.endStartUp.AreaKept := by
  have settled (code : Code) {u : State} (hu : u.AreaKept) : (u.settleStart code).AreaKept := by
    unfold State.settleStart
    refine areaKept_congr (s := (List.finRange 24).foldl State.startScreen ((List.finRange 16).foldl State.startSource u))
      (by simp) (by simp) (foldl_areaKept (fun _ c k => startScreen_areaKept c k) _ ?_)
    exact areaKept_congr (by simp) (by simp) hu
  unfold State.endStartUp
  split
  · split
    · next im _ =>
      have restored := restoreTables_rest im s
      have screens := restoreTables_screens im s
      generalize s.restoreTables im = w at restored screens ⊢
      refine settled _ (.mk (fun e l hl => ?_) fun c => ?_)
      · have library : w.library = _ := restored.library
        rw [library, ofFn_get] at hl
        exact storedLayout_areaFits hl
      · rw [screens]
        exact (h.screen c).congr rfl rfl
    · exact settled _ h
  · exact h
  · exact h

/-- R95, R167: a RESTART ends the dissolves. -/
theorem restartBlocks_areaKept (p : Fin 16) (h : s.AreaKept) : (s.restartBlocks p).AreaKept := by
  have aborted := abortJob_areaKept h
  have screens : (s.restartBlocks p).screens = mapTable Screen.restart s.abortJob.screens := by
    unfold State.restartBlocks
    simp
  refine State.AreaKept.mk (by simpa using h.1) fun c => ?_
  rw [screens, mapTable_get]
  refine ⟨fun y hy => ?_, (aborted.screen c).2⟩
  obtain ⟨x, hx, rfl⟩ := Option.map_eq_some_iff.1 hy
  exact mapWindows_areaFits (fun _ => rfl) (fun _ hw => by cases hw) ((aborted.screen c).1 x hx)

/-- R114: a take that a port submits. -/
theorem requestTake_areaKept (p : Fin 16) (t : Take) (h : s.AreaKept) : (requestTake p t s).state.AreaKept := by
  unfold requestTake
  split
  · exact h
  · split
    · exact h
    · next u hu => exact offerEngine_areaKept (accept_areaKept h hu)

end

/-! ### Every command -/

/-- What an owning block keeps before the reply. -/
theorem body_areaKept {code : Nat} {body : Fin 16 → List Byte → State → Served} (hs : Service code body) (p : Fin 16)
    (ps : List Byte) (s : State) (h : s.AreaKept) : (body p ps s).state.AreaKept := by
  cases hs
  case loadLayout =>
    unfold loadLayoutBody
    dsimp only
    split
    · exact h
    · split
      · exact h
      · split
        · exact h
        · next hr =>
          refine setEntry_areaKept (fun x hx => ?_) h
          cases hx
          exact layoutOf_areaFits hr
  case eraseLayout =>
    unfold eraseLayoutBody
    dsimp only
    split
    · exact h
    · split
      · exact h
      · exact setEntry_areaKept (fun x hx => by cases hx) h
  case setScreen =>
    unfold setScreenBody
    dsimp only
    split
    · exact h
    · split
      · exact h
      · split
        · exact h
        · exact setScreen_areaKept ((h.screen _).congr rfl rfl) h
  case freeze => exact freezeFields_areaKept _ h
  case setPulse => exact setPulseFields_areaKept _ h
  case windowTake => exact windowTakeFields_areaKept _ h
  case rotate => exact rotateFields_areaKept _ h
  case takeScene =>
    unfold takeSceneBody
    dsimp only
    split
    · exact h
    · exact requestTake_areaKept _ _ h
  case takeLayout =>
    unfold takeLayoutBody
    dsimp only
    split
    · exact h
    · exact requestTake_areaKept _ _ h
  case revert =>
    unfold revertBody
    dsimp only
    split
    · exact h
    · split
      · exact h
      · exact offerEngine_areaKept (acceptRevert_areaKept _ _ h)
  case abortTake =>
    unfold abortTakeBody
    split
    · exact h
    · exact offerEngine_areaKept (abortJob_areaKept h)
  all_goals
    exact areaKept_congr (by simp [readRequest, unchanged, restartBody]) (by simp [readRequest, unchanged, restartBody]) h

/-- A service keeps the law. -/
theorem service_areaKept {code : Nat} {body : Fin 16 → List Byte → State → Served} (hs : Service code body) (s : State)
    (h : s.AreaKept) : (s.serve code body).AreaKept := by
  refine serve_keeps (I := State.AreaKept) (fun p u k => areaKept_congr (by simp) (by simp) k)
    (fun p r u k => areaKept_congr (by simp) (by simp) k) (fun p r a u k => areaKept_congr (by simp) (by simp) k)
    (fun p ps u k => body_areaKept hs p ps u k) (fun p ps u t k => ?_) h
  cases hs
  case setScreen =>
    unfold setScreenBody
    dsimp only
    split
    · exact k
    · split
      · exact k
      · split
        · exact k
        · exact applySettings_areaKept _ _ k
  case restart => exact restartBlocks_areaKept p k
  all_goals exact areaKept_congr (by simp [readRequest, unchanged]) (by simp [readRequest, unchanged]) k

/-- An execution keeps the law. -/
theorem execution_areaKept {kind : CueKind} {run : Fin 4 → CueEntry → State → State} (hx : Execution kind run) (r : Fin 4)
    (s : State) (h : s.AreaKept) : (s.cueEvent kind (run r) r).AreaKept := by
  refine execution_keeps (I := State.AreaKept) (fun r x s k => areaKept_congr (by simp) (by simp) k)
    (fun d s k => areaKept_congr (by simp) (by simp) k) (fun k hu => accept_areaKept k hu)
    hx (fun fields hf f s k => ?_) (fun f s k => rotateFields_areaKept f k) r s h
  simp only [actFields, List.mem_cons, List.not_mem_nil, or_false] at hf
  obtain rfl | rfl | rfl | rfl | rfl | rfl := hf
  · exact windowTakeFields_areaKept f k
  · exact freezeFields_areaKept f k
  · exact setPulseFields_areaKept f k
  all_goals exact areaKept_congr (by simp) (by simp) k

/-- R175: at power-on the library and the screens hold no context. -/
theorem powerOn_areaKept (s : State) : s.powerOn.AreaKept := by
  refine State.AreaKept.mk (fun e l hl => ?_) fun c => ⟨fun y hy => ?_, fun y hy => ?_⟩
  · simp [State.powerOn, State.reset] at hl
  · simp [State.powerOn, State.reset, Screen.powerOn] at hy
  · simp [State.powerOn, State.reset, Screen.powerOn, Standby.context] at hy

/-- R71: a tick that is delivered changes the ticks due only. -/
theorem Screen.deliver_areaKept {x : Screen} (k : Cadence) (h : x.AreaKept) : (x.deliver k).AreaKept := by
  refine h.congr ?_ ?_
  all_goals unfold Screen.deliver
  all_goals split <;> rfl

/-- R71: the tick of a cadence. -/
theorem deliverTick_areaKept {s : State} (k : Cadence) (h : s.AreaKept) : (State.deliverTick k s).AreaKept where
  library := by
    unfold State.deliverTick
    exact h.library
  screen c := by
    unfold State.deliverTick
    rw [mapTable_get]
    exact Screen.deliver_areaKept k (h.screen c)

/-- An event keeps the law. -/
theorem event_areaKept {s t : State} (e : Event s t) (h : s.AreaKept) : t.AreaKept := by
  cases e
  case powerOn => exact powerOn_areaKept s
  case startUpEnd => exact endStartUp_areaKept h
  case cadenceTick k => exact deliverTick_areaKept k h
  case screenTick c => exact takeTick_areaKept c h
  case load hl => exact loadCompletes_areaKept hl h
  case unknown =>
    exact serveUnknown_keeps (I := State.AreaKept) (fun p u k => areaKept_congr (by simp) (by simp) k)
      (fun p r u k => areaKept_congr (by simp) (by simp) k) (fun p r a u k => areaKept_congr (by simp) (by simp) k) h
  all_goals exact areaKept_congr (by simp) (by simp) h

/-- Settles O60: a context is copied from a layout within the budget, a dissolve is begun within it, and every other change
of a context begins none. -/
theorem theAreaBudgetIsKept : Obligations.TheAreaBudgetIsKept :=
  fun s t h k => areaLaw_iff_areaKept.2 (step_keeps_of (I := State.AreaKept) (fun _ _ h => ⟨h.library, h.screen⟩)
    service_areaKept execution_areaKept event_areaKept s t (areaLaw_iff_areaKept.1 h) k)

end Sys2Proof.Machine
end

section
/-! PROOFS. The queue of commands, the values at power-on and the laws there (log 1, R175). -/

namespace Sys2Proof.Machine

/-- Settles O1: a step is the exec of the command at the front, on the part with that command taken from the queue. -/
theorem stepRunsTheFrontCommand : Obligations.StepRunsTheFrontCommand := by
  refine ⟨fun c s => rfl, fun s h => ?_⟩
  unfold step
  rw [h]

/-- R36: at power-on every slot is FREE. -/
theorem reset_freeSlots : State.reset.freeSlots = 64 := by
  have free : (List.finRange 64).filter (fun k => State.reset.slots[k].state = .free) = List.finRange 64 :=
    List.filter_eq_self.2 fun k _ => by simp [State.reset, Slot.empty]
  unfold State.freeSlots
  rw [free, List.length_finRange]

/-- R175: a port at power-on. -/
theorem reset_ports (p : Fin 16) : State.reset.ports[p] = Port.powerOn (Grant.powerOn p) := ofFn_get _ p

/-- Settles O2: block by block, what the reset writes into its table. -/
theorem resetHoldsThePowerOnValues : Obligations.ResetHoldsThePowerOnValues := by
  refine ⟨fun p => ?ports, fun i => ?sources, fun k => ?slots, reset_freeSlots, fun k => ?stills, rfl, fun e => ?library,
    fun c => ?screens, rfl, rfl, fun i => ?ramp, rfl, fun k => ?rotations, fun n => ?scenes, rfl, rfl, rfl, fun a => ?cues,
    fun r => ?runners, rfl, fun n => ?alarms, fun n => ?triggers, rfl, rfl, rfl⟩
  case ports => rw [reset_ports]; exact ⟨rfl, rfl, rfl, rfl, rfl, rfl, rfl, rfl, rfl, rfl, rfl, rfl⟩
  case ramp => exact ofFn_get _ i
  all_goals simp only [State.reset, replicate_get]
  case slots => exact ⟨rfl, rfl, rfl⟩
  case screens => exact ⟨rfl, rfl, rfl, rfl, rfl, rfl, rfl, rfl⟩
  all_goals rfl

/-- R175: at power-on the flash is erased. -/
theorem reset_flashLaw : State.reset.FlashLaw := rfl

/-- Settles O3: every table at power-on is empty or holds values that its law allows. -/
theorem lawsHoldAtReset : Obligations.LawsHoldAtReset := by
  refine ⟨fun p => ?queues, fun r => ?runners, reset_flashLaw, fun k => ?slots, ⟨0, ?grants⟩,
    areaLaw_iff_areaKept.2 (areaKept_congr rfl rfl (powerOn_areaKept State.reset)), reset_tables⟩
  case queues =>
    rw [reset_ports]
    exact Nat.zero_le 4
  case runners =>
    simp only [State.reset, replicate_get]
    exact ⟨Nat.zero_le 4, Nat.zero_le 64⟩
  case slots =>
    simp only [State.reset, replicate_get]
    nofun
  case grants =>
    rw [reset_ports]
    rfl

end Sys2Proof.Machine
end

section
/-! PROOFS. The wall fault code (R168): each condition of its definition in the words of the rule. -/

namespace Sys2Proof.Machine

section
variable {s : State}

/-- R168: the condition of code 7. -/
theorem faultedRunner_iff : s.runners.toList.any (·.state = .faulted) = true ↔ ∃ r : Fin 4, s.runners[r].state = .faulted := by
  simp only [List.any_eq_true, decide_eq_true_iff, Vector.mem_toList_iff, Vector.mem_iff_getElem]
  exact ⟨fun ⟨x, ⟨i, hi, hx⟩, hf⟩ => ⟨⟨i, hi⟩, hx ▸ hf⟩, fun ⟨r, hf⟩ => ⟨_, ⟨r.val, r.isLt, rfl⟩, hf⟩⟩

/-- R168: the windows shown are those of the active contexts of the enabled screens. -/
theorem mem_shownWindows {w : LiveWindow} : w ∈ s.shownWindows ↔ ∃ (c : Fin 24) (x : Context),
    s.screens[c].enabled = true ∧ s.screens[c].active = some x ∧ w ∈ x.windows := by
  simp only [State.shownWindows, List.mem_flatMap, Vector.mem_toList_iff, Vector.mem_iff_getElem]
  constructor
  · rintro ⟨y, ⟨i, hi, rfl⟩, hw⟩
    split at hw
    · next he =>
      cases ha : s.screens[i].active with
      | none => simp [ha] at hw
      | some x => exact ⟨⟨i, hi⟩, x, he, ha, by simpa [ha] using hw⟩
    · simp at hw
  · rintro ⟨c, x, he, ha, hw⟩
    exact ⟨s.screens[c], ⟨c.val, c.isLt, rfl⟩, by rw [if_pos he, ha]; exact hw⟩

/-- R168: the conditions of codes 5 and 6. -/
theorem shownFeed_iff {st : SourceState} : s.shownWindows.any (s.windowFeedIs st) = true ↔
    ∃ (w : LiveWindow) (i : Fin 16), (∃ (c : Fin 24) (x : Context), s.screens[c].enabled = true ∧ s.screens[c].active = some x ∧
      w ∈ x.windows) ∧ w.current = i.val ∧ s.sources[i].state = st := by
  have feed (w : LiveWindow) : s.windowFeedIs st w = true ↔ ∃ i : Fin 16, w.current = i.val ∧ s.sources[i].state = st := by
    unfold State.windowFeedIs
    split
    · next h =>
      rw [decide_eq_true_iff]
      exact ⟨fun k => ⟨⟨w.current, h⟩, rfl, k⟩, fun ⟨i, hi, k⟩ => by simpa [hi] using k⟩
    · next h => exact ⟨nofun, fun ⟨i, hi, _⟩ => absurd i.isLt (hi ▸ h)⟩
  simp only [List.any_eq_true, mem_shownWindows, feed]
  exact ⟨fun ⟨w, hw, i, hi⟩ => ⟨w, i, hw, hi⟩, fun ⟨w, i, hw, hi⟩ => ⟨w, hw, i, hi⟩⟩

/-- R168: the condition of code 4. -/
theorem shownFallback_iff : s.shownWindows.any (fun w => w.status.any State.fallbackStatus) = true ↔
    ∃ w : LiveWindow, (∃ (c : Fin 24) (x : Context), s.screens[c].enabled = true ∧ s.screens[c].active = some x ∧
      w ∈ x.windows) ∧ (w.status = some .held ∨ w.status = some .slateFallback ∨ w.status = some .backup ∨
        w.status = some .scaleOutOfRange) := by
  have fallback (st : Option RenderStatus) : st.any State.fallbackStatus = true ↔ st = some .held ∨ st = some .slateFallback ∨
      st = some .backup ∨ st = some .scaleOutOfRange := by
    cases st with
    | none => simp
    | some x => cases x <;> simp [State.fallbackStatus]
  simp only [List.any_eq_true, mem_shownWindows, fallback]

/-- R168: the condition of code 3. -/
theorem jobFailed_iff : s.job.any (fun j => j.phase = .done && (j.result = some .partialResult || j.result = some .aborted)) =
    true ↔ ∃ j : Job, s.job = some j ∧ j.phase = .done ∧ (j.result = some .partialResult ∨ j.result = some .aborted) := by
  simp [Option.any_eq_true]

/-- R168: the condition of code 2. -/
theorem alarmsUnset_iff : (!s.time.valid && s.alarms.toList.any (·.enabled)) = true ↔
    s.time.valid = false ∧ ∃ n : Fin 16, s.alarms[n].enabled = true := by
  simp only [Bool.and_eq_true, Bool.not_eq_true', List.any_eq_true, Vector.mem_toList_iff, Vector.mem_iff_getElem]
  exact and_congr_right fun _ =>
    ⟨fun ⟨x, ⟨i, hi, hx⟩, he⟩ => ⟨⟨i, hi⟩, hx ▸ he⟩, fun ⟨n, he⟩ => ⟨_, ⟨n.val, n.isLt, rfl⟩, he⟩⟩

/-- R168: the condition of code 1. -/
theorem storeFailed_iff : (s.store.outcome = .noAnswer || s.store.outcome = .readBackMismatch || s.store.outcome = .abandoned) =
    true ↔ s.store.outcome = .noAnswer ∨ s.store.outcome = .readBackMismatch ∨ s.store.outcome = .abandoned := by
  simp [or_assoc]

end

/-- Settles O52: the definition tests the conditions from the highest code down. -/
theorem wallFaultIsTheHighest : Obligations.WallFaultIsTheHighest := by
  intro s
  dsimp only
  rw [← faultedRunner_iff, ← shownFeed_iff, ← shownFeed_iff, ← shownFallback_iff, ← jobFailed_iff, ← alarmsUnset_iff,
    ← storeFailed_iff]
  unfold State.wallFault
  refine ⟨?_, ?_, ?_, ?_, ?_, ?_, ?_, ?_, ?_⟩ <;> intros <;> simp only [*, if_true, if_false, Bool.false_eq_true]

end Sys2Proof.Machine
end

section
/-! PROOFS. What the services of the requests share: a change of the part once a service has begun, and range tests of two
fields. -/

namespace Sys2Proof.Machine

/-- A change that does not look at the ports and the port served last makes the same of the part once a service has begun. -/
theorem begun_same (f : State → State) (hf : ∀ (v : State) (q : Fin 16) (ps : Vector Port 16),
    f { v with served := q, ports := ps } = { f v with served := q, ports := ps }) (p : Fin 16) (s : State) :
    SameButMarks (f (s.beginService p)) { f s with served := p, ports := (s.beginService p).ports } :=
  .of_eq (hf s p _)

/-- DONE, the part being changed so before the reply. -/
theorem serve_changed (f : State → State) {s : State} {code : Nat} {p : Fin 16} {r : Request} {result : List Byte}
    {body : Fin 16 → List Byte → State → Served} (h : s.Serves code p r)
    (hb : body p r.params (s.beginService p) = ⟨f (s.beginService p), .done result, id⟩)
    (hf : ∀ (v : State) (q : Fin 16) (ps : Vector Port 16),
      f { v with served := q, ports := ps } = { f v with served := q, ports := ps }) :
    AnsweredAs s (s.serve code body) (f s) p r .done result := serve_done _ h hb (begun_same f hf p s)

/-- The first of two tests fails. -/
theorem firstBad_pair_first {a b : Bool} (ha : a = false) : firstBad 0 [a, b] = some 0 := by
  rw [ha]
  rfl

/-- The second of two tests fails. -/
theorem firstBad_pair_second {a b : Bool} (ha : a = true) (hb : b = false) : firstBad 0 [a, b] = some 1 := by
  rw [ha, hb]
  rfl

/-- Both of two tests pass. -/
theorem firstBad_pair_none {a b : Bool} (ha : a = true) (hb : b = true) : firstBad 0 [a, b] = none := by
  rw [ha, hb]
  rfl

/-- A number above a range from 0. -/
theorem within_above {hi n : Nat} (h : hi < n) : within 0 hi n = false := by simp [within, h]

/-- A number of a range from 0. -/
theorem within_upto {hi n : Nat} (h : n ≤ hi) : within 0 hi n = true := within_eq_true.2 ⟨Nat.zero_le n, h⟩

end Sys2Proof.Machine
end

section
/-! PROOFS. SET CADENCE and SET PALETTE (R72, R86). -/

namespace Sys2Proof.Machine

section
variable {ps : List Byte} {s : State}

/-- R72: the rates of a cadence generator. -/
theorem legalRate_iff {n : Nat} : [24, 25, 30, 50, 60].contains n = true ↔ n = 24 ∨ n = 25 ∨ n = 30 ∨ n = 50 ∨ n = 60 := by
  simp

/-- R72: a cadence is in use while an enabled screen has it. -/
theorem cadenceInUse_iff {k : Cadence} : s.cadenceInUse k = true ↔
    ∃ c : Fin 24, s.screens[c].enabled = true ∧ s.screens[c].cadence = k := by
  simp only [State.cadenceInUse, List.any_eq_true, Vector.mem_toList_iff, Vector.mem_iff_getElem, Bool.and_eq_true,
    decide_eq_true_iff]
  exact ⟨fun ⟨x, ⟨i, hi, hx⟩, hk⟩ => ⟨⟨i, hi⟩, hx ▸ hk⟩, fun ⟨c, hk⟩ => ⟨_, ⟨c.val, c.isLt, rfl⟩, hk⟩⟩

/-- R72: the two range tests. -/
theorem setCadenceBody_outOfRange (p : Fin 16) {i : Nat} (h : firstBad 0
    [within 0 1 (byteAt ps 0).toNat, [24, 25, 30, 50, 60].contains (byteAt ps 1).toNat] = some i) :
    setCadenceBody p ps s = unchanged s (outOfRange i) := by
  simp only [setCadenceBody, fld_map_toNat, h]

/-- R72: fields in range meet a save. -/
theorem setCadenceBody_busy (p : Fin 16) (h : firstBad 0
    [within 0 1 (byteAt ps 0).toNat, [24, 25, 30, 50, 60].contains (byteAt ps 1).toNat] = none) (hb : s.saving = true) :
    setCadenceBody p ps s = unchanged s .busy := by
  simp only [setCadenceBody, fld_map_toNat, h, hb, if_true]

/-- R72: a cadence in use. -/
theorem setCadenceBody_inUse (p : Fin 16) (h : firstBad 0
    [within 0 1 (byteAt ps 0).toNat, [24, 25, 30, 50, 60].contains (byteAt ps 1).toNat] = none) (hb : s.saving = false)
    (hu : s.cadenceInUse (cadenceOf (byteAt ps 0).toNat) = true) :
    setCadenceBody p ps s = unchanged s (.refused .cadenceInUse none) := by
  simp only [setCadenceBody, fld_map_toNat, h, hb, hu, if_true, Bool.false_eq_true, if_false]

/-- R72: a cadence that is not in use takes the rate. -/
theorem setCadenceBody_done (p : Fin 16) (h : firstBad 0
    [within 0 1 (byteAt ps 0).toNat, [24, 25, 30, 50, 60].contains (byteAt ps 1).toNat] = none) (hb : s.saving = false)
    (hu : s.cadenceInUse (cadenceOf (byteAt ps 0).toNat) = false) :
    setCadenceBody p ps s = ⟨s.setRate (cadenceOf (byteAt ps 0).toNat) (byteAt ps 1).toNat, .done [], id⟩ := by
  simp only [setCadenceBody, fld_map_toNat, h, hb, hu, Bool.false_eq_true, if_false]

/-- R72: the rate that a cadence number names. -/
theorem setRate_cadenceOf (n rate : Nat) :
    s.setRate (cadenceOf n) rate = if n = 0 then { s with rateA := rate } else { s with rateB := rate } := by
  unfold cadenceOf
  split <;> rfl

/-- R86: a palette in a save. -/
theorem setPaletteBody_busy (p : Fin 16) (hb : s.saving = true) : setPaletteBody p ps s = unchanged s .busy := if_pos hb

/-- R86: the palette is replaced. -/
theorem setPaletteBody_done (p : Fin 16) (hb : s.saving = false) :
    setPaletteBody p ps s = ⟨{ s with palette := paletteOf ps }, .done [], id⟩ := if_neg (by simp [hb])

end

/-- R72: the answer to a SET CADENCE, by the tests of its owning block. -/
theorem serve_setCadence {s : State} {p : Fin 16} {r : Request} (hs : s.Serves 11 p r) (hn : (byteAt r.params 0).toNat ≤ 1)
    (hl : [24, 25, 30, 50, 60].contains (byteAt r.params 1).toNat = true) (hb : s.saving = false)
    (hu : s.cadenceInUse (cadenceOf (byteAt r.params 0).toNat) = false) :
    AnsweredAs s (s.serve 11 setCadenceBody) (s.setRate (cadenceOf (byteAt r.params 0).toNat) (byteAt r.params 1).toNat)
      p r .done [] := by
  refine serve_changed (State.setRate _ _) hs (setCadenceBody_done p (firstBad_pair_none (within_upto hn) hl)
    ((beginService_saving p s).trans hb) ((beginService_cadenceInUse p s _).trans hu)) fun v q ps => ?_
  unfold State.setRate
  split <;> rfl

/-- Settles O24: one lemma for each outcome of the two owning blocks. -/
theorem setCadenceAndSetPalette : Obligations.SetCadenceAndSetPalette := by
  refine ⟨fun s p r hs => ?_, fun s p r hs hb => ⟨_, exec_setPalette s, ?_⟩⟩
  · have pass (hn : (byteAt r.params 0).toNat ≤ 1) {rate : Nat} (hl : rate = 24 ∨ rate = 25 ∨ rate = 30 ∨ rate = 50 ∨ rate = 60) :
        firstBad 0 [within 0 1 (byteAt r.params 0).toNat, [24, 25, 30, 50, 60].contains rate] = none :=
      firstBad_pair_none (within_upto hn) (legalRate_iff.2 hl)
    dsimp only
    rw [← cadenceInUse_iff]
    refine ⟨fun hn => ⟨_, exec_setCadence s, ?number⟩, fun hn hl => ⟨_, exec_setCadence s, ?rate⟩,
      fun hn hl hb => ⟨_, exec_setCadence s, ?busy⟩, fun hn hl hb hu => ⟨_, exec_setCadence s, ?inUse⟩,
      fun hn hl hb hu => ⟨_, exec_setCadence s, ?done⟩⟩
    case number => exact serve_refused hs (by decide) (setCadenceBody_outOfRange p (firstBad_pair_first (within_above hn)))
    case rate =>
      refine serve_refused hs (by decide) (setCadenceBody_outOfRange p (firstBad_pair_second (within_upto hn) ?_))
      exact Bool.not_eq_true _ ▸ fun k => hl (legalRate_iff.1 k)
    case busy => exact serve_busy hs (setCadenceBody_busy p (pass hn hl) ((beginService_saving p s).trans hb))
    case inUse =>
      exact serve_refused hs (by decide) (setCadenceBody_inUse p (pass hn hl) ((beginService_saving p s).trans hb)
        ((beginService_cadenceInUse p s _).trans hu))
    case done =>
      rw [← setRate_cadenceOf]
      exact serve_setCadence hs hn (legalRate_iff.2 hl) hb (Bool.not_eq_true _ ▸ hu)
  · have answered : AnsweredAs s (s.serve 12 setPaletteBody) { s with palette := paletteOf r.params } p r .done [] :=
      serve_changed (fun v => { v with palette := paletteOf r.params }) hs
        (setPaletteBody_done p ((beginService_saving p s).trans hb)) fun _ _ _ => rfl
    have palette : (s.serve 12 setPaletteBody).palette = paletteOf r.params := SameButMarks.palette answered
    rw [palette]
    exact ⟨answered, fun i => ofFn_get _ i⟩

end Sys2Proof.Machine
end

section
/-! PROOFS. The dissolve stage and the pulse stage of a tick (R82, R83). -/

namespace Sys2Proof.Machine

variable {w : LiveWindow}

/-- R83: a pulse without a staged set steps its phase. -/
theorem stepPulse_steps {y : Pulse} (hs : w.staged = none) (hp : w.pulse = some y) :
    stepPulse w = { w with pulse := some { y with phase := (y.phase + 1) % y.period } } := by
  obtain ⟨copy, current, latch, dissolve, freeze, pulse, staged, status, fromStatus⟩ := w
  obtain rfl : staged = none := hs
  obtain rfl : pulse = some y := hp
  rfl

/-- R83: a staged pulse takes effect on a running one when the phase wraps. -/
theorem stepPulse_staged {a b : Nat} {y : Pulse} (hs : w.staged = some (.set a b)) (hp : w.pulse = some y) :
    stepPulse w = if (y.phase + 1) % y.period = 0 then { w with pulse := some ⟨a, b, 0⟩, staged := none }
      else { w with pulse := some { y with phase := (y.phase + 1) % y.period } } := by
  obtain ⟨copy, current, latch, dissolve, freeze, pulse, staged, status, fromStatus⟩ := w
  obtain rfl : staged = some (.set a b) := hs
  obtain rfl : pulse = some y := hp
  unfold stepPulse stepPhase
  dsimp only
  split <;> rfl

/-- Settles O21: the branches of the two stages. -/
theorem dissolvesAndPulsesStep : Obligations.DissolvesAndPulsesStep := by
  refine ⟨fun w => ⟨fun h => ?_, fun d h => ⟨fun k => ?_, fun k => ?_⟩⟩, fun w => ⟨fun h => ?_, fun a b h k => ?_,
    fun a b y h k e => ?_, fun a b y h k e => ?_, fun y h k => stepPulse_steps h k, fun h k => ?_⟩⟩
  · simp only [stepDissolve, h]
  · simp only [stepDissolve, h, k, if_true]
  · simp only [stepDissolve, h, k, if_false]
  · simp only [stepPulse, h]
  · simp only [stepPulse, h, k]
  · rw [stepPulse_staged h k, if_pos e]
  · rw [stepPulse_staged h k, if_neg e]
  · simp only [stepPulse, h, k]

end Sys2Proof.Machine
end

section
/-! PROOFS. SET TIME, SET ALARM and SET TRIGGER (R150, R152, R154). -/

namespace Sys2Proof.Machine

section
variable {ps : List Byte} {s : State}

/-- R150: a field out of its range. -/
theorem setTimeBody_outOfRange (p : Fin 16) {i : Nat} (h : firstBad 0
    [within 0 86399 (fld (splitFields [4, 1] ps) 0), within 0 6 (fld (splitFields [4, 1] ps) 1)] = some i) :
    setTimeBody p ps s = unchanged s (outOfRange i) := by
  simp only [setTimeBody, h]

/-- R150: fields in range set the time base. -/
theorem setTimeBody_done (p : Fin 16) (h : firstBad 0
    [within 0 86399 (fld (splitFields [4, 1] ps) 0), within 0 6 (fld (splitFields [4, 1] ps) 1)] = none) :
    setTimeBody p ps s =
      ⟨{ s with time := ⟨fld (splitFields [4, 1] ps) 0, fld (splitFields [4, 1] ps) 1, true⟩ },
        .done (byte4 (fld (splitFields [4, 1] ps) 0) ++ byte1 (fld (splitFields [4, 1] ps) 1) ++ flag s.time.valid), id⟩ := by
  simp only [setTimeBody, h]

/-- R152: a record in range replaces an alarm's. -/
theorem setAlarmBody_done (p : Fin 16) (h : alarmBad (splitFields alarmWidths ps) = none) (hb : s.saving = false) :
    setAlarmBody p ps s =
      ⟨s.modAlarm (Fin.ofNat 16 (fld (splitFields alarmWidths ps) 0)) fun _ => alarmOf (splitFields alarmWidths ps),
        .done (byte1 (Fin.ofNat 16 (fld (splitFields alarmWidths ps) 0)).val ++
          byte1 s.alarms[Fin.ofNat 16 (fld (splitFields alarmWidths ps) 0)].outcome.num), id⟩ := by
  simp only [setAlarmBody, h, hb, Bool.false_eq_true, if_false]

/-- R154: a record in range replaces a trigger's. -/
theorem setTriggerBody_done (p : Fin 16) (h : firstBad 0 (triggerTests (splitFields triggerWidths ps)) = none)
    (hb : s.saving = false) :
    setTriggerBody p ps s =
      ⟨s.modTrigger (Fin.ofNat 16 (fld (splitFields triggerWidths ps) 0)) fun _ => triggerOf (splitFields triggerWidths ps),
        .done (byte1 (Fin.ofNat 16 (fld (splitFields triggerWidths ps) 0)).val ++
          byte1 s.triggers[Fin.ofNat 16 (fld (splitFields triggerWidths ps) 0)].outcome.num), id⟩ := by
  simp only [setTriggerBody, h, hb, Bool.false_eq_true, if_false]

end

section
variable {s : State} {p : Fin 16} {r : Request}

/-- R150: the answer to a SET TIME in range. -/
theorem serve_setTime (hs : s.Serves 36 p r) (h0 : fld (splitFields [4, 1] r.params) 0 ≤ 86399)
    (h1 : fld (splitFields [4, 1] r.params) 1 ≤ 6) :
    AnsweredAs s (s.serve 36 setTimeBody)
      { s with time := ⟨fld (splitFields [4, 1] r.params) 0, fld (splitFields [4, 1] r.params) 1, true⟩ } p r .done
      (byte4 (fld (splitFields [4, 1] r.params) 0) ++ byte1 (fld (splitFields [4, 1] r.params) 1) ++ flag s.time.valid) :=
  serve_changed (fun v => { v with time := _ }) hs
    (setTimeBody_done p (firstBad_pair_none (within_upto h0) (within_upto h1))) fun _ _ _ => rfl

/-- R152: the answer to a SET ALARM in range. -/
theorem serve_setAlarm (hs : s.Serves 37 p r) (h : alarmBad (splitFields alarmWidths r.params) = none) (hb : s.saving = false) :
    AnsweredAs s (s.serve 37 setAlarmBody)
      (s.modAlarm (Fin.ofNat 16 (fld (splitFields alarmWidths r.params) 0)) fun _ => alarmOf (splitFields alarmWidths r.params))
      p r .done (byte1 (Fin.ofNat 16 (fld (splitFields alarmWidths r.params) 0)).val ++
        byte1 s.alarms[Fin.ofNat 16 (fld (splitFields alarmWidths r.params) 0)].outcome.num) := by
  have hbody := setAlarmBody_done p h ((beginService_saving p s).trans hb)
  rw [beginService_alarms] at hbody
  exact serve_changed (State.modAlarm _ _) hs hbody fun _ _ _ => rfl

/-- R154: the answer to a SET TRIGGER in range. -/
theorem serve_setTrigger (hs : s.Serves 38 p r) (h : firstBad 0 (triggerTests (splitFields triggerWidths r.params)) = none)
    (hb : s.saving = false) :
    AnsweredAs s (s.serve 38 setTriggerBody)
      (s.modTrigger (Fin.ofNat 16 (fld (splitFields triggerWidths r.params) 0))
        fun _ => triggerOf (splitFields triggerWidths r.params))
      p r .done (byte1 (Fin.ofNat 16 (fld (splitFields triggerWidths r.params) 0)).val ++
        byte1 s.triggers[Fin.ofNat 16 (fld (splitFields triggerWidths r.params) 0)].outcome.num) := by
  have hbody := setTriggerBody_done p h ((beginService_saving p s).trans hb)
  rw [beginService_triggers] at hbody
  exact serve_changed (State.modTrigger _ _) hs hbody fun _ _ _ => rfl

end

/-- Settles O42: the two range tests of SET TIME, and the answers of the three requests in range. -/
theorem theScheduleIsSet : Obligations.TheScheduleIsSet := by
  refine ⟨fun s p r hs => ⟨fun h0 => ⟨_, exec_setTime s, ?seconds⟩, fun h0 h1 => ⟨_, exec_setTime s, ?weekday⟩,
    fun h0 h1 => ⟨_, exec_setTime s, serve_setTime hs h0 h1⟩⟩, fun s p r hb =>
    ⟨fun hs h => ⟨_, exec_setAlarm s, serve_setAlarm hs h hb⟩, fun hs h => ⟨_, exec_setTrigger s, serve_setTrigger hs h hb⟩⟩⟩
  case seconds => exact serve_refused hs (by decide) (setTimeBody_outOfRange p (firstBad_pair_first (within_above h0)))
  case weekday =>
    exact serve_refused hs (by decide)
      (setTimeBody_outOfRange p (firstBad_pair_second (within_upto h0) (within_above h1)))

end Sys2Proof.Machine
end

section
/-! PROOFS. Link sync (R1 to R4, R14, R17, R22) and control cells (R157). -/

namespace Sys2Proof.Machine

section
variable {s : State} {p : Fin 16} {cell : List Byte}

/-- A port that is changed is a port that is replaced. -/
theorem modPort_eq (s : State) (p : Fin 16) (f : Port → Port) : s.modPort p f = s.withPort p (f s.ports[p]) := rfl

/-- The port that has been changed. -/
theorem modPort_get (s : State) (p : Fin 16) (f : Port → Port) : (s.modPort p f).ports[p] = f s.ports[p] := by
  rw [State.modPort_ports, put_same]

/-- R1: a well-formed cell, of whatever kind, serves the link with the silence timer restarted. -/
theorem cellArrives_wellFormed (h : classify cell ≠ .malformed) :
    s.cellArrives p cell = (s.modPort p fun x => { x with silence := true }).wellFormedArrives p (classify cell) := by
  unfold State.cellArrives
  cases hc : classify cell
  case malformed => exact absurd hc h
  all_goals rfl

/-- R2: a well-formed cell OUT OF SYNC. -/
theorem wellFormedArrives_outOfSync (hl : s.ports[p].link = .outOfSync) (c : Cell) : s.wellFormedArrives p c =
    if 7 ≤ s.ports[p].goodRun then (s.modPort p fun x => { x with goodRun := x.goodRun + 1 }).gainSync p
    else s.modPort p fun x => { x with goodRun := x.goodRun + 1 } := by
  unfold State.wellFormedArrives
  rw [hl]
  dsimp only
  rw [modPort_get]
  simp only [Nat.succ_le_succ_iff]

/-- R3, R4: a well-formed cell IN SYNC. -/
theorem wellFormedArrives_inSync (hl : s.ports[p].link = .inSync) (c : Cell) : s.wellFormedArrives p c =
    (s.modPort p fun x => { x with badRun := 0 }).sortCell p c := by
  unfold State.wellFormedArrives
  rw [hl]

/-- R2: a well-formed cell OUT OF SYNC that does not complete the good run. -/
theorem cellArrives_goodRun (hl : s.ports[p].link = .outOfSync) (h : classify cell ≠ .malformed) (hg : s.ports[p].goodRun < 7) :
    s.cellArrives p cell = s.withPort p { s.ports[p] with silence := true, goodRun := s.ports[p].goodRun + 1 } := by
  rw [cellArrives_wellFormed h, wellFormedArrives_outOfSync (by rw [modPort_get]; exact hl), modPort_get,
    if_neg (Nat.not_le.2 hg), modPort_modPort]
  rfl

/-- R2: the cell that completes the good run brings the link IN SYNC and is itself discarded. -/
theorem cellArrives_gainSync (hl : s.ports[p].link = .outOfSync) (h : classify cell ≠ .malformed)
    (hg : 7 ≤ s.ports[p].goodRun) : s.cellArrives p cell =
      (s.withPort p { s.ports[p] with silence := true, link := .inSync, goodRun := 0, badRun := 0 }).syncGained p := by
  rw [cellArrives_wellFormed h, wellFormedArrives_outOfSync (by rw [modPort_get]; exact hl), modPort_get, if_pos hg]
  unfold State.gainSync
  rw [modPort_modPort, modPort_modPort]
  rfl

/-- R23: SYNC GAINED takes a DOWN source to ACQUIRING, unless start-up has not ended. -/
theorem syncGained_same (s : State) (i : Fin 16) : SameButMarks (s.syncGained i)
    (if s.sources[i].state = .down ∧ s.loading = false then s.withSource i s.sources[i].acquiringFrom else s) := by
  unfold State.syncGained
  simp only [Bool.not_eq_true']
  split
  · exact enterAcquiring_same i s
  · exact .refl s

/-- R4: an idle cell IN SYNC ends the bad run. -/
theorem cellArrives_idle (hl : s.ports[p].link = .inSync) (h : classify cell = .idle) :
    s.cellArrives p cell = s.withPort p { s.ports[p] with silence := true, badRun := 0 } := by
  rw [cellArrives_wellFormed (by rw [h]; nofun), wellFormedArrives_inSync (by rw [modPort_get]; exact hl), h, modPort_modPort]
  rfl

/-- Settles O5: the good run, the gain of sync with what it does to the source, and the idle cell. -/
theorem wellFormedCellsServeTheLink : Obligations.WellFormedCellsServeTheLink := by
  refine ⟨fun s p cell c hc hl h => ?_, fun s p cell hl h => congrArg _ (cellArrives_idle hl h)⟩
  have arrives : exec c s = .next (s.cellArrives p cell) := by
    simp only [List.mem_cons, List.not_mem_nil, or_false] at hc
    obtain rfl | rfl | rfl | rfl := hc
    all_goals rfl
  rw [arrives]
  exact ⟨fun hg => congrArg _ (cellArrives_goodRun hl h hg),
    fun hg => ⟨_, congrArg _ (cellArrives_gainSync hl h hg), syncGained_same _ p⟩⟩

/-! ### The loss of sync -/

/-- R1: a malformed cell is counted, with the silence timer restarted. -/
theorem cellArrives_malformed (h : classify cell = .malformed) :
    s.cellArrives p cell = (s.modPort p fun x => { x with silence := true }).malformedArrives p := by
  unfold State.cellArrives
  dsimp only
  rw [h]

/-- R1: a malformed cell OUT OF SYNC ends the good run. -/
theorem malformedArrives_outOfSync (hl : s.ports[p].link = .outOfSync) : s.malformedArrives p =
    s.modPort p fun x => { x with
      counters := { x.counters with malformed := x.counters.malformed + 1 }
      goodRun := 0 } := by
  unfold State.malformedArrives State.modCounters
  dsimp only
  rw [modPort_get, hl]
  dsimp only
  rw [modPort_modPort]
  rfl

/-- R3: a malformed cell IN SYNC is one of the bad run, whose fourth loses sync. -/
theorem malformedArrives_inSync (hl : s.ports[p].link = .inSync) : s.malformedArrives p =
    (let t := s.modPort p fun x => { x with
      counters := { x.counters with malformed := x.counters.malformed + 1 }
      badRun := x.badRun + 1 }
    if 3 ≤ s.ports[p].badRun then t.loseSync p else t) := by
  unfold State.malformedArrives State.modCounters
  dsimp only
  rw [modPort_get, hl]
  dsimp only
  rw [modPort_modPort, modPort_get]
  simp only [Function.comp_apply, Nat.succ_le_succ_iff]
  rfl

/-- The part whose link has been lost, before the source is told of it: the picture in progress is abandoned (R14). -/
def State.unlinked (s : State) (p : Fin 16) (x : Port) : State := (s.abandoned x.assembly).withPort p
  { x with link := .outOfSync, goodRun := 0, badRun := 0, assembly := .idle, reference := none }

/-- R14, R22: the loss of sync is the abandonment, then SYNC LOST. -/
theorem loseSync_withPort (s : State) (p : Fin 16) (x : Port) : (s.withPort p x).loseSync p = (s.unlinked p x).syncLost p := by
  have same : (s.withPort p x).modPort p (fun y => { y with link := .outOfSync, goodRun := 0, badRun := 0 }) =
      s.withPort p { x with link := .outOfSync, goodRun := 0, badRun := 0 } := by
    unfold State.modPort State.withPort
    rw [put_put, put_same]
  unfold State.loseSync
  rw [same, dropAssembly_eq]
  have get (y : Port) : (s.withPort p y).ports[p] = y := put_same ..
  rw [get]
  unfold State.unlinked
  congr 1
  cases x.assembly
  all_goals
    unfold State.abandoned State.withPort State.withSlot
    simp only [put_put]

end

section
variable (s : State) (p : Fin 16) (x : Port)

/-- R14: the ports of the part whose link has been lost. -/
theorem unlinked_port (q : Fin 16) : (s.unlinked p x).ports[q] = if q = p then
    { x with link := .outOfSync, goodRun := 0, badRun := 0, assembly := .idle, reference := none } else s.ports[q] := by
  unfold State.unlinked State.withPort
  rw [put_get, abandoned_ports]
  simp only [eq_comm]

/-- R14: the abandonment changes the port and the slots. -/
theorem unlinked_rest : { s.unlinked p x with ports := s.ports, slots := s.slots } = s := by
  have rest := abandoned_rest s x.assembly
  have ports := abandoned_ports s x.assembly
  unfold State.unlinked State.withPort
  generalize s.abandoned x.assembly = v at rest ports ⊢
  rw [← ports]
  exact rest

/-- R3, R14, R22: what the loss of sync leaves. -/
theorem loseSync_lost : LinkLost s ((s.withPort p x).loseSync p) p x := by
  rw [loseSync_withPort]
  have sources : (s.unlinked p x).sources = s.sources := abandoned_sources s x.assembly
  have rest := unlinked_rest s p x
  have port := unlinked_port s p x
  have slots : (s.unlinked p x).slots = (s.abandoned x.assembly).slots := rfl
  have ready := readySlot_congr p slots
  generalize s.unlinked p x = v at sources rest port slots ready ⊢
  by_cases kept : v.sources[p].state = .disabled ∨ v.sources[p].state = .down
  · have settled := sources ▸ kept
    refine ⟨v, fun hd hw => absurd settled (by tauto), fun _ => syncLost_kept kept, fun q => by rw [port], fun i => ?_,
      fun k => ?_, ?_⟩
    · rw [if_neg (by tauto), sources]
    · rw [if_neg (by tauto), slots]
    · exact (congrArg (fun u : State => { u with sources := s.sources }) rest :)
  · obtain ⟨hd, hw⟩ := not_or.1 kept
    obtain ⟨w, raised, same⟩ := syncLost_raises hd hw
    rw [sources] at hd hw same
    have retired : { v.retire p with slots := v.slots } = v := retire_rest p v
    refine ⟨w, fun _ _ => raised, fun h => absurd h (by tauto), fun q => ?_, fun i => ?_, fun k => ?_, ?_⟩
    · have ports : (v.retire p).ports = v.ports := by simp
      rw [same.port q, ← port]
      exact congrArg (fun ps : Vector Port 16 => ps[q].unmarked) ports
    · have retiredSources : (v.retire p).sources = v.sources := by simp
      rw [same.sources]
      unfold State.withSource
      rw [put_get, retiredSources, sources]
      by_cases e : p = i
      · rw [if_pos e, if_pos ⟨e.symm, hd, hw⟩]
      · rw [if_neg e, if_neg fun h => e h.1.symm]
    · rw [same.slots]
      unfold State.withSource
      rw [retire_retired, ready, slots]
      by_cases e : (s.abandoned x.assembly).readySlot p = some k
      · rw [if_pos e, if_pos ⟨hd, hw, e⟩]
      · rw [if_neg e, if_neg fun h => e h.2.2]
    · have whole := congrArg (fun u : State => { u with sources := s.sources, slots := s.slots }) (same.rest s.ports)
      have before := congrArg (fun u : State => { u with ports := s.ports, sources := s.sources, slots := s.slots }) retired
      exact whole.trans (before.trans (congrArg (fun u : State => { u with sources := s.sources }) rest))

end

/-- R3: the cell that ends the bad run loses sync, and the count of the bad run with it. -/
theorem loseSync_badRun (s : State) (p : Fin 16) (x : Port) (n : Nat) :
    (s.withPort p { x with badRun := n }).loseSync p = (s.withPort p x).loseSync p := by
  rw [loseSync_withPort, loseSync_withPort]
  rfl

/-- Settles O6: the malformed cells by the link and the bad run, the expiry by the link, and `loseSync_lost`. -/
theorem theLinkIsLost : Obligations.TheLinkIsLost := by
  refine ⟨fun s p cell h => ?_, fun s p => ?_⟩
  · rw [exec_malformedCell, cellArrives_malformed h]
    have link : (s.modPort p fun x => { x with silence := true }).ports[p].link = s.ports[p].link := by rw [modPort_get]
    refine ⟨fun hl => congrArg _ ?_, fun hl hb => congrArg _ ?_, fun hl hb => ⟨_, rfl, ?_⟩⟩
    · rw [malformedArrives_outOfSync (link.trans hl), modPort_modPort]
      rfl
    · rw [malformedArrives_inSync (link.trans hl), modPort_get, if_neg (Nat.not_le.2 hb), modPort_modPort]
      rfl
    · rw [malformedArrives_inSync (link.trans hl), modPort_get, if_pos hb, modPort_modPort, modPort_eq]
      have lost := loseSync_lost s p { s.ports[p] with
        silence := true
        counters := { s.ports[p].counters with malformed := s.ports[p].counters.malformed + 1 } }
      rw [← loseSync_badRun s p _ (s.ports[p].badRun + 1)] at lost
      exact lost
  · rw [exec_silenceTimerExpiry]
    unfold State.silenceExpires
    refine ⟨fun h => ?_, fun h hl => ?_, fun h hl => ⟨_, rfl, ?_⟩⟩
    · rw [h]
      rfl
    · rw [h, hl]
      rfl
    · rw [h, hl]
      have self : s.withPort p s.ports[p] = s := by
        unfold State.withPort
        rw [put_self]
      have lost := loseSync_lost s p s.ports[p]
      rw [self] at lost
      exact lost

/-! ### Control cells -/

/-- R4: a control cell IN SYNC is handed to the request unit. -/
theorem cellArrives_control {s : State} {p : Fin 16} {cell : List Byte} {r : Request} (hl : s.ports[p].link = .inSync)
    (h : classify cell = .control r) : s.cellArrives p cell =
      (s.withPort p { s.ports[p] with silence := true, badRun := 0 }).requestArrives p r := by
  rw [cellArrives_wellFormed (by rw [h]; nofun), wellFormedArrives_inSync (by rw [modPort_get]; exact hl), h, modPort_modPort]
  rfl

/-- A port that is replaced twice. -/
theorem withPort_withPort (s : State) (p : Fin 16) (x y : Port) : (s.withPort p x).withPort p y = s.withPort p y := by
  unfold State.withPort
  rw [put_put]

/-- The port that has been replaced. -/
theorem withPort_get (s : State) (p : Fin 16) (x : Port) : (s.withPort p x).ports[p] = x := put_same ..

/-- Settles O7: the four branches of the arrival. -/
theorem controlCellsAreQueued : Obligations.ControlCellsAreQueued := by
  intro s p cell r hl h
  rw [exec_controlCell, cellArrives_control hl h]
  have port := withPort_get s p { s.ports[p] with silence := true, badRun := 0 }
  have loading : (s.withPort p { s.ports[p] with silence := true, badRun := 0 }).loading = s.loading := loading_congr rfl
  have fault : (s.withPort p { s.ports[p] with silence := true, badRun := 0 }).wallFault = s.wallFault :=
    wallFault_congr rfl rfl rfl rfl rfl rfl rfl rfl
  unfold State.requestArrives
  rw [port, loading]
  dsimp only
  refine ⟨fun hg => ?_, fun hg hs => ?_, fun hg hs hq => ?_, fun hg hs hq => ?_⟩
  · rw [if_pos hg]
  · rw [if_neg hg, if_pos hs, State.reply, fault, modPort_eq, port, withPort_withPort]
  · rw [if_neg hg, hs, if_neg Bool.false_ne_true, if_pos (show Config.queueDepth ≤ _ from hq), State.reply, fault, modPort_eq, port, withPort_withPort]
  · rw [if_neg hg, hs, if_neg Bool.false_ne_true, if_neg (show ¬ Config.queueDepth ≤ _ from Nat.not_le.2 hq), modPort_eq, port, withPort_withPort]

end Sys2Proof.Machine
end

section
/-! PROOFS. The band assembler (R5 to R13). -/

namespace Sys2Proof.Machine

section
variable {s : State} {p : Fin 16} {b : BandCell}

/-- R5: a band where no picture is assembled. -/
theorem assemble_off (h : s.assembles p = false) :
    s.assemble p b = s.modCounters p fun c => { c with discarded := c.discarded + 1 } := by
  unfold State.assemble
  rw [h]
  rfl

/-- R7, R13: a band that no first band's fields come with, or whose index is not 0, is taken as a later band. -/
theorem assemble_later (h : s.assembles p = true) (hb : b.index ≠ 0 ∨ b.format = none) : s.assemble p b =
    match s.ports[p].assembly with
    | .assembling k n f e m => s.laterBand p b k n f e m
    | .idle => s.modCounters p fun c => { c with discarded := c.discarded + 1 }
    | .discarding => s.modCounters p fun c => { c with discarded := c.discarded + 1 } := by
  have later : (if b.index = 0 then b.format else none) = none := by
    split
    · next h0 => exact hb.resolve_left (fun k => k h0)
    · rfl
  unfold State.assemble
  rw [h, later]
  rfl

/-- R7, R8: a first band. -/
theorem assemble_first {f : Format} (h : s.assembles p = true) (h0 : b.index = 0) (hf : b.format = some f) : s.assemble p b =
    match s.ports[p].assembly with
    | .assembling k _ _ _ _ =>
      (((s.abandon k).modCounters p fun c => { c with truncated := c.truncated + 1 }).reportErrored p 0).firstBand p b f
    | .idle => s.firstBand p b f
    | .discarding => s.firstBand p b f := by
  unfold State.assemble
  rw [h, h0, hf]
  rfl

/-- R6, R10: a band is written as received, and a failed check is counted. -/
theorem writeChecked_eq (k : Fin 64) (fails : Bool) : s.writeChecked p k b fails =
    (s.withSlot k { s.slots[k] with bands := s.slots[k].bands ++ [b.payload] }).withPort p { s.ports[p] with
      counters := { s.ports[p].counters with
        checkFailed := if fails then s.ports[p].counters.checkFailed + 1 else s.ports[p].counters.checkFailed } } := by
  unfold State.writeChecked
  cases fails
  · exact (congrArg (fun ps => { s.writeBand k b.payload with ports := ps }) (put_self s.ports p)).symm
  · rfl

/-- R9: a later band that is not in sequence is a gap. -/
theorem laterBand_gap {k : Fin 64} {n : Byte} {f : Format} {e : Nat} {m : Bool}
    (h : b.first = true ∨ b.index ≠ e ∨ (b.last = true ↔ b.index + 1 ≠ f.height)) :
    s.laterBand p b k n f e m = (s.abandon k).gapPicture p := by
  unfold State.laterBand
  rw [if_pos]
  cases hb : b.last <;> simpa [hb, or_assoc] using h

/-- R10: a band in sequence is written, and its check counted with the picture's. -/
theorem laterBand_inSequence {k : Fin 64} {n : Byte} {f : Format} {e : Nat} {m : Bool} (hf : b.first = false)
    (hi : b.index = e) (hl : b.last = true ↔ e + 1 = f.height) : s.laterBand p b k n f e m =
      if b.last then (s.writeChecked p k b (bandFails b f.width)).completePicture p k n f (m || bandFails b f.width)
      else (s.writeChecked p k b (bandFails b f.width)).modPort p fun x => { x with
        assembly := .assembling k n f (e + 1) (m || bandFails b f.width) } := by
  unfold State.laterBand
  rw [if_neg]
  cases hb : b.last <;> simpa [hb, hf, hi] using hl

/-- R13: a band that is no first band, while no picture is assembled. -/
theorem assemble_none (h : s.assembles p = true) (ha : s.ports[p].assembly = .idle ∨ s.ports[p].assembly = .discarding)
    (hb : b.index ≠ 0 ∨ b.format = none) :
    s.assemble p b = s.modCounters p fun c => { c with discarded := c.discarded + 1 } := by
  rw [assemble_later h hb]
  obtain ha | ha := ha
  all_goals rw [ha]

end

/-- The port when a band cell has arrived IN SYNC (R1, R3, R6). -/
def Port.bandArrived (x : Port) : Port := { x with
  silence := true
  badRun := 0
  counters := { x.counters with received := x.counters.received + 1 } }

section
variable {s : State} {p : Fin 16} {cell : List Byte} {b : BandCell}

/-- R4: a band cell IN SYNC is handed to the assembler. -/
theorem exec_bandCell_inSync (hl : s.ports[p].link = .inSync) (hc : classify cell = .band b) :
    exec (.bandCell p cell) s = .next ((s.withPort p s.ports[p].bandArrived).assemble p b) := bandArrives hl hc

/-- R5: the arrival of a band leaves whether pictures are assembled. -/
theorem bandArrived_assembles (h : s.assembles p = true) : (s.withPort p s.ports[p].bandArrived).assembles p = true :=
  (modPort_assembles s p p Port.bandArrived).trans h

/-- R13: a band that is no first band has no format. -/
theorem format_none (hc : classify cell = .band b) (h : b.index ≠ 0 ∨ b.first = false) : b.index ≠ 0 ∨ b.format = none :=
  h.imp_right fun h => Option.isSome_eq_false_iff.1 ((classify_first hc).trans h) |> Option.isNone_iff_eq_none.1

end

/-- Settles O8: in sequence, discarded, and a gap. -/
theorem bandsAreWrittenOrDiscarded : Obligations.BandsAreWrittenOrDiscarded := by
  refine ⟨fun s p cell b k n f e m hl hc hs ha hf h1 hi hlast hh => ?inSequence, fun s p cell b hl hc h => ?discarded,
    fun s p cell b k n f e m hl hc hs ha hb h => ?gap⟩
  all_goals rw [exec_bandCell_inSync hl hc]
  case inSequence =>
    have assembly : (s.withPort p s.ports[p].bandArrived).ports[p].assembly = .assembling k n f e m := by
      rw [withPort_get]
      exact ha
    rw [assemble_later (bandArrived_assembles hs) (format_none hc (.inl (by omega))), assembly]
    dsimp only
    rw [laterBand_inSequence hf hi (by simp [hlast, hh]), hlast, if_neg Bool.false_ne_true, writeChecked_eq, modPort_eq,
      withPort_get, withPort_get]
    unfold State.withPort State.withSlot
    simp only [put_put]
    rfl
  case discarded =>
    have arrived : (s.withPort p s.ports[p].bandArrived).assemble p b =
        (s.withPort p s.ports[p].bandArrived).modCounters p fun c => { c with discarded := c.discarded + 1 } := by
      cases hs : s.assembles p with
      | false => exact assemble_off ((modPort_assembles s p p Port.bandArrived).trans hs)
      | true =>
        obtain ⟨ha, hb⟩ := h.resolve_left (by simp [hs])
        exact assemble_none (bandArrived_assembles hs) (by rw [withPort_get]; exact ha) (format_none hc hb)
    rw [arrived]
    unfold State.modCounters
    rw [modPort_eq, withPort_withPort, withPort_get]
    rfl
  case gap =>
    have assembly : (s.withPort p s.ports[p].bandArrived).ports[p].assembly = .assembling k n f e m := by
      rw [withPort_get]
      exact ha
    rw [assemble_later (bandArrived_assembles hs) (format_none hc hb), assembly]
    dsimp only
    rw [laterBand_gap h]
    unfold State.gapPicture State.discardFrom State.modCounters
    rw [modPort_modPort, modPort_modPort, modPort_eq]
    have port : ((s.withPort p s.ports[p].bandArrived).abandon k).ports[p] = s.ports[p].bandArrived := withPort_get ..
    rw [port]
    unfold State.abandon State.modSlot State.withPort State.withSlot
    simp only [put_put]
    rfl


/-! ### First bands -/

section
variable {s : State} {p : Fin 16} {b : BandCell}

/-- R7: with no slot FREE the drop is recorded and the picture is starved (R48). -/
theorem firstBand_starves {f : Format} (hu : f.usable = true) (hl : b.last = false) (hk : s.freeSlot = none) :
    s.firstBand p b f = { s.withSource p { s.sources[p] with starved := s.sources[p].starved + 1 } with
      starvation := {
        thisSecond := min 65535 (s.starvation.thisSecond + 1)
        lastSecond := s.starvation.lastSecond
        total := s.starvation.total + 1
        lastDrop := some (p, s.time.seconds) } }.withPort p { s.ports[p] with
          assembly := .discarding
          counters := { s.ports[p].counters with discarded := s.ports[p].counters.discarded + 1 } } := by
  unfold State.firstBand
  rw [if_neg (by simp [hu, hl])]
  unfold State.grant
  rw [hk]
  dsimp only
  unfold State.discardFrom State.modCounters
  rw [modPort_modPort]
  rfl

/-- R7: a first band while no picture is assembled. -/
theorem assemble_first_none {f : Format} (h : s.assembles p = true)
    (ha : s.ports[p].assembly = .idle ∨ s.ports[p].assembly = .discarding) (h0 : b.index = 0) (hf : b.format = some f) :
    s.assemble p b = s.firstBand p b f := by
  rw [assemble_first h h0 hf]
  obtain ha | ha := ha
  all_goals rw [ha]

/-- R8: the part whose picture in progress a first band has truncated. -/
def State.truncated (s : State) (p : Fin 16) (old : Fin 64) : State :=
  State.reportErrored p 0 ((s.withSlot old Slot.empty).withPort p { s.ports[p] with
    silence := true
    badRun := 0
    counters := { s.ports[p].counters with
      received := s.ports[p].counters.received + 1
      truncated := s.ports[p].counters.truncated + 1 } })

/-- R8: a first band that arrives while ASSEMBLING. -/
theorem assemble_truncates {f g : Format} {old : Fin 64} {n : Byte} {e : Nat} {m : Bool} (h : s.assembles p = true)
    (ha : s.ports[p].assembly = .assembling old n g e m) (h0 : b.index = 0) (hf : b.format = some f) :
    (s.withPort p s.ports[p].bandArrived).assemble p b = (s.truncated p old).firstBand p b f := by
  have assembly : (s.withPort p s.ports[p].bandArrived).ports[p].assembly = .assembling old n g e m := by
    rw [withPort_get]
    exact ha
  rw [assemble_first (bandArrived_assembles h) h0 hf, assembly]
  dsimp only
  unfold State.truncated State.modCounters
  have port : ((s.withPort p s.ports[p].bandArrived).abandon old).ports[p] = s.ports[p].bandArrived := withPort_get ..
  rw [modPort_eq, port]
  unfold State.abandon State.modSlot State.withPort State.withSlot
  simp only [put_put]
  rfl

/-- R8: the slots when the picture in progress has been truncated: its slot is FREE again. -/
theorem truncated_slots (s : State) (p : Fin 16) (old : Fin 64) :
    (s.truncated p old).slots = (s.withSlot old Slot.empty).slots := by
  unfold State.truncated
  simp
  rfl

/-- R8: the lowest FREE slot when the picture in progress has been truncated. -/
theorem truncated_freeSlot {old k : Fin 64} (hk : k = old ∨ s.slots[k].state = .free)
    (hl : ∀ j : Fin 64, j < k → j ≠ old ∧ s.slots[j].state ≠ .free) : (s.truncated p old).freeSlot = some k := by
  have slot (j : Fin 64) : (s.truncated p old).slots[j] = if old = j then Slot.empty else s.slots[j] := by
    rw [truncated_slots]
    exact put_get ..
  refine freeSlot_eq ?_ fun j hj => ?_
  · rw [slot]
    split
    · rfl
    · next h => exact hk.resolve_left (Ne.symm h)
  · obtain ⟨hne, hs⟩ := hl j hj
    rw [slot, if_neg hne.symm]
    exact hs

end

/-- Settles O9: a first band is granted, starved or fails, from the part as it arrives or from the truncated one. -/
theorem firstBandsAreGrantedOrStarved : Obligations.FirstBandsAreGrantedOrStarved := by
  refine ⟨fun s p cell b f hl hc hs ha h0 hf hu hlast => ⟨fun k hk hlow => ?granted, fun hn => ?starved⟩,
    fun s p cell b f hl hc hs ha h0 hf h => ?fails,
    fun s p cell b f g old n e m hl hc hs ha h0 hf => ⟨fun hu hlast k hk hlow => ?truncatedGranted, fun h => ?truncatedFails⟩⟩
  all_goals rw [exec_bandCell_inSync hl hc]
  case granted =>
    rw [assemble_first_none (bandArrived_assembles hs) (by rw [withPort_get]; exact ha) h0 hf,
      firstBand_grants hu hlast (s := s.withPort p s.ports[p].bandArrived) (freeSlot_eq hk hlow), withPort_get]
    unfold State.withPort State.withSlot
    simp only [put_put]
    rfl
  case starved =>
    rw [assemble_first_none (bandArrived_assembles hs) (by rw [withPort_get]; exact ha) h0 hf,
      firstBand_starves hu hlast (s := s.withPort p s.ports[p].bandArrived) (freeSlot_none hn), withPort_get]
    unfold State.withPort State.withSource
    simp only [put_put]
    rfl
  case fails =>
    rw [assemble_first_none (bandArrived_assembles hs) (by rw [withPort_get]; exact ha) h0 hf, firstBand_fails h, modPort_eq,
      withPort_withPort, withPort_get]
    rfl
  case truncatedGranted =>
    rw [assemble_truncates hs ha h0 hf, firstBand_grants hu hlast (truncated_freeSlot hk hlow)]
    rfl
  case truncatedFails =>
    rw [assemble_truncates hs ha h0 hf, firstBand_fails h]
    rfl

end Sys2Proof.Machine
end

section
/-! PROOFS. Last bands (R11, R12) and what their reports do to the source (R24 to R29, R135). -/

namespace Sys2Proof.Machine

section
variable {s : State} {p : Fin 16} {b : BandCell}

/-- R11: a later band that is the picture's last. -/
theorem laterBand_last {k : Fin 64} {n : Byte} {f : Format} {e : Nat} {m : Bool} (hf : b.first = false) (hi : b.index = e)
    (hl : b.last = true) (hh : e + 1 = f.height) : s.laterBand p b k n f e m =
      (s.writeChecked p k b (bandFails b f.width)).completePicture p k n f (m || bandFails b f.width) := by
  rw [laterBand_inSequence hf hi (by simp [hl, hh]), hl, if_pos rfl]

/-- The port that has taken the last band of a picture (R6, R11, R12). -/
def Port.completed (x : Port) (n : Byte) (fails : Bool) : Port := { x with
  silence := true
  badRun := 0
  assembly := .idle
  reference := some n
  counters := { x.counters with
    received := x.counters.received + 1
    checkFailed := if fails then x.counters.checkFailed + 1 else x.counters.checkFailed } }

/-- The part that has taken the last band of a picture, before its slot is published or abandoned. -/
def State.completing (s : State) (p : Fin 16) (k : Fin 64) (n : Byte) (b : BandCell) (fails : Bool) : State :=
  (s.withSlot k { s.slots[k] with bands := s.slots[k].bands ++ [b.payload] }).withPort p (s.ports[p].completed n fails)

/-- R11, R12: the last band of a picture. -/
theorem assemble_completes {k : Fin 64} {n : Byte} {f : Format} {e : Nat} {m : Bool} (hs : s.assembles p = true)
    (ha : s.ports[p].assembly = .assembling k n f e m) (hf : b.first = false) (h1 : 1 ≤ e) (hi : b.index = e)
    (hl : b.last = true) (hh : e + 1 = f.height) : (s.withPort p s.ports[p].bandArrived).assemble p b =
      if (m || bandFails b f.width) = true then
        ((s.completing p k n b (bandFails b f.width)).abandon k).reportErrored p (State.skippedNumber s.ports[p].reference n)
      else ((s.completing p k n b (bandFails b f.width)).publish p k).reportClean p f
        (State.skippedNumber s.ports[p].reference n) := by
  have assembly : (s.withPort p s.ports[p].bandArrived).ports[p].assembly = .assembling k n f e m := by
    rw [withPort_get]
    exact ha
  rw [assemble_later (bandArrived_assembles hs) (.inl (by omega)), assembly]
  dsimp only
  rw [laterBand_last hf hi hl hh, writeChecked_eq]
  unfold State.completePicture
  dsimp only
  rw [withPort_get, withPort_get, modPort_eq, withPort_get, withPort_withPort]
  have completing : ((s.withPort p s.ports[p].bandArrived).withSlot k
      { s.slots[k] with bands := s.slots[k].bands ++ [b.payload] }).withPort p (s.ports[p].completed n (bandFails b f.width)) =
      s.completing p k n b (bandFails b f.width) := by
    unfold State.completing State.withPort State.withSlot
    simp only [put_put]
  rw [← completing]
  rfl

/-- R38: a slot that is not READY, before and after, is not the READY slot of a source. -/
theorem readySlot_withSlot {k : Fin 64} {x : Slot} (i : Fin 16) (h : s.slots[k].state ≠ .ready) (hx : x.state ≠ .ready) :
    (s.withSlot k x).readySlot i = s.readySlot i := by
  unfold State.readySlot
  congr 1
  funext j
  have slot : (s.withSlot k x).slots[j] = if k = j then x else s.slots[j] := put_get ..
  rw [slot]
  split
  · next e =>
    subst e
    rw [decide_eq_false h, decide_eq_false hx, Bool.false_and, Bool.false_and]
  · rfl

/-- R38: the last band changes no READY slot. -/
theorem completing_readySlot {k : Fin 64} {n : Byte} {fails : Bool} (hk : s.slots[k].state = .filling) (i : Fin 16) :
    (s.completing p k n b fails).readySlot i = s.readySlot i :=
  readySlot_withSlot i (by rw [hk]; nofun) (by dsimp only; rw [hk]; nofun)

/-- R40: what the publication of a clean picture makes of the slots, and that it makes nothing else. -/
theorem completing_publish {k : Fin 64} {n : Byte} {fails : Bool} (hk : s.slots[k].state = .filling) :
    let v := (s.completing p k n b fails).publish p k
    v.slots[k] = { s.slots[k] with state := .ready, bands := s.slots[k].bands ++ [b.payload] } ∧
    (∀ j : Fin 64, j ≠ k → v.slots[j] = if s.readySlot p = some j then
      (if 0 < s.slots[j].holds then { s.slots[j] with state := .retired } else Slot.empty) else s.slots[j]) ∧
    { v with slots := s.slots } = s.withPort p (s.ports[p].completed n fails) := by
  have slot (j : Fin 64) : (s.completing p k n b fails).slots[j] =
      if k = j then { s.slots[k] with bands := s.slots[k].bands ++ [b.payload] } else s.slots[j] := put_get ..
  refine ⟨?_, fun j hj => ?_, ?_⟩
  · have notReady : s.readySlot p ≠ some k := readySlot_ne_of_not_ready (by rw [hk]; nofun) p
    rw [publish_slots, if_pos rfl, retire_slots, completing_readySlot hk, if_neg notReady, slot, if_pos rfl]
  · rw [publish_slots, if_neg hj.symm, retire_slots, completing_readySlot hk, slot, if_neg hj.symm]
  · exact congrArg (fun u : State => { u with slots := s.slots }) (retire_rest p (s.completing p k n b fails))

/-! ### Reports -/

variable {i : Fin 16}

/-- A source's format differs from a picture's (R29). -/
theorem format_changed {x : Source} {f : Format} : x.format.any (· ≠ f) = true ↔ ∃ g : Format, x.format = some g ∧ g ≠ f := by
  simp [Option.any_eq_true]

/-- R24: a CLEAN picture counted in ACQUIRING. -/
theorem countClean_tested {t : State} {z : Source} (h : SameButMarks t (s.withSource i z)) :
    AcquiringTested s (t.countClean i) i { z with seen := z.seen + 1, cleanRun := z.cleanRun + 1 } := by
  refine testAcquiring_tested ?_
  have source : t.sources[i] = z := by rw [h.sources]; exact put_same ..
  rw [modSource_eq, source]
  exact h.replaceSource _

/-- R29: a CLEAN picture of another format is counted in an ACQUIRING that begins anew. -/
theorem enterAcquiring_countClean (z : Source) : AcquiringTested s (((s.withSource i z).enterAcquiring i).countClean i) i
    { z with state := .acquiring, seen := 1, cleanRun := 1, missRun := 0, stale := none } := by
  refine countClean_tested (z := z.acquiringFrom) ((enterAcquiring_same i _).trans (.of_eq ?_))
  rw [withSource_get, withSource_withSource]

/-- R27: a CLEAN picture of a SUSPECT source. -/
theorem cleanWhileSuspect_withSource (z : Source) : (s.withSource i z).cleanWhileSuspect i =
    if z.params.passRun ≤ z.cleanRun + 1 then
      (((s.withSource i { z with cleanRun := z.cleanRun + 1, stale := some z.params.staleLimit, missRun := 0 }).setSourceState i
        .qualified).endQualifiedWaits i)
    else s.withSource i { z with cleanRun := z.cleanRun + 1, stale := some z.params.staleLimit } := by
  have counted : ((s.withSource i z).modSource i fun x => { x with cleanRun := x.cleanRun + 1 }).startStale i =
      s.withSource i { z with cleanRun := z.cleanRun + 1, stale := some z.params.staleLimit } := by
    unfold State.startStale
    rw [modSource_modSource, modSource_eq, withSource_get, withSource_withSource]
    rfl
  unfold State.cleanWhileSuspect
  dsimp only
  rw [counted, withSource_get, modSource_eq, withSource_get, withSource_withSource]

/-- R24, R29: a CLEAN report taken in ACQUIRING. -/
theorem takeClean_acquiring (h : s.sources[i].state = .acquiring) (changed : Bool) :
    s.takeClean i changed = if changed then (s.enterAcquiring i).countClean i else s.countClean i := by
  unfold State.takeClean
  rw [h]

/-- R25, R29: a CLEAN report taken while QUALIFIED. -/
theorem takeClean_qualified (h : s.sources[i].state = .qualified) (changed : Bool) :
    s.takeClean i changed = if changed then (s.enterAcquiring i).countClean i
      else (s.modSource i fun x => { x with cleanRun := min 255 (x.cleanRun + 1) }).startStale i := by
  unfold State.takeClean
  rw [h]

/-- R27, R29: a CLEAN report taken while SUSPECT. -/
theorem takeClean_suspect (h : s.sources[i].state = .suspect) (changed : Bool) :
    s.takeClean i changed = if changed then (s.enterAcquiring i).countClean i else s.cleanWhileSuspect i := by
  unfold State.takeClean
  rw [h]

/-- R28: a CLEAN report taken while FAILED. -/
theorem takeClean_failed (h : s.sources[i].state = .failed) (changed : Bool) : s.takeClean i changed = s := by
  unfold State.takeClean
  rw [h]

/-- R24 to R29: what a CLEAN report does to a source in each state. -/
theorem reportClean_source (f : Format) (skipped : Nat) :
    let x := s.sources[i]
    let y : Source := { x with
      completed := x.completed + 1, skipped := x.skipped + BitVec.ofNat 32 skipped, format := some f }
    let changed : Prop := ∃ g : Format, x.format = some g ∧ g ≠ f
    let t := s.reportClean i f skipped
    (x.state = .acquiring → ¬ changed →
      AcquiringTested s t i { y with seen := x.seen + 1, cleanRun := x.cleanRun + 1 }) ∧
    (x.state = .acquiring ∨ x.state = .qualified ∨ x.state = .suspect → changed →
      AcquiringTested s t i { y with state := .acquiring, seen := 1, cleanRun := 1, missRun := 0, stale := none }) ∧
    (x.state = .qualified → ¬ changed → t = s.withSource i
      { y with cleanRun := min 255 (x.cleanRun + 1), stale := some x.params.staleLimit }) ∧
    (x.state = .suspect → ¬ changed → x.cleanRun + 1 < x.params.passRun →
      t = s.withSource i { y with cleanRun := x.cleanRun + 1, stale := some x.params.staleLimit }) ∧
    (x.state = .suspect → ¬ changed → x.params.passRun ≤ x.cleanRun + 1 → ∃ w : State,
      SameButMarks w (s.withSource i { y with
        state := .qualified, cleanRun := x.cleanRun + 1, missRun := 0, stale := some x.params.staleLimit }) ∧
      t = w.endQualifiedWaits i) ∧
    (x.state = .failed → t = s.withSource i y) := by
  intro x y changed t
  have taken : t = (s.withSource i y).takeClean i (x.format.any (· ≠ f)) := rfl
  have state : (s.withSource i y).sources[i].state = x.state := by rw [withSource_get]
  have unchanged (h : ¬ changed) : x.format.any (· ≠ f) = false := Bool.not_eq_true _ ▸ fun k => h (format_changed.1 k)
  rw [taken]
  refine ⟨fun h hc => ?_, fun h hc => ?_, fun h hc => ?_, fun h hc hp => ?_, fun h hc hp => ?_, fun h => ?_⟩
  · rw [takeClean_acquiring (state.trans h), unchanged hc, if_neg Bool.false_ne_true]
    exact countClean_tested (.refl _)
  · have anew : (s.withSource i y).takeClean i true = ((s.withSource i y).enterAcquiring i).countClean i := by
      obtain h | h | h := h
      · exact takeClean_acquiring (state.trans h) true
      · exact takeClean_qualified (state.trans h) true
      · exact takeClean_suspect (state.trans h) true
    rw [format_changed.2 hc, anew]
    exact enterAcquiring_countClean y
  · rw [takeClean_qualified (state.trans h), unchanged hc, if_neg Bool.false_ne_true]
    unfold State.startStale
    rw [modSource_modSource, modSource_eq, withSource_get, withSource_withSource]
    rfl
  · rw [takeClean_suspect (state.trans h), unchanged hc, if_neg Bool.false_ne_true, cleanWhileSuspect_withSource,
      if_neg (Nat.not_le.2 hp)]
  · rw [takeClean_suspect (state.trans h), unchanged hc, if_neg Bool.false_ne_true, cleanWhileSuspect_withSource, if_pos hp]
    exact ⟨_, setSourceState_withSource .., rfl⟩
  · exact takeClean_failed (state.trans h) _

/-- R26: a miss while QUALIFIED. -/
theorem takeMiss_qualified (h : s.sources[i].state = .qualified) : SameButMarks (s.takeMiss i)
    (s.withSource i { s.sources[i] with state := .suspect, missRun := 1, cleanRun := 0 }) := by
  unfold State.takeMiss
  rw [h]
  dsimp only
  rw [modSource_eq]
  exact setSourceState_withSource ..

/-- R27: a miss while SUSPECT. -/
theorem takeMiss_suspect (h : s.sources[i].state = .suspect) : s.takeMiss i =
    (let t := s.withSource i { s.sources[i] with missRun := s.sources[i].missRun + 1, cleanRun := 0 }
    if s.sources[i].params.suspectLimit ≤ s.sources[i].missRun + 1 then t.failSource i else t) := by
  unfold State.takeMiss
  rw [h]
  dsimp only
  rw [modSource_eq, withSource_get]

/-- R24, R26 to R28: what an ERRORED report does to a source in each state. -/
theorem reportErrored_source (skipped : Nat) :
    let x := s.sources[i]
    let y : Source := { x with errored := x.errored + 1, skipped := x.skipped + BitVec.ofNat 32 skipped }
    let t := s.reportErrored i skipped
    (x.state = .acquiring → AcquiringTested s t i { y with seen := x.seen + 1, cleanRun := 0 }) ∧
    (x.state = .qualified → SameButMarks t (s.withSource i { y with state := .suspect, missRun := 1, cleanRun := 0 })) ∧
    (x.state = .suspect → x.missRun + 1 < x.params.suspectLimit →
      t = s.withSource i { y with missRun := x.missRun + 1, cleanRun := 0 }) ∧
    (x.state = .suspect → x.params.suspectLimit ≤ x.missRun + 1 → ∃ w : State,
      SameButMarks w (s.withSource i
        { y with state := .failed, missRun := x.missRun + 1, cleanRun := 0, stale := none }) ∧
      t = w.raiseEvent i .failed) ∧
    (x.state = .failed → t = s.withSource i y) := by
  intro x y t
  have state : (s.withSource i y).sources[i].state = x.state := by rw [withSource_get]
  have taken : t = match (s.withSource i y).sources[i].state with
    | .acquiring => ((s.withSource i y).modSource i fun x => { x with seen := x.seen + 1, cleanRun := 0 }).testAcquiring i
    | .qualified => (s.withSource i y).takeMiss i
    | .suspect => (s.withSource i y).takeMiss i
    | .failed => s.withSource i y
    | .disabled => s.withSource i y
    | .down => s.withSource i y := rfl
  refine ⟨fun h => ?_, fun h => ?_, fun h hm => ?_, fun h hm => ?_, fun h => ?_⟩
  all_goals rw [taken, state.trans h]
  · refine testAcquiring_tested (.of_eq ?_)
    rw [modSource_eq, withSource_get, withSource_withSource]
  · have missed := takeMiss_qualified (state.trans h)
    rw [withSource_get, withSource_withSource] at missed
    exact missed
  · dsimp only
    rw [takeMiss_suspect (state.trans h), withSource_get, withSource_withSource]
    exact if_neg (Nat.not_le.2 hm)
  · dsimp only
    rw [takeMiss_suspect (state.trans h), withSource_get, withSource_withSource]
    dsimp only
    rw [if_pos hm]
    obtain ⟨w, raised, same⟩ := failSource_raises s i { y with missRun := x.missRun + 1, cleanRun := 0 }
    exact ⟨w, same, raised⟩

/-- R135: the end of the waits for a source moves the runners that wait for it. -/
theorem endQualifiedWaits_runners (s : State) (i : Fin 16) :
    (∀ (r : Fin 4) (o : StopOption) (n : Nat), s.runners[r].state = .waiting (.qualified i o n) →
      (s.endQualifiedWaits i).runners[r] = s.runners[r].resumed) ∧
    (∀ r : Fin 4, (∀ (o : StopOption) (n : Nat), s.runners[r].state ≠ .waiting (.qualified i o n)) →
      (s.endQualifiedWaits i).runners[r] = s.runners[r]) ∧
    SameButMarks { s.endQualifiedWaits i with runners := s.runners } s := by
  obtain ⟨same, seen⟩ := endQualifiedWaits_same i s
  refine ⟨fun r o n h => ?_, fun r h => ?_, same⟩
  · rw [seen]
    unfold Runner.qualifiedSeen
    rw [h]
    exact if_pos rfl
  · rw [seen]
    unfold Runner.qualifiedSeen
    split
    · next j o n hw =>
      rw [if_neg]
      rintro rfl
      exact h o n hw
    · rfl

end

/-- Settles O10: the last band completes the picture, its report is that of `reportClean_source` or `reportErrored_source`. -/
theorem lastBandsPublish : Obligations.LastBandsPublish := by
  refine ⟨fun s p cell b k n f e hl hc hload hq hform ha hk hf h1 hi hlast hh hfail => ?qualified,
    fun s p cell b k n f e m hl hc hs ha hk hf h1 hi hlast hh => ⟨fun hm hfail => ?clean, fun h => ?errored⟩,
    fun s i f skipped => reportClean_source f skipped, fun s i skipped => reportErrored_source skipped,
    endQualifiedWaits_runners⟩
  case qualified =>
    have hs : s.assembles p = true := by
      unfold State.assembles
      rw [hload, hq]
      rfl
    obtain ⟨published, others, rest⟩ := completing_publish (p := p) (b := b) (n := n) (fails := false) hk
    rw [exec_bandCell_inSync hl hc, assemble_completes hs ha hf h1 hi hlast hh, hfail, Bool.or_self, if_neg Bool.false_ne_true]
    generalize (s.completing p k n b false).publish p k = v at published others rest
    have sources : v.sources = s.sources := (congrArg State.sources rest :)
    obtain ⟨-, -, reported, -⟩ := reportClean_source (s := v) (i := p) f (State.skippedNumber s.ports[p].reference n)
    rw [sources] at reported
    have whole := reported hq fun ⟨g, hg, hne⟩ => hne (Option.some.inj (hg.symm.trans hform))
    refine ⟨_, rfl, ?_, fun j hj => ?_, ?_⟩
    · rw [whole]
      exact published
    · rw [whole]
      exact others j hj
    · rw [whole, ← hform]
      exact congrArg (fun u : State => u.withSource p { s.sources[p] with
        completed := s.sources[p].completed + 1
        skipped := s.sources[p].skipped + BitVec.ofNat 32 (State.skippedNumber s.ports[p].reference n)
        cleanRun := min 255 (s.sources[p].cleanRun + 1)
        stale := some s.sources[p].params.staleLimit }) rest
  case clean =>
    refine ⟨(s.completing p k n b (bandFails b f.width)).publish p k, ?_, completing_publish hk⟩
    rw [exec_bandCell_inSync hl hc, assemble_completes hs ha hf h1 hi hlast hh, hm, hfail]
    rfl
  case errored =>
    have hor : (m || bandFails b f.width) = true := by simpa using h
    rw [exec_bandCell_inSync hl hc, assemble_completes hs ha hf h1 hi hlast hh, if_pos hor]
    unfold State.completing State.abandon State.modSlot State.withPort State.withSlot
    simp only [put_put]
    rfl

end Sys2Proof.Machine
end

section
/-! PROOFS. Stale expiries (R26, R27), SET SOURCE and REQUALIFY (R20, R21, R30, R31). -/

namespace Sys2Proof.Machine

/-- Settles O11: an expiry restarts the timer and is a miss (`takeMiss_qualified`, `takeMiss_suspect`). -/
theorem staleExpiriesAreMisses : Obligations.StaleExpiriesAreMisses := by
  intro s i x
  have expires (h : x.stale ≠ none) : exec (.staleTimerExpiry i) s =
      .next ((s.withSource i { x with stale := some x.params.staleLimit }).takeMiss i) := by
    rw [exec_staleTimerExpiry, if_pos (Option.isSome_iff_ne_none.2 h)]
    rfl
  have suspect (h : x.state = .suspect) := takeMiss_suspect
    (s := s.withSource i { x with stale := some x.params.staleLimit }) (i := i) (by rw [withSource_get]; exact h)
  rw [withSource_get] at suspect
  simp only [withSource_withSource] at suspect
  refine ⟨fun h => ?_, fun h hq => ⟨_, expires h, ?_⟩, fun h hs hm => ?_, fun h hs hm => ?_⟩
  · rw [exec_staleTimerExpiry, if_neg (by rw [h]; nofun)]
  · have missed := takeMiss_qualified (s := s.withSource i { x with stale := some x.params.staleLimit }) (i := i)
      (by rw [withSource_get]; exact hq)
    rw [withSource_get, withSource_withSource] at missed
    exact missed
  · rw [expires h, suspect hs, if_neg (Nat.not_le.2 hm)]
  · obtain ⟨w, raised, same⟩ := failSource_raises s i
      { x with stale := some x.params.staleLimit, missRun := x.missRun + 1, cleanRun := 0 }
    refine ⟨w, ?_, same⟩
    rw [expires h, suspect hs, if_pos hm, raised]

/-! ### After the reply -/

/-- A change that follows the reply. -/
theorem AnsweredWith.after {n : Nat} {s t u : State} {p : Fin 16} {r : Request} {status : ReplyStatus} {result : List Byte}
    (h : AnsweredWith n s t u p r status result) (f : State → State) (hf : ∀ (v : State) (q : Fin 16) (ps : Vector Port 16),
      f { v with served := q, ports := ps } = { f v with served := q, ports := ps }) :
    AnsweredWith n s (f t) (f u) p r status result := by
  unfold AnsweredWith at h ⊢
  rw [← hf u p]
  refine h.with f fun v ps => (hf v v.served ps).trans ?_
  have served : (f v).served = v.served := (congrArg State.served (hf v v.served v.ports) :)
  rw [← served]

/-- What stands on the part's own side of an answer's reply is the port of the request. -/
theorem AnsweredWith.port {n : Nat} {s t u : State} {p : Fin 16} {r : Request} {status : ReplyStatus} {result : List Byte}
    (h : AnsweredWith n s t u p r status result) (q : Fin 16) :
    t.ports[q].link = s.ports[q].link ∧ t.ports[q].assembly = s.ports[q].assembly := by
  have link := h.port_link q
  have assembly := h.port_assembly q
  dsimp only at link assembly
  rw [put_get] at link assembly
  rw [link, assembly]
  split
  · next e =>
    subst e
    exact ⟨rfl, rfl⟩
  · exact ⟨rfl, rfl⟩

/-- Changes of entries that commute, at two places. -/
theorem put_put_comm {α : Type} {n : Nat} (v : Vector α n) (i p : Fin n) (f g : α → α) (h : ∀ x, f (g x) = g (f x)) :
    put (put v p (f v[p])) i (g (put v p (f v[p]))[i]) = put (put v i (g v[i])) p (f (put v i (g v[i]))[p]) := by
  refine table_ext fun q => ?_
  simp only [put_get]
  by_cases hi : i = q <;> by_cases hp : p = q
  · subst hi hp
    simp [h]
  · simp [hi, hp]
  · simp [hi, hp]
  · simp [hi, hp]

/-! ### SET SOURCE -/

section
variable {s : State} {p : Fin 16} {r : Request}

/-- R31: SET SOURCE in range replaces the parameters; what follows the reply is the change of the enable. -/
theorem setSourceBody_done {ps : List Byte} (p : Fin 16) (h : sourceBad (splitFields sourceWidths ps) = none)
    (hb : s.saving = false) :
    let f := splitFields sourceWidths ps
    let i := Fin.ofNat 16 (fld f 0)
    setSourceBody p ps s = ⟨s.modSource i fun x => { x with params := paramsOf f }, .done [], fun t =>
      if s.sources[i].params.enable && !(paramsOf f).enable then t.disableSource i
      else if !s.sources[i].params.enable && (paramsOf f).enable then t.enableSource i else t⟩ := by
  simp only [setSourceBody, h, hb, Bool.false_eq_true, if_false]

/-- R31: the answer to a SET SOURCE in range, before the change of the enable is made. -/
theorem serve_setSource (hs : s.Serves 1 p r) (hb : s.saving = false) (h : sourceBad (splitFields sourceWidths r.params) = none) :
    let f := splitFields sourceWidths r.params
    let i := Fin.ofNat 16 (fld f 0)
    let x := s.sources[i]
    ∃ t : State, AnsweredWith s.wallFault s t (s.withSource i { x with params := paramsOf f }) p r .done [] ∧
      s.serve 1 setSourceBody = if x.params.enable && !(paramsOf f).enable then t.disableSource i
        else if !x.params.enable && (paramsOf f).enable then t.enableSource i else t := by
  intro f i x
  have fault : ((s.beginService p).modSource i fun x => { x with params := paramsOf f }).wallFault = s.wallFault :=
    (modSource_wallFault _ i (fun x => { x with params := paramsOf f }) fun _ => rfl).trans (beginService_wallFault p s)
  refine ⟨((s.beginService p).modSource i fun x => { x with params := paramsOf f }).reply p r .done [], ?_, ?_⟩
  · rw [← fault]
    exact answeredWith_of_reply (begun_same (State.modSource i fun x => { x with params := paramsOf f }) (fun _ _ _ => rfl) p s)
  · rw [serve_of hs, setSourceBody_done p h ((beginService_saving p s).trans hb), beginService_sources]
    rfl

/-- R20: a source is disabled: its picture in progress is abandoned and its READY slot retired. -/
theorem disableSource_same (s : State) (i : Fin 16) :
    SameButMarks (s.disableSource i) { (s.withSource i { s.sources[i] with state := .disabled, stale := none }).withPort i
      { s.ports[i] with assembly := .idle, reference := none } with slots := (s.disableSource i).slots } ∧
    ∀ k : Fin 64, (s.disableSource i).slots[k] =
      if (s.abandoned s.ports[i].assembly).readySlot i = some k then (s.abandoned s.ports[i].assembly).slots[k].retired
      else (s.abandoned s.ports[i].assembly).slots[k] := by
  have retired : { (s.dropAssembly i).retire i with slots := (s.dropAssembly i).slots } = s.dropAssembly i :=
    retire_rest i (s.dropAssembly i)
  have sources : ((s.dropAssembly i).retire i).sources = s.sources := by simp
  have same : SameButMarks (s.disableSource i)
      (((s.dropAssembly i).retire i).withSource i { s.sources[i] with state := .disabled, stale := none }) := by
    unfold State.disableSource
    rw [modSource_eq, sources]
    exact setSourceState_withSource ..
  have dropped : { s.dropAssembly i with slots := s.slots } =
      s.withPort i { s.ports[i] with assembly := .idle, reference := none } := by
    rw [dropAssembly_eq]
    exact congrArg (fun u : State => u.withPort i { s.ports[i] with assembly := .idle, reference := none })
      (abandoned_rest s s.ports[i].assembly)
  have slots : (s.dropAssembly i).slots = (s.abandoned s.ports[i].assembly).slots := by rw [dropAssembly_eq]; rfl
  refine ⟨?_, fun k => ?_⟩
  · rw [same.slots]
    refine same.trans (.of_eq ?_)
    exact (congrArg (fun u : State => { u.withSource i { s.sources[i] with state := .disabled, stale := none } with
      slots := ((s.dropAssembly i).retire i).slots }) retired).trans
      (congrArg (fun u : State => { u.withSource i { s.sources[i] with state := .disabled, stale := none } with
        slots := ((s.dropAssembly i).retire i).slots }) dropped)
  · rw [same.slots, ← slots, ← readySlot_congr i slots]
    exact retire_retired i (s.dropAssembly i) k

/-- R21: a source is enabled. -/
theorem enableSource_same (s : State) (i : Fin 16) : SameButMarks (s.enableSource i) (s.withSource i
    (if s.ports[i].link = .inSync then s.sources[i].acquiringFrom else { s.sources[i] with state := .down })) := by
  unfold State.enableSource
  split
  · exact enterAcquiring_same i s
  · exact setSourceState_same i .down s

end

/-- The slots that an abandonment leaves are read from the slots before it. -/
theorem abandoned_slots_congr {s t : State} (a : Assembly) (h : t.slots = s.slots) :
    (t.abandoned a).slots = (s.abandoned a).slots := by
  unfold State.abandoned
  cases a
  case assembling k _ _ _ _ => exact congrArg (fun v => put v k Slot.empty) h
  all_goals exact h

section
variable {s t : State} {p i : Fin 16} {r : Request} {x : Source} {n : Nat}

/-- R21, R31: the enable that follows the reply. -/
theorem AnsweredWith.enables (h : AnsweredWith n s t (s.withSource i x) p r .done []) :
    AnsweredWith n s (t.enableSource i)
      (s.withSource i (if s.ports[i].link = .inSync then x.acquiringFrom else { x with state := .down })) p r .done [] := by
  have source : t.sources[i] = x := by
    rw [h.sources]
    exact put_same ..
  have enabled := enableSource_same t i
  rw [(h.port i).1, source] at enabled
  have written := h.after (fun v => v.withSource i
    (if s.ports[i].link = .inSync then x.acquiringFrom else { x with state := .down })) fun _ _ _ => rfl
  rw [withSource_withSource] at written
  exact enabled.trans written

/-- R14, R15: the port of a request and the port whose assembler has been dropped. -/
theorem answered_dropped (s : State) (p i : Fin 16) (cell : List Byte) :
    let drop (y : Port) : Port := { y with assembly := .idle, reference := none }
    let answered := put s.ports p (s.ports[p].answered cell)
    put answered i (drop answered[i]) = put (put s.ports i (drop s.ports[i])) p
      ((put s.ports i (drop s.ports[i]))[p].answered cell) :=
  put_put_comm s.ports i p (fun y => y.answered cell) (fun y => { y with assembly := .idle, reference := none }) fun _ => rfl

/-- R20, R31: the disable that follows the reply. -/
theorem AnsweredWith.disables (h : AnsweredWith n s t (s.withSource i x) p r .done []) :
    AnsweredWith n (s.withPort i { s.ports[i] with assembly := .idle, reference := none }) (t.disableSource i)
      { s.withSource i { x with state := .disabled, stale := none } with slots := (t.disableSource i).slots } p r .done [] := by
  have source : t.sources[i] = x := by
    rw [h.sources]
    exact put_same ..
  obtain ⟨same, -⟩ := disableSource_same t i
  rw [source] at same
  generalize (t.disableSource i).slots = slots at same ⊢
  have dropped : SameButMarks (t.modPort i fun y => { y with assembly := .idle, reference := none }) _ :=
    SameButMarks.modPort h i _ (fun y => { y with assembly := .idle, reference := none })
      (congrArg (fun y : Port => { y with assembly := .idle, reference := none }) (SameButMarks.port h i) :)
  have written := dropped.with (fun v => { v.withSource i { x with state := .disabled, stale := none } with slots := slots })
    fun _ _ => rfl
  refine same.trans (written.trans (.of_eq ?_))
  unfold State.modPort State.withSource State.withPort
  dsimp only
  rw [answered_dropped, put_put]

/-- R20, R42: the slots after the disable that follows the reply. -/
theorem AnsweredWith.disables_slots (h : AnsweredWith n s t (s.withSource i x) p r .done []) (k : Fin 64) :
    (t.disableSource i).slots[k] =
      if (s.abandoned s.ports[i].assembly).readySlot i = some k then (s.abandoned s.ports[i].assembly).slots[k].retired
      else (s.abandoned s.ports[i].assembly).slots[k] := by
  obtain ⟨-, slots⟩ := disableSource_same t i
  have slotsKept : t.slots = s.slots := (SameButMarks.slots h :)
  have abandoned := abandoned_slots_congr s.ports[i].assembly slotsKept
  rw [slots, (h.port i).2, abandoned, readySlot_congr i abandoned]

end

/-- R30: REQUALIFY's effect. -/
theorem requalify_same (s : State) (i : Fin 16) : SameButMarks (s.requalify i)
    (if s.sources[i].state = .disabled ∨ s.sources[i].state = .down then s else s.withSource i s.sources[i].acquiringFrom) := by
  unfold State.requalify
  split
  · next h => rw [if_pos (.inl h)]; exact .refl s
  · next h => rw [if_pos (.inr h)]; exact .refl s
  all_goals
    next h =>
      rw [if_neg (by rw [h]; simp)]
      exact enterAcquiring_same i s

/-- R30: a source number above 15. -/
theorem requalifyBody_outOfRange {ps : List Byte} (p : Fin 16) (s : State) (h : 15 < (byteAt ps 0).toNat) :
    requalifyBody p ps s = unchanged s (outOfRange 0) := by
  unfold requalifyBody requalifyFields
  rw [splitFields_one, fld_cons_zero, if_pos h]
  rfl

/-- R30: a source of the part. -/
theorem requalifyBody_done {ps : List Byte} (p : Fin 16) (s : State) (h : (byteAt ps 0).toNat ≤ 15) :
    requalifyBody p ps s = ⟨s.requalify (Fin.ofNat 16 (byteAt ps 0).toNat), .done [], id⟩ := by
  unfold requalifyBody requalifyFields
  rw [splitFields_one, fld_cons_zero, if_neg (Nat.not_lt.2 h)]

/-- R30: the answer to a REQUALIFY of a source of the part. -/
theorem serve_requalify {s : State} {p : Fin 16} {r : Request} (hs : s.Serves 2 p r) (h : (byteAt r.params 0).toNat ≤ 15) :
    let i := Fin.ofNat 16 (byteAt r.params 0).toNat
    AnsweredAs s (s.serve 2 requalifyBody)
      (if s.sources[i].state = .disabled ∨ s.sources[i].state = .down then s else s.withSource i s.sources[i].acquiringFrom)
      p r .done [] := by
  intro i
  refine serve_done _ hs (requalifyBody_done p _ h) ((requalify_same (s.beginService p) i).trans (.of_eq ?_))
  rw [beginService_sources]
  split <;> rfl

/-- Settles O12: SET SOURCE by the change of the enable, REQUALIFY by the source's number and state. -/
theorem sourceRequestsSetTheSource : Obligations.SourceRequestsSetTheSource := by
  refine ⟨fun s p r hs hb => ?_, fun s p r hs => ⟨fun hn hd hw => ⟨_, exec_requalify s, ?acquiring⟩,
    fun hn h => ⟨_, exec_requalify s, ?kept⟩, fun hn => ⟨_, exec_requalify s, ?outOfRange⟩⟩⟩
  · intro f h i x
    obtain ⟨t, answered, served⟩ := serve_setSource hs hb h
    rw [exec_setSource, served]
    refine ⟨fun he => ⟨_, rfl, ?_⟩, fun he hn => ⟨_, rfl, ?_⟩, fun he hn => ⟨_, rfl, ?_⟩⟩
    · rw [show s.sources[Fin.ofNat 16 (fld f 0)].params.enable = (paramsOf f).enable from he, Bool.and_not_self, Bool.not_and_self]
      exact answered
    · rw [show s.sources[Fin.ofNat 16 (fld f 0)].params.enable = false from he, hn]
      exact answered.enables
    · rw [show s.sources[Fin.ofNat 16 (fld f 0)].params.enable = true from he, hn]
      exact ⟨answered.disables, answered.disables_slots⟩
  case acquiring =>
    have answered := serve_requalify hs hn
    dsimp only at answered
    rwa [if_neg (not_or.2 ⟨hd, hw⟩)] at answered
  case kept =>
    have answered := serve_requalify hs hn
    dsimp only at answered
    rwa [if_pos h] at answered
  case outOfRange => exact serve_refused hs (by decide) (requalifyBody_outOfRange p _ hn)

end Sys2Proof.Machine
end

section
/-! PROOFS. CAPTURE and RELEASE STILL (R46, R47). -/

namespace Sys2Proof.Machine

section
variable {s : State}

/-- R46: a repin changes the stills and the slots. -/
theorem repin_rest (s : State) (k : Fin 4) (slot : Fin 64) :
    s.repin k slot = { s with stills := put s.stills k (some slot), slots := (s.repin k slot).slots } := by
  have rest := releaseOpt_rest s.stills[k] s
  unfold State.repin State.latch State.modSlot
  dsimp only
  generalize s.releaseOpt s.stills[k] = t at rest ⊢
  rw [← rest]

/-- R44: a slot that is latched. -/
theorem latch_slots (s : State) (k : Fin 64) : (s.latch k).slots = put s.slots k { s.slots[k] with holds := s.slots[k].holds + 1 } :=
  rfl

/-- R46: the slots when the still pinned nothing. -/
theorem repin_slots_none {k : Fin 4} {slot : Fin 64} (h : s.stills[k] = none) :
    (s.repin k slot).slots = put s.slots slot { s.slots[slot] with holds := s.slots[slot].holds + 1 } := by
  unfold State.repin
  rw [h]
  rfl

/-- R46: the slots when the still pinned a slot, which is released before the new one is pinned. -/
theorem repin_slots_some {k : Fin 4} {slot old : Fin 64} (h : s.stills[k] = some old) (j : Fin 64) :
    (s.repin k slot).slots[j] = if slot = j then { (s.release old).slots[slot] with holds := (s.release old).slots[slot].holds + 1 }
      else (s.release old).slots[j] := by
  unfold State.repin
  rw [h]
  exact put_get ..

/-- R45: the slots that a release leaves. -/
theorem release_slots (s : State) (k j : Fin 64) : (s.release k).slots[j] = if k = j then
    (if s.slots[k].state = .retired ∧ s.slots[k].holds ≤ 1 then Slot.empty
      else { s.slots[k] with holds := s.slots[k].holds - 1 }) else s.slots[j] := by
  rw [release_eq]
  exact put_get ..

/-- R46: a slot that is pinned again where it was pinned. -/
theorem repin_slots_same {k : Fin 4} {slot : Fin 64} (h : s.stills[k] = some slot) (hr : s.slots[slot].state = .ready)
    (hh : 1 ≤ s.slots[slot].holds) : (s.repin k slot).slots = s.slots := by
  refine table_ext fun j => ?_
  rw [repin_slots_some h]
  by_cases e : slot = j
  · subst e
    rw [if_pos rfl, release_slot, if_neg (by rw [hr]; nofun)]
    dsimp only
    rw [Nat.sub_add_cancel hh]
  · rw [if_neg e, release_slots, if_neg e]

variable {ps : List Byte}

/-- R46: the fields of CAPTURE. -/
theorem captureBody_eq (p : Fin 16) (s : State) : captureBody p ps s =
    ⟨(captureFields [(byteAt ps 0).toNat, (byteAt ps 1).toNat] s).1, (captureFields [(byteAt ps 0).toNat, (byteAt ps 1).toNat] s).2,
      id⟩ := by
  unfold captureBody
  rw [splitFields_one_one]
  rfl

/-- R46: a field out of its range. -/
theorem captureBody_outOfRange (p : Fin 16) {i : Nat}
    (h : firstBad 0 [within 0 3 (byteAt ps 0).toNat, within 0 15 (byteAt ps 1).toNat] = some i) :
    captureBody p ps s = unchanged s (outOfRange i) := by
  rw [captureBody_eq]
  unfold captureFields captureTests
  simp only [fld_cons_zero, fld_cons_succ, h, unchanged]

/-- R46: a feed that is not eligible. -/
theorem captureBody_nothing (p : Fin 16)
    (h : firstBad 0 [within 0 3 (byteAt ps 0).toNat, within 0 15 (byteAt ps 1).toNat] = none)
    (he : s.eligible (Fin.ofNat 16 (byteAt ps 1).toNat) = false) :
    captureBody p ps s = unchanged s (.refused .nothingToCapture none) := by
  rw [captureBody_eq]
  unfold captureFields captureTests
  simp only [fld_cons_zero, fld_cons_succ, h, he, Bool.false_eq_true, if_false, unchanged]

/-- R46: the READY slot of an eligible feed is pinned. -/
theorem captureBody_done (p : Fin 16) {slot : Fin 64}
    (h : firstBad 0 [within 0 3 (byteAt ps 0).toNat, within 0 15 (byteAt ps 1).toNat] = none)
    (he : s.eligible (Fin.ofNat 16 (byteAt ps 1).toNat) = true)
    (hr : s.readySlot (Fin.ofNat 16 (byteAt ps 1).toNat) = some slot) :
    captureBody p ps s = ⟨s.repin (Fin.ofNat 4 (byteAt ps 0).toNat) slot,
      .done (captureResult slot (Fin.ofNat 16 (byteAt ps 1).toNat) s), id⟩ := by
  rw [captureBody_eq]
  unfold captureFields captureTests
  simp only [fld_cons_zero, fld_cons_succ, h, he, hr, if_true]

/-- R47: the field of RELEASE STILL. -/
theorem releaseStillBody_eq (p : Fin 16) (s : State) : releaseStillBody p ps s =
    ⟨(releaseStillFields [(byteAt ps 0).toNat] s).1, (releaseStillFields [(byteAt ps 0).toNat] s).2, id⟩ := by
  unfold releaseStillBody
  rw [splitFields_one]
  rfl

/-- R47: a still number above 3. -/
theorem releaseStillBody_outOfRange (p : Fin 16) (h : 3 < (byteAt ps 0).toNat) :
    releaseStillBody p ps s = unchanged s (outOfRange 0) := by
  rw [releaseStillBody_eq]
  unfold releaseStillFields
  simp only [fld_cons_zero, h, if_true, unchanged]

/-- R47: a still that pins nothing. -/
theorem releaseStillBody_empty (p : Fin 16) (h : (byteAt ps 0).toNat ≤ 3)
    (hk : s.stills[(Fin.ofNat 4 (byteAt ps 0).toNat : Fin 4)] = none) :
    releaseStillBody p ps s = unchanged s (.refused .stillNotPinned none) := by
  rw [releaseStillBody_eq]
  unfold releaseStillFields
  simp only [fld_cons_zero, Nat.not_lt.2 h, if_false, hk, unchanged]

/-- R47: a still that pins a slot. -/
theorem releaseStillBody_done (p : Fin 16) {slot : Fin 64} (h : (byteAt ps 0).toNat ≤ 3)
    (hk : s.stills[(Fin.ofNat 4 (byteAt ps 0).toNat : Fin 4)] = some slot) :
    releaseStillBody p ps s = ⟨s.unpin (Fin.ofNat 4 (byteAt ps 0).toNat) slot, .done [], id⟩ := by
  rw [releaseStillBody_eq]
  unfold releaseStillFields
  simp only [fld_cons_zero, Nat.not_lt.2 h, if_false, hk]

end

section
variable {s : State} {p : Fin 16} {r : Request}

/-- R46: the answer to a CAPTURE of an eligible feed. -/
theorem serve_capture {slot : Fin 64} (hs : s.Serves 4 p r) (hn : (byteAt r.params 0).toNat ≤ 3)
    (hi : (byteAt r.params 1).toNat ≤ 15) (he : s.eligible (Fin.ofNat 16 (byteAt r.params 1).toNat) = true)
    (hr : s.readySlot (Fin.ofNat 16 (byteAt r.params 1).toNat) = some slot) :
    AnsweredAs s (s.serve 4 captureBody) (s.repin (Fin.ofNat 4 (byteAt r.params 0).toNat) slot) p r .done
      (captureResult slot (Fin.ofNat 16 (byteAt r.params 1).toNat) s) := by
  have hbody := captureBody_done p (firstBad_pair_none (within_upto hn) (within_upto hi))
    ((beginService_eligible p s _).trans he) ((beginService_readySlot p s _).trans hr)
  refine serve_changed (State.repin _ slot) hs hbody fun v q ps => ?_
  unfold State.repin
  dsimp only
  cases v.stills[(Fin.ofNat 4 (byteAt r.params 0).toNat : Fin 4)] <;> rfl

end

/-- Settles O14: the two owning blocks by their fields, and the slots of a repin by what the still pinned. -/
theorem stillsPinAndRelease : Obligations.StillsPinAndRelease := by
  refine ⟨fun s p r hs => ⟨fun hn hi slot he hr => ⟨_, exec_capture s, ?capture⟩, fun hn hi he => ⟨_, exec_capture s, ?nothing⟩,
    fun hn => ⟨_, exec_capture s, ?still⟩, fun hn hi => ⟨_, exec_capture s, ?source⟩⟩,
    fun s p r hs => ⟨fun hn => ⟨_, exec_releaseStill s, ?number⟩, fun hn hk => ⟨_, exec_releaseStill s, ?empty⟩,
      fun hn slot hk => ⟨_, exec_releaseStill s, ?release⟩⟩⟩
  case capture =>
    have answered := serve_capture hs hn hi he hr
    have slots : (s.serve 4 captureBody).slots = _ := (SameButMarks.slots answered :)
    rw [slots]
    refine ⟨?_, fun hk => repin_slots_none hk, fun old hk hne => ⟨?_, ?_, fun j hj hj' => ?_⟩, fun hk hh => ?_⟩
    · rw [repin_rest] at answered
      exact answered
    · rw [repin_slots_some hk, if_pos rfl, release_slots, if_neg hne]
    · rw [repin_slots_some hk, if_neg hne.symm, release_slot]
    · rw [repin_slots_some hk, if_neg hj'.symm, release_slots, if_neg hj.symm]
    · exact repin_slots_same hk (readySlot_some hr).1 hh
  case nothing =>
    exact serve_refused hs (by decide) (captureBody_nothing p (firstBad_pair_none (within_upto hn) (within_upto hi))
      ((beginService_eligible p s _).trans he))
  case still => exact serve_refused hs (by decide) (captureBody_outOfRange p (firstBad_pair_first (within_above hn)))
  case source =>
    exact serve_refused hs (by decide) (captureBody_outOfRange p (firstBad_pair_second (within_upto hn) (within_above hi)))
  case number => exact serve_refused hs (by decide) (releaseStillBody_outOfRange p hn)
  case empty => exact serve_refused hs (by decide) (releaseStillBody_empty p hn (by rw [beginService_stills]; exact hk))
  case release =>
    have hbody := releaseStillBody_done p hn (s := s.beginService p) (by rw [beginService_stills]; exact hk)
    exact serve_changed (State.unpin _ slot) hs hbody fun _ _ _ => rfl

end Sys2Proof.Machine
end

section
/-! PROOFS. LOAD LAYOUT (R60, R66) and the records that it accepts (R61 to R65). -/

namespace Sys2Proof.Machine

section
variable {ps : List Byte} {s : State}

/-- R60: an entry number above 127. -/
theorem loadLayoutBody_outOfRange (p : Fin 16) (h : 127 < (byteAt ps 0).toNat) :
    loadLayoutBody p ps s = unchanged s (outOfRange 0) := if_pos h

/-- R60, R66: an entry that a save or a load holds. -/
theorem loadLayoutBody_busy (p : Fin 16) (h : (byteAt ps 0).toNat ≤ 127)
    (hb : s.entryBusy (Fin.ofNat 128 (byteAt ps 0).toNat) = true) : loadLayoutBody p ps s = unchanged s .busy :=
  (if_neg (Nat.not_lt.2 h)).trans (if_pos hb)

/-- R61 to R65: a record that fails a check. -/
theorem loadLayoutBody_bad (p : Fin 16) {c : Code} {d : Nat} (h : (byteAt ps 0).toNat ≤ 127)
    (hb : s.entryBusy (Fin.ofNat 128 (byteAt ps 0).toNat) = false) (hr : recordBad (ps.drop 1) = some (c, d)) :
    loadLayoutBody p ps s = unchanged s (.refused c (some d)) := by
  unfold loadLayoutBody
  simp only [if_neg (Nat.not_lt.2 h), hb, Bool.false_eq_true, if_false, hr]

/-- R60: a record that passes is stored. -/
theorem loadLayoutBody_done (p : Fin 16) (h : (byteAt ps 0).toNat ≤ 127)
    (hb : s.entryBusy (Fin.ofNat 128 (byteAt ps 0).toNat) = false) (hr : recordBad (ps.drop 1) = none) :
    loadLayoutBody p ps s = ⟨s.setEntry (Fin.ofNat 128 (byteAt ps 0).toNat) (some (layoutOf (ps.drop 1))),
      .done (byte1 (byteAt ps 0).toNat ++ byte2 (layoutOf (ps.drop 1)).check ++
        flag s.library[Fin.ofNat 128 (byteAt ps 0).toNat].isSome), id⟩ := by
  unfold loadLayoutBody
  simp only [if_neg (Nat.not_lt.2 h), hb, Bool.false_eq_true, if_false, hr]

end

/-- Settles O15: one lemma for each outcome of the owning block. -/
theorem loadLayoutStoresTheRecord : Obligations.LoadLayoutStoresTheRecord := by
  intro s p r hs n e record
  have busy := beginService_entryBusy p s e
  refine ⟨fun hn => ⟨_, exec_loadLayout s, ?outOfRange⟩, fun hn hb => ⟨_, exec_loadLayout s, ?busy⟩,
    fun hn hb c d hr => ⟨_, exec_loadLayout s, ?bad⟩, fun hn hb hr => ⟨_, exec_loadLayout s, ?done⟩⟩
  case outOfRange => exact serve_refused hs (by decide) (loadLayoutBody_outOfRange p hn)
  case busy => exact serve_busy hs (loadLayoutBody_busy p hn (busy.trans hb))
  case bad => exact serve_refused hs (by decide) (loadLayoutBody_bad p hn (busy.trans hb) hr)
  case done =>
    have hbody := loadLayoutBody_done p hn (busy.trans hb) hr
    rw [beginService_library] at hbody
    exact serve_done _ hs hbody (setEntry_beginService_same p e _ s)

/-! ### Accepted records -/

/-- R61 to R65: a record is accepted when each of its six checks passes. -/
theorem recordBad_none {bs : List Byte} (h : recordBad bs = none) :
    (∀ t ∈ recordTests (rawLayout bs), t = true) ∧ listBad 0 none [] (rawLayout bs).windows = none ∧
      rectangleBad 0 (rawLayout bs).windows = none ∧ rawArea (rawLayout bs).windows ≤ Config.areaBudget ∧
      marksBad 0 (rawLayout bs).windows = none := by
  unfold recordBad at h
  dsimp only at h
  split at h
  · cases h
  · split at h
    · cases h
    · next tests =>
      split at h
      · cases h
      · next list =>
        split at h
        · cases h
        · next rectangles =>
          split at h
          · cases h
          · next area =>
            exact ⟨firstBad_eq_none.1 tests, list, rectangles, Nat.not_lt.1 area, Option.map_eq_none_iff.1 h⟩

/-- R63: the numbers ascend from the one before, and no layer is one already used or used twice. -/
theorem listBad_none {i : Nat} {before : Option Nat} {layers : List Nat} {ws : List (List Byte)}
    (h : listBad i before layers ws = none) :
    (∀ w ∈ ws, (∀ b, before = some b → b < wfld w 0) ∧ wfld w 6 ∉ layers) ∧
      ws.Pairwise fun v w => wfld v 0 < wfld w 0 ∧ wfld v 6 ≠ wfld w 6 := by
  induction ws generalizing i before layers with
  | nil => exact ⟨nofun, .nil⟩
  | cons w ws ih =>
    unfold listBad at h
    split at h
    · cases h
    · next number =>
      split at h
      · cases h
      · next layer =>
        obtain ⟨later, pairs⟩ := ih h
        have above (b : Nat) (hb : before = some b) : b < wfld w 0 := by
          rw [hb] at number
          simpa using number
        refine ⟨fun v hv => ?_, List.pairwise_cons.2 ⟨fun v hv => ?_, pairs⟩⟩
        · obtain rfl | hv := List.mem_cons.1 hv
          · exact ⟨above, by simpa using layer⟩
          · obtain ⟨number', layer'⟩ := later v hv
            exact ⟨fun b hb => (above b hb).trans (number' _ rfl), fun hm => layer' (List.mem_cons_of_mem _ hm)⟩
        · obtain ⟨number', layer'⟩ := later v hv
          exact ⟨number' _ rfl, fun e => layer' (e ▸ List.mem_cons_self)⟩

/-- R64: every rectangle lies inside the full size. -/
theorem rectangleBad_none {i : Nat} {ws : List (List Byte)} (h : rectangleBad i ws = none) :
    ∀ w ∈ ws, wfld w 2 + wfld w 4 ≤ 68 ∧ wfld w 3 + wfld w 5 ≤ 240 := by
  induction ws generalizing i with
  | nil => nofun
  | cons w ws ih =>
    unfold rectangleBad at h
    split at h
    · cases h
    · next height =>
      split at h
      · cases h
      · next width => exact List.forall_mem_cons.2 ⟨⟨Nat.not_lt.1 height, Nat.not_lt.1 width⟩, ih h⟩

/-- R65: the presence marks of every window agree. -/
theorem marksBad_none {i : Nat} {ws : List (List Byte)} (h : marksBad i ws = none) :
    ∀ w ∈ ws, ¬ (wfld w 9 = 1 ∧ wfld w 7 = 0) ∧ (wfld w 12 = 2 ↔ wfld w 14 = 1) := by
  induction ws generalizing i with
  | nil => nofun
  | cons w ws ih =>
    unfold marksBad at h
    split at h
    · cases h
    · next pulse =>
      split at h
      · cases h
      · next backup =>
        have agree : (wfld w 12 == 2) = (wfld w 14 == 1) := by simpa using backup
        exact List.forall_mem_cons.2 ⟨⟨pulse, by simpa using agree⟩, ih h⟩

/-- R57, R65: a window whose marks are in range and agree. -/
theorem windowOf_marks {w : List Byte} (ht : ∀ t ∈ windowTests w, t = true) (hp : ¬ (wfld w 9 = 1 ∧ wfld w 7 = 0))
    (hb : wfld w 12 = 2 ↔ wfld w 14 = 1) :
    ((windowOf w).pulse ≠ none → (windowOf w).border ≠ none) ∧
      ((windowOf w).fallback = .backup ↔ (windowOf w).backup ≠ none) := by
  have border : wfld w 7 ≤ 1 := (within_eq_true.1 (ht (within 0 1 (wfld w 7)) (by simp [windowTests]))).2
  have fallback : wfld w 12 ≤ 2 := (within_eq_true.1 (ht (within 0 2 (wfld w 12)) (by simp [windowTests]))).2
  constructor
  · intro h
    have pulse : wfld w 9 = 1 := by_contra fun k => h (if_neg k)
    rw [windowOf, if_pos (by omega)]
    nofun
  · have marked : (windowOf w).backup ≠ none ↔ wfld w 14 = 1 := by
      unfold windowOf
      dsimp only
      split <;> simp_all
    rw [marked, ← hb]
    unfold windowOf
    dsimp only
    split
    · simp; omega
    · split
      · simp; omega
      · simp; omega

/-- Settles O16: each conjunct is one of the six checks, read on the windows. -/
theorem acceptedRecordsAreSound : Obligations.AcceptedRecordsAreSound := by
  intro bs h
  obtain ⟨tests, list, rectangles, area, marks⟩ := recordBad_none h
  have windows : (layoutOf bs).windows = (rawLayout bs).windows.map windowOf := rfl
  have count : (rawLayout bs).windows.length = (rawLayout bs).count := chunks_length ..
  have range := within_eq_true.1 (tests (within 1 4 (rawLayout bs).count) (by simp [recordTests]))
  dsimp only
  rw [windows]
  refine ⟨?_, ?_, ?_, fun w hw => ?_, ?_⟩
  · rw [List.length_map, count]
    exact range.1
  · rw [List.length_map, count]
    exact range.2
  · exact List.pairwise_map.2 (listBad_none list).2
  · obtain ⟨v, hv, rfl⟩ := List.mem_map.1 hw
    obtain ⟨height, width⟩ := rectangleBad_none rectangles v hv
    obtain ⟨pulse, backup⟩ := marksBad_none marks v hv
    have inRange (t : Bool) (ht : t ∈ windowTests v) : t = true :=
      tests t (List.mem_append_right _ (List.mem_flatMap.2 ⟨v, hv, ht⟩))
    obtain ⟨bordered, backed⟩ := windowOf_marks inRange pulse backup
    exact ⟨height, width, bordered, backed⟩
  · refine le_of_eq_of_le ?_ area
    rw [List.map_map]
    rfl

end Sys2Proof.Machine
end

section
/-! PROOFS. The delivery of a generator's ticks (R71, R133). -/

namespace Sys2Proof.Machine

/-- R133: a runner that counts the ticks of the generator. -/
theorem Runner.deliver_counts {x : Runner} {k : Cadence} {n : Nat} (h : x.state = .waiting (.pictures k n false)) :
    x.deliver k = { x with state := .waiting (if n ≤ 1 then .pictures k n true else .pictures k (n - 1) false) } := by
  unfold Runner.deliver
  rw [h]
  dsimp only
  rw [if_pos ⟨rfl, rfl⟩]
  split <;> rfl

/-- R133: any other runner. -/
theorem Runner.deliver_other {x : Runner} {k : Cadence} (h : ∀ n : Nat, x.state ≠ .waiting (.pictures k n false)) :
    x.deliver k = x := by
  unfold Runner.deliver
  split
  · next j n due hs =>
    rw [if_neg]
    rintro ⟨rfl, hd⟩
    obtain rfl : due = false := by simpa using hd
    exact h n hs
  · rfl

/-- Settles O18: the delivery, screen by screen and runner by runner. -/
theorem cadenceTicksAreDelivered : Obligations.CadenceTicksAreDelivered := by
  intro s k
  refine ⟨s.deliverTick k, exec_cadenceTick s k, fun c => ?_, fun r n h => ?_, fun r h => ?_, ?_⟩
  all_goals unfold State.deliverTick
  · exact mapTable_get ..
  · rw [mapTable_get]
    exact Runner.deliver_counts h
  · rw [mapTable_get]
    exact Runner.deliver_other h
  · rfl

end Sys2Proof.Machine
end

section
/-! PROOFS. The resolution of a window's legs (R77 to R80, R84). -/

namespace Sys2Proof.Machine

section
variable {s : State} {w : Window} {source : Nat} {held : Option (Fin 64)}

/-- R18, R77: a feed's READY slot is its source's when the feed is eligible. -/
theorem feedSlot_eligible {i : Fin 16} (h : s.eligible i = true) : s.feedSlot i = s.readySlot i := if_pos h

/-- R18, R77: a feed that is not eligible has no slot to show. -/
theorem feedSlot_not_eligible {i : Fin 16} (h : s.eligible i = false) : s.feedSlot i = none := if_neg (by simp [h])

/-- R77: an eligible feed resolves to its READY slot. -/
theorem resolve_feed {k : Fin 64} (h : source < 16) (he : s.eligible (Fin.ofNat 16 source) = true)
    (hk : s.readySlot (Fin.ofNat 16 source) = some k) : s.resolve source = some ⟨some k, .showingSource⟩ := by
  unfold State.resolve
  rw [if_pos h, feedSlot_eligible he, hk]
  rfl

/-- R77: a still that pins a slot resolves to it. -/
theorem resolve_still {k : Fin 64} (h : 16 ≤ source) (hk : s.stills[(Fin.ofNat 4 (source - 16) : Fin 4)] = some k) :
    s.resolve source = some ⟨some k, .showingStill⟩ := by
  unfold State.resolve
  rw [if_neg (Nat.not_lt.2 h), hk]
  rfl

/-- R77, R80: a leg whose source resolves. -/
theorem planLeg_resolved {l : Leg} (h : s.resolve source = some l) : s.planLeg w source held = s.scaleLeg w l := by
  unfold State.planLeg
  rw [h]
  rfl

/-- R78: a leg whose source does not resolve falls back. -/
theorem planLeg_unresolved (h : s.resolve source = none) :
    s.planLeg w source held = s.scaleLeg w (s.fallbackLeg w held) := by
  unfold State.planLeg
  rw [h]
  rfl

/-- R78: HOLD shows the slot that the leg latches, or the slate colour. -/
theorem fallbackLeg_hold (h : w.fallback = .hold) : s.fallbackLeg w held =
    held.elim ⟨none, .slateFallback⟩ fun k => ⟨some k, .held⟩ := by
  unfold State.fallbackLeg
  rw [h]
  cases held <;> rfl

/-- R78: SLATE shows the slate colour. -/
theorem fallbackLeg_slate (h : w.fallback = .slate) : s.fallbackLeg w held = ⟨none, .slateFallback⟩ := by
  unfold State.fallbackLeg
  rw [h]

/-- R78: BACKUP shows the backup source's READY slot while it is eligible, or the slate colour. -/
theorem fallbackLeg_backup (h : w.fallback = .backup) : s.fallbackLeg w held =
    (w.backup.bind fun b => s.feedSlot (Fin.ofNat 16 b)).elim ⟨none, .slateFallback⟩ fun k => ⟨some k, .backup⟩ := by
  unfold State.fallbackLeg
  rw [h]
  dsimp only
  cases w.backup.bind fun b => s.feedSlot (Fin.ofNat 16 b) <;> rfl

/-- R77, R78, R80, R84: what a leg that is not frozen comes to. -/
theorem planLeg_shows (s : State) (w : Window) (source : Nat) (held : Option (Fin 64)) :
    LegShows s w source held (s.planLeg w source held).slot (s.planLeg w source held).status := by
  refine ⟨fun k h he hk => ?_, fun k h hk => ?_, fun h => ⟨fun k hf hk => ?_, fun hf hn => ?_, fun hf => ?_,
    fun b k hf hb he hk => ?_, fun hf hb => ?_⟩⟩
  · rw [planLeg_resolved (resolve_feed h he hk)]
    exact scaleLeg_shown rfl
  · rw [planLeg_resolved (resolve_still h hk)]
    exact scaleLeg_shown rfl
  all_goals rw [planLeg_unresolved (resolve_none h)]
  · rw [fallbackLeg_hold hf, hk]
    exact scaleLeg_shown rfl
  · rw [fallbackLeg_hold hf, hn]
    exact scaleLeg_slate rfl
  · rw [fallbackLeg_slate hf]
    exact scaleLeg_slate rfl
  · rw [fallbackLeg_backup hf, hb, Option.bind_some, feedSlot_eligible he, hk]
    exact scaleLeg_shown rfl
  · have none : (w.backup.bind fun b => s.feedSlot (Fin.ofNat 16 b)) = none :=
      Option.bind_eq_none_iff.2 fun b h => feedSlot_not_eligible (hb b h)
    rw [fallbackLeg_backup hf, none]
    exact scaleLeg_slate rfl

end

section
variable {s : State} {w : LiveWindow}

/-- R77 to R81: a window that is not frozen resolves. -/
theorem stageWindow_resolves (h : w.freeze = false) : s.stageWindow w = s.planWindow w := if_neg (by simp [h])

/-- R79: a frozen window keeps its latches. -/
theorem stageWindow_frozen (h : w.freeze = true) : s.stageWindow w = State.keepWindow w := if_pos h

/-- R79, R84: the status of a frozen leg. -/
theorem frozenStatus_eq (latch : Option (Fin 64)) (status : Option RenderStatus) :
    State.frozenStatus latch status = if latch = none then some .slateFallback else status := by
  unfold State.frozenStatus
  simp only [Option.isNone_iff_eq_none]

end

/-- Settles O20: each leg by `planLeg_shows`, a frozen one by `frozenStatus_eq`. -/
theorem legsResolveOrFallBack : Obligations.LegsResolveOrFallBack := by
  refine fun s w => ⟨fun h => ?_, fun h => ⟨fun hd => ?_, fun d hd => ?_⟩⟩
  · rw [stageWindow_resolves h]
    unfold State.planWindow
    refine ⟨_, _, planLeg_shows s w.copy w.current w.latch, fun hd => ?_, fun d hd =>
      ⟨_, _, planLeg_shows s w.copy d.source d.latch, ?_⟩⟩
    all_goals
      rw [hd]
      rfl
  all_goals
    rw [stageWindow_frozen h]
    unfold State.keepWindow
    rw [hd, frozenStatus_eq]
  · rfl
  · rw [Option.bind_some, frozenStatus_eq]

end Sys2Proof.Machine
end

section
/-! PROOFS. The tick of a screen (R71, R76, R81, R82) and the emitted picture (R85). -/

namespace Sys2Proof.Machine

section
variable {s : State} {c : Fin 24}

/-- A screen that takes a tick, before the stages: one tick fewer is due. -/
def State.ticked (s : State) (c : Fin 24) : State := s.withScreen c { s.screens[c] with ticksDue := s.screens[c].ticksDue - 1 }

/-- R71: the screen that takes the tick. -/
theorem ticked_get (s : State) (c : Fin 24) :
    (s.ticked c).screens[c] = { s.screens[c] with ticksDue := s.screens[c].ticksDue - 1 } := withScreen_get ..

/-- R71: a tick goes through the swap and then, on a screen with an active context, through the other stages. -/
theorem takeTick_eq (s : State) (c : Fin 24) : s.takeTick c = (match ((s.ticked c).swapStage c).screens[c].active with
    | none => (s.ticked c).swapStage c
    | some x => ((s.ticked c).swapStage c).composeStages c x).emitFrame c := by
  unfold State.takeTick State.ticked
  rw [setScreen_ticksDue] <;> rfl

/-- R76: a standby that is not ARMED is not swapped. -/
theorem swapStage_other (h : ∀ y : Context, s.screens[c].standby ≠ .armed y) : s.swapStage c = s := by
  unfold State.swapStage
  split
  · next y hy => exact absurd hy (h y)
  all_goals rfl

/-- R71, R85: the picture is emitted, and nothing else of the screen changes. -/
theorem emitFrame_eq (s : State) (c : Fin 24) :
    s.emitFrame c = s.withScreen c { s.screens[c] with output := some (s.frameOf c) } := setScreen_of_same rfl rfl

/-- R71: the tick of a DARK screen whose standby is not ARMED. -/
theorem takeTick_dark (ha : s.screens[c].active = none) (hb : ∀ y : Context, s.screens[c].standby ≠ .armed y) :
    s.takeTick c = s.withScreen c { s.screens[c] with
      ticksDue := s.screens[c].ticksDue - 1
      output := some ⟨s.screens[c].width, s.screens[c].height, s.palette[(0 : Fin 16)].pixel, []⟩ } := by
  have active : (s.ticked c).screens[c].active = none := by
    rw [ticked_get]
    exact ha
  have frame : (s.ticked c).frameOf c = ⟨s.screens[c].width, s.screens[c].height, s.palette[(0 : Fin 16)].pixel, []⟩ := by
    unfold State.frameOf
    dsimp only
    rw [active, ticked_get]
    rfl
  rw [takeTick_eq, swapStage_other (by rw [ticked_get]; exact hb), active]
  dsimp only
  rw [emitFrame_eq, frame, ticked_get]
  exact withScreen_withScreen ..

/-- R77 to R85: the tick of a SHOWING screen whose standby is not ARMED. -/
theorem takeTick_showing {x : Context} (ha : s.screens[c].active = some x)
    (hb : ∀ y : Context, s.screens[c].standby ≠ .armed y) : TickComposed (s.ticked c) (s.takeTick c) c x := by
  have active : (s.ticked c).screens[c].active = some x := by
    rw [ticked_get]
    exact ha
  rw [takeTick_eq, swapStage_other (by rw [ticked_get]; exact hb), active]
  exact composeStages_composed active

/-! ### The moving of holds -/

/-- R81: a leg that moves to another slot. -/
theorem moveLatch_some {old : Option (Fin 64)} {k : Fin 64} (h : old ≠ some k) :
    s.moveLatch old (some k) = (s.latch k).releaseOpt old := if_neg h

/-- R81: a leg that moves to a colour. -/
theorem moveLatch_none {old : Option (Fin 64)} (h : old ≠ none) : s.moveLatch old none = s.releaseOpt old := if_neg h

/-- R82: a window's dissolve ends when its next step is its length. -/
theorem dissolveEnds_iff {w : LiveWindow} : dissolveEnds w = true ↔ ∃ d : Dissolve, w.dissolve = some d ∧ d.step + 1 = d.length := by
  unfold dissolveEnds
  rw [Option.any_eq_true]
  simp only [decide_eq_true_iff]

/-- R82: a dissolve that ends. -/
theorem releaseEnded_ends {w : LiveWindow} (h : ∃ d : Dissolve, w.dissolve = some d ∧ d.step + 1 = d.length) :
    s.releaseEnded w = s.releaseOpt (w.dissolve.bind fun d => d.latch) := if_pos (dissolveEnds_iff.2 h)

/-- R82: no dissolve, or one that goes on. -/
theorem releaseEnded_goesOn {w : LiveWindow} (h : ∀ d : Dissolve, w.dissolve = some d → d.step + 1 ≠ d.length) :
    s.releaseEnded w = s := if_neg fun k => by
  obtain ⟨d, hd, he⟩ := dissolveEnds_iff.1 k
  exact h d hd he

/-! ### The pixels -/

/-- R85: a window's pixel within its rectangle. -/
theorem painted_shows (s : State) (w : LiveWindow) (x y : Nat) : s.ShowsPixel w x y ((s.painted w).pixel x y) := by
  refine ⟨fun b hb hl he => painted_pixel_border s hb hl ((onBorder_iff ..).2 he), fun h => ?_⟩
  have content : (s.painted w).pixel x y = (s.painted w).content x y := by
    refine painted_pixel_content s ?_
    obtain h | h | h := h
    · exact .inl h
    · obtain ⟨q, hq⟩ := not_forall.1 h
      obtain ⟨hp, hn⟩ := Classical.not_imp.1 hq
      exact .inr (.inl ⟨q, hp, Nat.not_lt.1 hn⟩)
    · exact .inr (.inr (Bool.not_eq_true _ ▸ fun k => h ((onBorder_iff ..).1 k)))
  rw [content]
  refine ⟨fun hd => painted_content_main s x y hd, fun d hd => ?_⟩
  rw [painted_content_blended s x y hd]
  exact blendPixel_blended ..

/-- R85: the frame of a screen with an active context. -/
theorem frameOf_showing {x : Context} (h : s.screens[c].active = some x) :
    s.frameOf c = ⟨s.screens[c].width, s.screens[c].height, s.colour x.background, (inLayers x.windows).map s.painted⟩ := by
  unfold State.frameOf
  dsimp only
  rw [h]

/-- R85: where no window lies, the background colour. -/
theorem frame_background {x : Context} (i j : Nat) (h : ∀ w ∈ x.windows, ¬ w.copy.Covers i j) (f : Frame)
    (hf : f.windows = (inLayers x.windows).map s.painted) : f.pixel i j = f.background := by
  unfold Frame.pixel
  rw [hf]
  refine paintOver_none _ i j _ fun v hv => ?_
  obtain ⟨w, hw, rfl⟩ := List.mem_map.1 hv
  exact Bool.not_eq_true _ ▸ fun k => h w (mem_inLayers.1 hw).1 ((painted_covers s w i j).1 k)

/-- R85: where windows lie, the one of the highest layer. -/
theorem frame_top {x : Context} {w : LiveWindow} (i j : Nat) (hw : w ∈ x.windows) (hl : w.copy.layer ≤ 3)
    (hc : w.copy.Covers i j) (ht : ∀ v ∈ x.windows, v.copy.Covers i j → v = w ∨ v.copy.layer < w.copy.layer) (f : Frame)
    (hf : f.windows = (inLayers x.windows).map s.painted) :
    f.pixel i j = (s.painted w).pixel (i - 8 * w.copy.left) (j - 16 * w.copy.top) := by
  unfold Frame.pixel
  rw [hf]
  exact paintOver_top s hc _ _ (mem_inLayers.2 ⟨hw, by omega⟩) (inLayers_sorted _)
    fun v hv => ht v (mem_inLayers.1 hv).1

end

/-- Settles O19: the tick by the screen's state, the operations on holds, and the frame by the painting of its layers. -/
theorem screensEmitAtTheirTicks : Obligations.ScreensEmitAtTheirTicks := by
  refine ⟨fun s c => ⟨fun h => ?none, fun he hd ha hb => ?dark⟩, fun s c x he hd ha hb => ⟨s.takeTick c, ?ticks, takeTick_showing ha hb⟩,
    fun s k old w v rest => ⟨rfl, release_eq k s, rfl, rfl, if_pos rfl, moveLatch_some, moveLatch_none, rfl, releaseEnded_ends,
      releaseEnded_goesOn, rfl, rfl⟩,
    fun s c x i j ha => ?frame, fun a => components ..⟩
  case none =>
    rw [exec_screenTick, if_neg]
    rintro ⟨he, hd⟩
    obtain h | h := h
    · exact absurd he (by rw [h]; nofun)
    · omega
  case dark => rw [exec_screenTick, if_pos ⟨he, hd⟩, takeTick_dark ha hb]
  case ticks => rw [exec_screenTick, if_pos ⟨he, hd⟩]
  case frame =>
    rw [frameOf_showing ha]
    refine ⟨rfl, rfl, fun h => frame_background i j h _ rfl, fun w hw hl hc ht => ?_⟩
    rw [frame_top i j hw hl hc ht _ rfl]
    exact painted_shows ..

end Sys2Proof.Machine
end

section
/-! PROOFS. The swap of a screen whose standby is ARMED (R75, R76, R118). -/

namespace Sys2Proof.Machine

section
variable {s : State} {c : Fin 24} {y : Context}

/-- The part whose screen c has swapped to the context y, before the take engine is told of it. -/
def State.swappedAt (s : State) (c : Fin 24) (y : Context) : State :=
  { s.withScreen c { s.screens[c].swapped y with ticksDue := s.screens[c].ticksDue - 1 } with
    slots := (s.releaseWindows ((s.screens[c].active.map (·.windows)).getD [])).slots }

/-- R76: the active context after the swap. -/
theorem swappedAt_active (s : State) (c : Fin 24) (y : Context) : (s.swappedAt c y).screens[c].active = some y :=
  congrArg Screen.active (put_same s.screens c _)

/-- R76: the swap of a screen that takes a tick. -/
theorem ticked_swapStage (h : s.screens[c].standby = .armed y) : ∃ v : State,
    (s.ticked c).swapStage c = v.memberSwapped c ∧ SameButMarks v (s.swappedAt c y) := by
  have armed : (s.ticked c).screens[c].standby = .armed y := by
    rw [ticked_get]
    exact h
  obtain ⟨v, hv, same⟩ := swapContexts_same (s.ticked c) c y
  refine ⟨v, ?_, same.trans (.of_eq ?_)⟩
  · rw [← hv]
    unfold State.swapStage
    rw [armed]
  · rw [ticked_get]
    have slots := releaseWindows_congr ((s.screens[c].active.map fun x : Context => x.windows).getD []) (show (s.ticked c).slots = s.slots from rfl)
    unfold State.swappedAt
    rw [slots]
    exact congrArg (fun t : State => { t with
      slots := (s.releaseWindows ((s.screens[c].active.map fun x : Context => x.windows).getD [])).slots }) (withScreen_withScreen ..)

/-- R77 to R85: the stages after a swap are those of the new active context. -/
theorem takeTick_swapped {v : State} (hv : (s.ticked c).swapStage c = v) (ha : v.screens[c].active = some y) :
    TickComposed v (s.takeTick c) c y := by
  rw [takeTick_eq, hv, ha]
  exact composeStages_composed ha

end

/-- Settles O22: the swap by `ticked_swapStage`, what the engine makes of it by `memberSwapped_pending`, and then the tick of
the new active context. -/
theorem armedStandbysSwap : Obligations.ArmedStandbysSwap := by
  refine ⟨fun s c y he hd hb => ?_, fun w => ?_⟩
  · have ticks : exec (.screenTick c) s = .next (s.takeTick c) := by rw [exec_screenTick, if_pos ⟨he, hd⟩]
    obtain ⟨v, swap, same⟩ := ticked_swapStage hb
    have active {w : State} (h : w.screens = (s.swappedAt c y).screens) : w.screens[c].active = some y := by
      rw [h]
      exact swappedAt_active s c y
    refine ⟨fun hp => ?_, fun j hj hp => ?_⟩
    · have other : v.memberSwapped c = v := memberSwapped_other ((same.pendingMember c).trans hp)
      exact ⟨v, _, ticks, same, takeTick_swapped (swap.trans other) (active same.screens)⟩
    · obtain ⟨going, ended⟩ := memberSwapped_pending same (j := j) hj hp
      refine ⟨fun hm => ?_, fun hm => ?_⟩
      · have swapped := going hm
        exact ⟨v.memberSwapped c, _, ticks, swapped, takeTick_swapped swap (active swapped.screens)⟩
      · obtain ⟨w, offered, done⟩ := ended hm _ rfl
        refine ⟨w, _, ticks, done, takeTick_swapped (swap.trans offered) ?_⟩
        rw [offerEngine_active]
        exact active done.screens
  · unfold reduceWindow reducedPulse
    cases w.staged with
    | none => rfl
    | some x => cases x <;> rfl

end Sys2Proof.Machine
end

section
/-! PROOFS. How a job goes on once a member's load has ended or its screen been disabled (R116, R117, R119). -/

namespace Sys2Proof.Machine

section
variable {v u : State} {j : Job}

/-- R119: a job with a PENDING member is not settled. -/
theorem SameButMarks.settle_going (same : SameButMarks v u) (hj : u.job = some j) (hp : j.phase ≠ .done)
    (hm : ∃ m ∈ j.members, m.outcome = .pending) : SameButMarks v.settle u := by
  obtain ⟨m, hm, ho⟩ := hm
  have current : v.currentJob = some j := currentJob_some.2 ⟨same.job.trans hj, hp⟩
  rw [settle_of_pending current (List.any_eq_true.2 ⟨m, hm, decide_eq_true ho⟩)]
  exact same

/-- R119: a job without a PENDING member, one of whose members is not SWAPPED, is DONE and PARTIAL. -/
theorem SameButMarks.settle_ended (same : SameButMarks v u) (hj : u.job = some j) (hp : j.phase ≠ .done)
    (hs : ∃ m ∈ j.members, m.outcome ≠ .swapped) (hm : ∀ m ∈ j.members, m.outcome ≠ .pending) :
    SameButMarks v.settle { u with
      job := some { j with phase := .done, result := some .partialResult }
      runners := Vector.ofFn fun q => u.runners[q].handed j .partialResult q } := by
  have current : v.currentJob = some j := currentJob_some.2 ⟨same.job.trans hj, hp⟩
  have settled := settle_partial current hm hs
  rw [same.runners] at settled
  exact settled.trans (same.with (fun t => { t with
    job := some { j with phase := .done, result := some .partialResult }
    runners := Vector.ofFn fun q => u.runners[q].handed j .partialResult q }) fun _ _ => rfl)

/-- R116, R117: a job whose loading does not go on: it is not LOADING, or a load is in progress. -/
theorem SameButMarks.advanceLoading_waits (same : SameButMarks v u) (hj : u.job = some j) (hp : j.phase ≠ .done)
    (hw : j.phase ≠ .loading ∨ ∃ m ∈ j.members, m.loadIs .inProgress = true) : v.advanceLoading = v.settle :=
  Machine.advanceLoading_waits (currentJob_some.2 ⟨same.job.trans hj, hp⟩) hw

/-- R116: the next load begins. -/
theorem SameButMarks.advanceLoading_begins (same : SameButMarks v u) (hj : u.job = some j) (hp : j.phase = .loading)
    (hn : ∀ m ∈ j.members, m.loadIs .inProgress = false) {before rest : List Member} {m : Member}
    (hm : j.members = before ++ m :: rest) (hb : ∀ y ∈ before, y.loadIs .notBegun = false) (hl : m.loadIs .notBegun = true) :
    SameButMarks v.advanceLoading { u with
      job := some { j with members := before ++ { m with load := some .inProgress } :: rest } } := by
  have current : v.currentJob = some j := currentJob_some.2 ⟨same.job.trans hj, by rw [hp]; nofun⟩
  rw [Machine.advanceLoading_begins current hp hn hm hb hl]
  exact (setJob_same ..).trans (same.withJob _)

/-- R117: every load has ended, and the job is armed. -/
theorem SameButMarks.advanceLoading_arms (same : SameButMarks v u) (hj : u.job = some j) (hp : j.phase = .loading)
    (hn : ∀ m ∈ j.members, m.loadIs .inProgress = false) (hl : ∀ m ∈ j.members, m.loadIs .notBegun = false) :
    ∃ w : State, v.advanceLoading = w.settle ∧ SameButMarks w { u with
      screens := Vector.ofFn fun d => u.screens[d].armedIn (j.members.map (·.screen)) d
      job := some { j with phase := .armed } } := by
  have current : v.currentJob = some j := currentJob_some.2 ⟨same.job.trans hj, by rw [hp]; nofun⟩
  obtain ⟨w, settled, armed⟩ := Machine.advanceLoading_arms current hp fun m hm => ⟨hn m hm, hl m hm⟩
  rw [same.screens] at armed
  exact ⟨w, settled, armed.trans (same.with (fun t => { t with
    screens := Vector.ofFn fun d => u.screens[d].armedIn (j.members.map (·.screen)) d
    job := some { j with phase := .armed } }) fun _ _ => rfl)⟩

end

end Sys2Proof.Machine
end

section
/-! PROOFS. SET SCREEN (R70, R90 to R92). -/

namespace Sys2Proof.Machine

/-! ### The owning block's part -/

section
variable {s : State} {c : Fin 24} {g : ScreenSettings}

/-- R92: a change of cadence or geometry of a PENDING member is refused. -/
theorem setScreenBad_member (hp : s.pendingMember c = true)
    (h : s.screens[c].cadence ≠ g.cadence ∨ s.screens[c].width ≠ g.width ∨ s.screens[c].height ≠ g.height) :
    setScreenBad s c g = some .memberOfTake := by
  unfold setScreenBad
  dsimp only
  rw [hp, if_pos]
  simpa using h

/-- R92: a change of geometry of a SHOWING screen that is no PENDING member is refused. -/
theorem setScreenBad_showing (hp : s.pendingMember c = false)
    (h : s.screens[c].width ≠ g.width ∨ s.screens[c].height ≠ g.height) (hx : s.screens[c].state = .showing) :
    setScreenBad s c g = some .screenNotDark := by
  unfold setScreenBad
  dsimp only
  rw [hp, Bool.and_false, if_neg Bool.false_ne_true, hx, if_pos]
  simpa using h

/-- R92: the settings that pass the two tests. -/
theorem setScreenBad_none
    (hp : s.pendingMember c = true → s.screens[c].cadence = g.cadence ∧ ¬ (s.screens[c].width ≠ g.width ∨ s.screens[c].height ≠ g.height))
    (hx : ¬ ((s.screens[c].width ≠ g.width ∨ s.screens[c].height ≠ g.height) ∧ s.screens[c].state = .showing)) :
    setScreenBad s c g = none := by
  unfold setScreenBad
  dsimp only
  rw [if_neg, if_neg]
  · simpa using hx
  · intro h
    obtain ⟨changed, member⟩ := Bool.and_eq_true_iff.1 h
    obtain ⟨cadence, size⟩ := hp member
    have different : s.screens[c].cadence ≠ g.cadence ∨ s.screens[c].width ≠ g.width ∨ s.screens[c].height ≠ g.height := by
      simpa using changed
    exact different.elim (absurd cadence) size

variable {ps : List Byte}

/-- R92: the settings are refused on the screen as it stands. -/
theorem setScreenBody_refused (p : Fin 16) {code : Code} (h : firstBad 0 (screenTests (ps.map (·.toNat))) = none)
    (hb : s.saving = false)
    (hc : setScreenBad s (Fin.ofNat 24 (fld (ps.map (·.toNat)) 0)) (settingsOf (ps.map (·.toNat))) = some code) :
    setScreenBody p ps s = unchanged s (.refused code none) := by
  unfold setScreenBody
  simp only [h, hb, Bool.false_eq_true, if_false, hc]

/-- R92: the settings are replaced; their effects follow the reply. -/
theorem setScreenBody_done (p : Fin 16) (h : firstBad 0 (screenTests (ps.map (·.toNat))) = none) (hb : s.saving = false)
    (hc : setScreenBad s (Fin.ofNat 24 (fld (ps.map (·.toNat)) 0)) (settingsOf (ps.map (·.toNat))) = none) :
    let c := Fin.ofNat 24 (fld (ps.map (·.toNat)) 0)
    setScreenBody p ps s = ⟨s.setScreen c (s.screens[c].withSettings (settingsOf (ps.map (·.toNat)))), .done [],
      fun t => t.applySettings c s.screens[c]⟩ := by
  unfold setScreenBody
  simp only [h, hb, Bool.false_eq_true, if_false, hc]

end

/-- R92: the test of the screen as it stands is the same once a service has begun. -/
theorem setScreenBad_beginService (s : State) (p : Fin 16) (c : Fin 24) (g : ScreenSettings) :
    setScreenBad (s.beginService p) c g = setScreenBad s c g := by
  unfold setScreenBad
  rw [beginService_screens, beginService_pendingMember]

section
variable {s : State} {p : Fin 16} {r : Request}

/-- R92: the answer to a SET SCREEN that passes its tests, before the effects of the settings. -/
theorem serve_setScreen (hs : s.Serves 10 p r) (hb : s.saving = false)
    (h : firstBad 0 (screenTests (r.params.map (·.toNat))) = none)
    (hc : setScreenBad s (Fin.ofNat 24 (fld (r.params.map (·.toNat)) 0)) (settingsOf (r.params.map (·.toNat))) = none) :
    let c := Fin.ofNat 24 (fld (r.params.map (·.toNat)) 0)
    let replaced := s.withScreen c (s.screens[c].withSettings (settingsOf (r.params.map (·.toNat))))
    ∃ t : State, AnsweredWith replaced.wallFault s t replaced p r .done [] ∧
      s.serve 10 setScreenBody = t.applySettings c s.screens[c] := by
  intro c replaced
  have same : SameButMarks ((s.beginService p).setScreen c (s.screens[c].withSettings (settingsOf (r.params.map (·.toNat)))))
      { replaced with served := p, ports := (s.beginService p).ports } := setScreen_same ..
  have fault : ((s.beginService p).setScreen c (s.screens[c].withSettings (settingsOf (r.params.map (·.toNat))))).wallFault =
      replaced.wallFault := same.wallFault.trans (wallFault_congr rfl rfl rfl rfl rfl rfl rfl rfl)
  refine ⟨_, fault ▸ answeredWith_of_reply same, ?_⟩
  rw [serve_of hs, setScreenBody_done p h ((beginService_saving p s).trans hb) ((setScreenBad_beginService s p c _).trans hc),
    beginService_screens]
  rfl

end

/-! ### The effects that follow the reply -/

/-- R90: a screen that is DISABLED. -/
theorem Screen.state_disabled {x : Screen} : x.state = .disabled ↔ x.enabled = false := by
  unfold Screen.state
  cases x.enabled <;> cases x.active <;> simp

/-- R92: a screen with its settings replaced and its contexts tested against a new geometry. -/
def Screen.tested (x : Screen) (g : ScreenSettings) : Screen :=
  if x.enabled = false ∧ (x.width ≠ g.width ∨ x.height ≠ g.height) then (x.withSettings g).refit else x.withSettings g

/-- R90: a screen as a disable leaves it. -/
def Screen.darkened (x : Screen) : Screen :=
  { x with enabled := false, active := x.active.map (Context.mapWindows darkenWindow), ticksDue := 0, output := none }

section
variable {n : Nat} {s t u : State} {p : Fin 16} {r : Request} {status : ReplyStatus} {result : List Byte} {c : Fin 24}
  {x : Screen} {g : ScreenSettings}

/-- A screen that is written after the reply. -/
theorem AnsweredWith.setScreen (h : AnsweredWith n s t u p r status result) (c : Fin 24) (x : Screen) :
    AnsweredWith n s (t.setScreen c x) (u.withScreen c x) p r status result :=
  (setScreen_same c x t).trans (SameButMarks.withScreen h c x)

/-- The screen that stands written after the reply. -/
theorem AnsweredWith.screen (h : AnsweredWith n s t (s.withScreen c x) p r status result) : t.screens[c] = x := by
  have screens : t.screens = (s.withScreen c x).screens := (SameButMarks.screens h :)
  rw [screens]
  exact withScreen_get ..

/-- A screen written twice. -/
theorem AnsweredWith.rewrite (h : AnsweredWith n s t (s.withScreen c x) p r status result) (y : Screen) :
    AnsweredWith n s (t.setScreen c y) (s.withScreen c y) p r status result := by
  have written := h.setScreen c y
  rwa [withScreen_withScreen] at written

/-- R92: the test of the contexts. -/
theorem AnsweredWith.refits (h : AnsweredWith n s t (s.withScreen c (x.withSettings g)) p r status result) :
    AnsweredWith n s (if x.state = .disabled ∧ (x.width ≠ t.screens[c].width ∨ x.height ≠ t.screens[c].height) then
      t.setScreen c t.screens[c].refit else t) (s.withScreen c (x.tested g)) p r status result := by
  have screen : t.screens[c] = x.withSettings g := h.screen
  rw [screen]
  by_cases k : x.enabled = false ∧ (x.width ≠ g.width ∨ x.height ≠ g.height)
  · rw [if_pos ⟨Screen.state_disabled.2 k.1, k.2⟩, Screen.tested, if_pos k]
    exact h.rewrite _
  · rw [if_neg fun b => k ⟨Screen.state_disabled.1 b.1, b.2⟩, Screen.tested, if_neg k]
    exact h

/-- R92: a change of cadence drops the ticks of the old generator. -/
theorem AnsweredWith.recadences (h : AnsweredWith n s t u p r status result) (k : Prop) [Decidable k] :
    AnsweredWith n s (if k then t else t.setScreen c { t.screens[c] with ticksDue := 0 })
      (u.withScreen c { u.screens[c] with ticksDue := if k then u.screens[c].ticksDue else 0 }) p r status result := by
  have screens : t.screens = u.screens := (SameButMarks.screens h :)
  split
  · rw [withScreen_self]
    exact h
  · rw [screens]
    exact h.setScreen ..

/-- R91, R92: the effects of settings that disable no screen. -/
theorem AnsweredWith.applies (h : AnsweredWith n s t (s.withScreen c (x.withSettings g)) p r status result)
    (hk : ¬ (x.enabled = true ∧ g.enabled = false)) :
    AnsweredWith n s (t.applySettings c x) (s.withScreen c { x.tested g with
      ticksDue := if x.cadence = g.cadence then (x.tested g).ticksDue else 0 }) p r status result := by
  have kept : (x.enabled && !t.screens[c].enabled) = false := by
    rw [h.screen]
    change (x.enabled && !g.enabled) = false
    revert hk
    cases x.enabled <;> cases g.enabled <;> simp
  have done := h.refits.recadences (c := c) (x.cadence = g.cadence)
  rw [withScreen_get, withScreen_withScreen] at done
  unfold State.applySettings
  dsimp only
  rw [kept, if_neg Bool.false_ne_true]
  have cadence : t.screens[c].cadence = g.cadence := by rw [h.screen]; rfl
  rw [cadence]
  exact done

/-- R90: the disable of a screen, as far as the take engine. -/
theorem AnsweredWith.disablesScreen (h : AnsweredWith n s t (s.withScreen c x) p r status result) : ∃ v : State,
    t.disableScreen c = v.memberDisabled c ∧ AnsweredWith n s v { s.withScreen c x.darkened with
      slots := (s.releaseWindows ((x.active.map (·.windows)).getD [])).slots } p r status result := by
  obtain ⟨v, disabled, same⟩ := disableScreen_same t c
  have slots := releaseWindows_congr ((x.active.map (·.windows)).getD []) (show t.slots = s.slots from (SameButMarks.slots h :))
  rw [h.screen, slots] at same
  refine ⟨v, disabled, same.trans ?_⟩
  have written := h.after (fun w => { w.withScreen c x.darkened with
    slots := (s.releaseWindows ((x.active.map (·.windows)).getD [])).slots }) fun _ _ _ => rfl
  rw [withScreen_withScreen] at written
  exact written

/-- R92: a screen that was not DISABLED is not tested against its new geometry. -/
theorem Screen.tested_enabled (hx : x.enabled = true) : x.tested g = x.withSettings g :=
  if_neg fun k => by rw [hx] at k; cases k.1

/-- R90, R92: the effects of settings that disable a screen, as far as the take engine. -/
theorem AnsweredWith.applies_disables (h : AnsweredWith n s t (s.withScreen c (x.withSettings g)) p r status result)
    (hx : x.enabled = true) (hg : g.enabled = false) : ∃ v : State,
    t.applySettings c x = (if x.cadence = g.cadence then v.memberDisabled c else
      (v.memberDisabled c).setScreen c { (v.memberDisabled c).screens[c] with ticksDue := 0 }) ∧
    AnsweredWith n s v { s.withScreen c (x.withSettings g).darkened with
      slots := (s.releaseWindows ((x.active.map (·.windows)).getD [])).slots } p r status result := by
  have tested := h.refits
  rw [Screen.tested_enabled hx] at tested
  obtain ⟨v, disabled, answered⟩ := tested.disablesScreen
  refine ⟨v, ?_, answered⟩
  have switched : (x.enabled && !t.screens[c].enabled) = true := by
    rw [h.screen, hx]
    change (true && !g.enabled) = true
    rw [hg]
    rfl
  have cadence : t.screens[c].cadence = g.cadence := by rw [h.screen]; rfl
  unfold State.applySettings
  dsimp only
  rw [if_pos switched, disabled, cadence]

/-- R90, R92: the effects of settings that disable a screen that is no PENDING member. -/
theorem AnsweredWith.applies_disable (h : AnsweredWith n s t (s.withScreen c (x.withSettings g)) p r status result)
    (hx : x.enabled = true) (hg : g.enabled = false) (hp : s.pendingMember c = false) :
    AnsweredWith n s (t.applySettings c x) { s.withScreen c (x.withSettings g).darkened with
      slots := (s.releaseWindows ((x.active.map (·.windows)).getD [])).slots } p r status result := by
  obtain ⟨v, applied, answered⟩ := h.applies_disables hx hg
  have job : v.job = s.job := (SameButMarks.job answered :)
  rw [applied, memberDisabled_other ((pendingMember_congr c job).trans hp)]
  split
  · exact answered
  · have screens : v.screens = put s.screens c (x.withSettings g).darkened := (SameButMarks.screens answered :)
    have written := answered.setScreen c (x.withSettings g).darkened
    have same : ({ s.withScreen c (x.withSettings g).darkened with
        slots := (s.releaseWindows ((x.active.map (·.windows)).getD [])).slots } : State).withScreen c (x.withSettings g).darkened =
        { s.withScreen c (x.withSettings g).darkened with
          slots := (s.releaseWindows ((x.active.map (·.windows)).getD [])).slots } :=
      congrArg (fun all : Vector Screen 24 => { s with
        screens := all
        slots := (s.releaseWindows ((x.active.map fun y : Context => y.windows).getD [])).slots }) (put_put ..)
    rw [same] at written
    rw [screens, put_same]
    exact written

/-- The slots of an answer, told apart. -/
theorem AnsweredWith.slots {k : Vector Slot 64} (h : AnsweredWith n s t { u with slots := k } p r status result) :
    AnsweredWith n s t { u with slots := t.slots } p r status result ∧ t.slots = k := by
  have slots : t.slots = k := (SameButMarks.slots h :)
  rw [slots]
  exact ⟨h, rfl⟩

/-- R121: the disable of a screen skips its PENDING member. -/
theorem AnsweredWith.applies_skip {j : Job} (h : AnsweredWith n s t (s.withScreen c (x.withSettings g)) p r status result)
    (hj : s.job = some j) (hp : s.pendingMember c = true) (hx : x.enabled = true) (hg : g.enabled = false)
    (hc : x.cadence = g.cadence) : ∃ v : State, t.applySettings c x = v.advanceLoading.offerEngine ∧
    AnsweredWith n s v { s with
      slots := (s.releaseWindows ((x.active.map (·.windows)).getD [])).slots
      screens := put s.screens c { (x.withSettings g).darkened with standby := x.standby.emptied }
      job := some { j with members := j.members.map (Member.skip c) } } p r status result := by
  obtain ⟨v, applied, answered⟩ := h.applies_disables hx hg
  obtain ⟨w, skipped, same⟩ := memberDisabled_pending answered hj ((pendingMember_congr c rfl).trans hp)
  rw [applied, if_pos hc]
  refine ⟨w, skipped, ?_⟩
  have screen : (put s.screens c (x.withSettings g).darkened)[c] = (x.withSettings g).darkened := put_same ..
  have screens : put (put s.screens c (x.withSettings g).darkened) c { (x.withSettings g).darkened with
      standby := x.standby.emptied } = put s.screens c { (x.withSettings g).darkened with standby := x.standby.emptied } :=
    put_put ..
  unfold State.withScreen at same
  dsimp only at same
  rw [screen] at same
  change SameButMarks w { s with
    served := p
    ports := put s.ports p (s.ports[p].answered (replyCell r.tag r.code status n result))
    slots := _
    screens := put (put s.screens c (x.withSettings g).darkened) c { (x.withSettings g).darkened with
      standby := x.standby.emptied }
    job := _ } at same
  rw [screens] at same
  exact same

end

end Sys2Proof.Machine
end

section
/-! PROOFS. What SET SCREEN answers (R70, R90 to R92, R121). -/

namespace Sys2Proof.Machine

section
variable {s : State} {p : Fin 16} {r : Request}

/-- R121: the marking of a disabled member, written out. -/
theorem map_skip (c : Fin 24) (members : List Member) : members.map (Member.skip c) =
    members.map fun m => if m.screen = c ∧ m.outcome = .pending then { m with
      outcome := .skippedDisabled
      load := if m.load = some .inProgress then some .completed else m.load } else m := rfl

/-- R121: a member that is marked at a disable is not SWAPPED. -/
theorem exists_skipped {c : Fin 24} {members : List Member} (h : ∃ m ∈ members, m.screen = c ∧ m.outcome = .pending) :
    ∃ m ∈ members.map (Member.skip c), m.outcome ≠ .swapped := by
  obtain ⟨m, hm, hc⟩ := h
  refine ⟨m.skip c, List.mem_map_of_mem hm, ?_⟩
  unfold Member.skip
  rw [if_pos hc]
  nofun

/-- The marking of a member leaves the members' screens. -/
theorem map_skip_screens (c : Fin 24) (members : List Member) :
    (members.map (Member.skip c)).map (·.screen) = members.map (·.screen) := by
  rw [List.map_map]
  refine List.map_congr_left fun m _ => ?_
  change (m.skip c).screen = m.screen
  unfold Member.skip
  split <;> rfl

/-- Settings that keep the geometry, the cadence and the enable. -/
theorem Screen.withSettings_start {x : Screen} {g : ScreenSettings} (hs : ¬ (x.width ≠ g.width ∨ x.height ≠ g.height)) :
    x.withSettings g = { x with enabled := g.enabled, cadence := g.cadence, start := g.start } := by
  obtain ⟨hw, hh⟩ := not_or.1 hs
  unfold Screen.withSettings
  rw [← not_not.1 hw, ← not_not.1 hh]

/-- R92: settings that keep the geometry test no context. -/
theorem Screen.tested_kept {x : Screen} {g : ScreenSettings} (hs : ¬ (x.width ≠ g.width ∨ x.height ≠ g.height)) :
    x.tested g = { x with enabled := g.enabled, cadence := g.cadence, start := g.start } :=
  (if_neg fun k => hs k.2).trans (Screen.withSettings_start hs)

/-- R90: the disable of a screen whose settings already say so. -/
theorem Screen.darkened_off {x : Screen} (h : x.enabled = false) : x.darkened = { x with
    active := x.active.map (Context.mapWindows darkenWindow)
    ticksDue := 0
    output := none } := by
  unfold Screen.darkened
  rw [← h]

/-- R90 to R92: a SET SCREEN that passes its tests and disables no screen. -/
theorem setScreen_applies (hs : s.Serves 10 p r) (hb : s.saving = false)
    (h : firstBad 0 (screenTests (r.params.map (·.toNat))) = none)
    (hc : setScreenBad s (Fin.ofNat 24 (fld (r.params.map (·.toNat)) 0)) (settingsOf (r.params.map (·.toNat))) = none) :
    let c := Fin.ofNat 24 (fld (r.params.map (·.toNat)) 0)
    let x := s.screens[c]
    let g := settingsOf (r.params.map (·.toNat))
    ¬ (x.enabled = true ∧ g.enabled = false) → ∀ y : Screen,
    { x.tested g with ticksDue := if x.cadence = g.cadence then (x.tested g).ticksDue else 0 } = y →
    ∃ t : State, exec .setScreen s = .next t ∧
      AnsweredWith (s.withScreen c (x.withSettings g)).wallFault s t (s.withScreen c y) p r .done [] := by
  intro c x g hk y hy
  obtain ⟨t, answered, served⟩ := serve_setScreen hs hb h hc
  subst hy
  exact ⟨_, by rw [exec_setScreen, served], answered.applies hk⟩

/-- R121: where the disable of a PENDING member leaves the part. -/
theorem skipped_leads {n : Nat} {v : State} {j : Job} {c : Fin 24} {y : Screen} {slots : Vector Slot 64}
    (hj : s.job = some j) (hp : s.pendingMember c = true)
    (h : AnsweredWith n s v { s with
      slots := slots
      screens := put s.screens c y
      job := some { j with members := j.members.map (Member.skip c) } } p r .done []) :
    let members := j.members.map (Member.skip c)
    let screens := put s.screens c y
    let armed := Vector.ofFn fun d => screens[d].armedIn (j.members.map (·.screen)) d
    let leaves (k : Job) (screens : Vector Screen 24) (runners : Vector Runner 4) : Prop :=
      AnsweredWith n s v.advanceLoading { s with
        slots := slots
        screens := screens
        job := some k
        runners := runners } p r .done []
    let ended : Job := { j with members := members, phase := .done, result := some .partialResult }
    let handed := Vector.ofFn fun q => s.runners[q].handed j .partialResult q
    (j.phase ≠ .loading ∨ (∃ m ∈ members, m.loadIs .inProgress = true) →
      ((∃ m ∈ members, m.outcome = .pending) → leaves { j with members := members } screens s.runners) ∧
      ((∀ m ∈ members, m.outcome ≠ .pending) → leaves ended screens handed)) ∧
    (j.phase = .loading → (∀ m ∈ members, m.loadIs .inProgress = false) →
      (∀ (before : List Member) (m : Member) (rest : List Member), members = before ++ m :: rest →
        (∀ y ∈ before, y.loadIs .notBegun = false) → m.loadIs .notBegun = true →
        leaves { j with members := before ++ { m with load := some .inProgress } :: rest } screens s.runners) ∧
      ((∀ m ∈ members, m.loadIs .notBegun = false) →
        ((∃ m ∈ members, m.outcome = .pending) → leaves { j with members := members, phase := .armed } armed s.runners) ∧
        ((∀ m ∈ members, m.outcome ≠ .pending) → leaves ended armed handed))) := by
  obtain ⟨current, member⟩ := currentJob_of_pendingMember hj hp
  have going : j.phase ≠ .done := (currentJob_some.1 current).2
  have skipped := exists_skipped member
  intro members screens armed leaves ended handed
  refine ⟨fun hw => ⟨fun hm => ?_, fun hm => ?_⟩, fun hl hn => ⟨fun before m rest hm hb hk => ?_, fun hk => ?_⟩⟩
  · have settled := SameButMarks.settle_going h rfl going hm
    rw [← SameButMarks.advanceLoading_waits h rfl going hw] at settled
    exact settled
  · have settled := SameButMarks.settle_ended h rfl going skipped hm
    rw [← SameButMarks.advanceLoading_waits h rfl going hw] at settled
    exact settled
  · exact SameButMarks.advanceLoading_begins h rfl hl hn hm hb hk
  · obtain ⟨w, settles, same⟩ := SameButMarks.advanceLoading_arms h rfl hl hn hk
    dsimp only at same
    rw [map_skip_screens] at same
    refine ⟨fun hm => ?_, fun hm => ?_⟩
    · have settled := same.settle_going rfl nofun hm
      rw [← settles] at settled
      exact settled
    · have settled := same.settle_ended rfl nofun skipped hm
      rw [← settles] at settled
      exact settled

end

/-- Settles O23: settings that disable no screen by `setScreen_applies`, a disable by `AnsweredWith.applies_disable`, and that of
a PENDING member by `skipped_leads`. -/
theorem setScreenWritesTheSettings : Obligations.SetScreenWritesTheSettings := by
  intro s p r hs hb f c x g resized fault h
  have kept : ¬ resized → x.cadence = g.cadence → setScreenBad s c g = none := fun size cadence =>
    setScreenBad_none (fun _ => ⟨cadence, size⟩) fun k => size k.1
  have other : s.pendingMember c = false → ¬ (resized ∧ x.state = .showing) → setScreenBad s c g = none := fun member =>
    setScreenBad_none fun k => by rw [member] at k; cases k
  refine ⟨fun hp k => ?member, fun hp k hx => ?showing, fun size he hc => ?start, fun size he hc hp => ?cadence,
    fun size hx hg hc => ?enable, fun size hx hg hc hp => ?disable, fun size hx he hc hp => ?resize,
    fun size hx hg hc hp => ?refit, fun hp k => ?all, fun j hj hp size hc hx hg => ?skip⟩
  case member =>
    have bad := (setScreenBad_beginService s p c g).trans (setScreenBad_member hp k)
    exact ⟨_, exec_setScreen s, serve_refused hs (by decide) (setScreenBody_refused p h ((beginService_saving p s).trans hb) bad)⟩
  case showing =>
    have bad := (setScreenBad_beginService s p c g).trans (setScreenBad_showing hp k hx)
    exact ⟨_, exec_setScreen s, serve_refused hs (by decide) (setScreenBody_refused p h ((beginService_saving p s).trans hb) bad)⟩
  case start =>
    refine setScreen_applies hs hb h (kept size hc) (fun k => ?_) _ ?_
    · have off : x.enabled = false := he.trans k.2
      exact Bool.false_ne_true (off.symm.trans k.1)
    · change { x.tested g with ticksDue := if x.cadence = g.cadence then (x.tested g).ticksDue else 0 } = _
      rw [if_pos hc, Screen.tested_kept size, ← he, ← hc]
  case cadence =>
    refine setScreen_applies hs hb h (other hp fun k => size k.1) (fun k => ?_) _ ?_
    · have off : x.enabled = false := he.trans k.2
      exact Bool.false_ne_true (off.symm.trans k.1)
    · change { x.tested g with ticksDue := if x.cadence = g.cadence then (x.tested g).ticksDue else 0 } = _
      rw [if_neg hc, Screen.tested_kept size, ← he]
  case enable =>
    refine setScreen_applies hs hb h (kept size hc) (fun k => ?_) _ ?_
    · exact Bool.false_ne_true (hx.symm.trans k.1)
    · change { x.tested g with ticksDue := if x.cadence = g.cadence then (x.tested g).ticksDue else 0 } = _
      rw [if_pos hc, Screen.tested_kept size, hg, ← hc]
  case disable =>
    obtain ⟨t, answered, served⟩ := serve_setScreen hs hb h (kept size hc)
    have dark : (x.withSettings g).darkened = { x with
        enabled := false
        start := g.start
        active := x.active.map (Context.mapWindows darkenWindow)
        ticksDue := 0
        output := none } := by
      rw [Screen.withSettings_start size, ← hc]
      rfl
    have done := answered.applies_disable hx hg hp
    rw [dark] at done
    exact ⟨_, by rw [exec_setScreen, served], done.slots⟩
  case resize =>
    have on : x.enabled = true := by
      cases e : x.enabled
      · rw [Screen.state_disabled.2 e] at hx
        cases hx
      · rfl
    refine setScreen_applies hs hb h (other hp fun k => by rw [hx] at k; cases k.2) (fun k => ?_) _ ?_
    · have off : x.enabled = false := he.trans k.2
      exact Bool.false_ne_true (off.symm.trans k.1)
    · change { x.tested g with ticksDue := if x.cadence = g.cadence then (x.tested g).ticksDue else 0 } = _
      rw [if_pos hc, Screen.tested_enabled on, Screen.withSettings, ← he, ← hc]
  case refit =>
    refine setScreen_applies hs hb h (other hp fun k => ?_) (fun k => ?_) _ ?_
    · rw [Screen.state_disabled.2 hx] at k
      cases k.2
    · exact Bool.false_ne_true (hx.symm.trans k.1)
    · change { x.tested g with ticksDue := if x.cadence = g.cadence then (x.tested g).ticksDue else 0 } = _
      rw [if_pos hc, Screen.tested, if_pos ⟨hx, size⟩, Screen.withSettings, hg, ← hx, ← hc]
  case all =>
    intro replaced tested switched
    by_cases off : x.enabled = true ∧ g.enabled = false
    · obtain ⟨t, answered, served⟩ := serve_setScreen hs hb h (other hp k)
      have settings : tested = x.withSettings g := Screen.tested_enabled off.1
      have dark : { switched with ticksDue := if x.cadence = g.cadence then switched.ticksDue else 0 } =
          (x.withSettings g).darkened := by
        have same : switched = (x.withSettings g).darkened := by
          rw [Screen.darkened_off (show (x.withSettings g).enabled = false from off.2), ← settings]
          exact if_pos off
        rw [same]
        exact congrArg (fun k => { (x.withSettings g).darkened with ticksDue := k }) (ite_self 0)
      rw [dark, if_pos off]
      exact ⟨_, by rw [exec_setScreen, served], (answered.applies_disable off.1 off.2 hp).slots⟩
    · obtain ⟨t, next, answered⟩ := setScreen_applies hs hb h (other hp k) off _ rfl
      have same : switched = x.tested g := if_neg off
      have slots : t.slots = s.slots := (SameButMarks.slots answered :)
      rw [if_neg off, same]
      refine ⟨t, next, ?_, slots⟩
      rw [slots]
      exact answered
  case skip =>
    obtain ⟨t, answered, served⟩ := serve_setScreen hs hb h (kept size hc)
    obtain ⟨v, applied, skipped⟩ := answered.applies_skip hj hp hx hg hc
    have dark : { (x.withSettings g).darkened with standby := x.standby.emptied } = { x with
        enabled := false
        start := g.start
        active := x.active.map (Context.mapWindows darkenWindow)
        standby := x.standby.emptied
        ticksDue := 0
        output := none } := by
      rw [Screen.withSettings_start size, ← hc]
      rfl
    rw [dark] at skipped
    obtain ⟨waits, loads⟩ := skipped_leads hj hp skipped
    have next : exec .setScreen s = .next v.advanceLoading.offerEngine := by rw [exec_setScreen, served, applied]
    refine ⟨fun hw => ?_, fun hl hn => ?_⟩
    · obtain ⟨going, ended⟩ := waits hw
      exact ⟨fun hm => ⟨_, next, going hm⟩, fun hm => ⟨_, next, ended hm⟩⟩
    · obtain ⟨begins, arms⟩ := loads hl hn
      refine ⟨fun before m rest hm hb' hk => ⟨_, next, begins before m rest hm hb' hk⟩, fun hk => ?_⟩
      obtain ⟨going, ended⟩ := arms hk
      exact ⟨fun hm => ⟨_, next, going hm⟩, fun hm => ⟨_, next, ended hm⟩⟩

end Sys2Proof.Machine
end

section
/-! PROOFS. FREEZE and SET PULSE (R87 to R89). -/

namespace Sys2Proof.Machine

/-! ### A request on a window of the active context -/

section
variable {s : State} {c : Fin 24} {n : Nat} {x : Context} {w : LiveWindow} {act : Context → LiveWindow → State × Answer}

/-- R90: an enabled screen with an active context is SHOWING. -/
theorem Screen.state_showing {y : Screen} (he : y.enabled = true) (ha : y.active = some x) : y.state = .showing := by
  unfold Screen.state
  rw [he, ha]
  rfl

/-- R87: a screen that is not SHOWING. -/
theorem onWindow_notShowing (h : s.screens[c].state ≠ .showing) :
    s.onWindow c n act = (s, .refused .screenNotShowing none) := if_pos h

/-- R87: a window that the active context does not hold. -/
theorem onWindow_noWindow (he : s.screens[c].enabled = true) (ha : s.screens[c].active = some x)
    (hw : x.windows.find? (fun y => y.copy.number = n) = none) : s.onWindow c n act = (s, .refused .noSuchWindow none) := by
  unfold State.onWindow
  rw [if_neg (not_not.2 (Screen.state_showing he ha)), ha]
  dsimp only
  rw [hw]

/-- R87: a window that the screen shows. -/
theorem onWindow_found (h : s.Shows c n x w) : s.onWindow c n act = act x w := by
  obtain ⟨enabled, active, found⟩ := h
  unfold State.onWindow
  rw [if_neg (not_not.2 (Screen.state_showing enabled active)), active]
  dsimp only
  rw [found]

/-- What a screen shows is the same once a service has begun. -/
theorem State.Shows.begun (h : s.Shows c n x w) (p : Fin 16) : (s.beginService p).Shows c n x w := by
  unfold State.Shows
  rw [beginService_screens]
  exact h

/-- The windows of one number changed. -/
theorem modWindow_same (c : Fin 24) (n : Nat) (f : LiveWindow → LiveWindow) (s : State) :
    SameButMarks (s.modWindow c n f) (s.withScreen c (s.screens[c].withWindow n f)) := setScreen_same ..

/-- The windows of one number changed once a service has begun. -/
theorem modWindow_begun (c : Fin 24) (n : Nat) (f : LiveWindow → LiveWindow) (p : Fin 16) (s : State) :
    SameButMarks ((s.beginService p).modWindow c n f)
      { s.withScreen c (s.screens[c].withWindow n f) with served := p, ports := (s.beginService p).ports } :=
  (modWindow_same c n f _).trans (begun_same (fun v => v.withScreen c (v.screens[c].withWindow n f)) (fun _ _ _ => rfl) p s)

end

/-! ### The two requests -/

section
variable {s : State} {f : List Nat} {x : Context} {w : LiveWindow}

/-- R88: FREEZE with its fields in range. -/
theorem freezeFields_ranged (h : firstBad 0 (freezeTests f) = none) :
    freezeFields f s = s.onWindow (Fin.ofNat 24 (fld f 0)) (fld f 1) fun _ _ =>
      (s.modWindow (Fin.ofNat 24 (fld f 0)) (fld f 1) fun w => { w with freeze := fld f 2 = 1 }, .done []) := by
  unfold freezeFields
  rw [h]

/-- R89: SET PULSE of a window without a border. -/
theorem setPulseFields_bare (h : firstBad 0 (setPulseTests f) = none) (hw : s.Shows (Fin.ofNat 24 (fld f 0)) (fld f 1) x w)
    (hb : w.copy.border = none) : setPulseFields f s = (s, outOfRange 2) := by
  unfold setPulseFields
  rw [h]
  dsimp only
  rw [onWindow_found hw, hb]
  rfl

/-- R89: SET PULSE of a window with a border. -/
theorem setPulseFields_staged (h : firstBad 0 (setPulseTests f) = none) (hw : s.Shows (Fin.ofNat 24 (fld f 0)) (fld f 1) x w)
    (hb : w.copy.border ≠ none) : setPulseFields f s =
      (s.modWindow (Fin.ofNat 24 (fld f 0)) (fld f 1) fun w => { w with staged := some (stagedOf f) }, .done []) := by
  unfold setPulseFields
  rw [h]
  dsimp only
  rw [onWindow_found hw, if_neg (by simpa using hb)]

end

section
variable {s t : State} {p : Fin 16} {r : Request} {answer : Answer}

/-- The body of FREEZE, from its fields. -/
theorem freezeBody_of (h : freezeFields (r.params.map (·.toNat)) s = (t, answer)) : freezeBody p r.params s = ⟨t, answer, id⟩ := by
  unfold freezeBody
  rw [h]

/-- The body of SET PULSE, from its fields. -/
theorem setPulseBody_of (h : setPulseFields (r.params.map (·.toNat)) s = (t, answer)) :
    setPulseBody p r.params s = ⟨t, answer, id⟩ := by
  unfold setPulseBody
  rw [h]

end

/-- Settles O25: the tests by the `onWindow` lemmas, the change by `modWindow_begun`. -/
theorem freezeAndSetPulseActOnAWindow : Obligations.FreezeAndSetPulseActOnAWindow := by
  constructor
  case left =>
    intro s p r hs f c h
    refine ⟨fun hx => ?dark, fun x he ha hw => ?absent, fun x w hw => ?freeze⟩
    case dark =>
      refine ⟨_, exec_freeze s, serve_refused hs (by decide) (freezeBody_of ?_)⟩
      rw [freezeFields_ranged h, onWindow_notShowing (by rw [beginService_screens]; exact hx)]
    case absent =>
      refine ⟨_, exec_freeze s, serve_refused hs (by decide) (freezeBody_of ?_)⟩
      rw [freezeFields_ranged h, onWindow_noWindow (by rw [beginService_screens]; exact he)
        (by rw [beginService_screens]; exact ha) hw]
    case freeze =>
      refine ⟨_, exec_freeze s, serve_done _ hs (freezeBody_of ?_) (modWindow_begun c (fld f 1) _ p s)⟩
      rw [freezeFields_ranged h, onWindow_found (hw.begun p)]
  case right =>
    intro s p r hs f c h x w hw
    refine ⟨fun hb => ?bare, fun hb => ?staged⟩
    case bare =>
      exact ⟨_, exec_setPulse s, serve_refused hs (by decide) (setPulseBody_of (setPulseFields_bare h (hw.begun p) hb))⟩
    case staged =>
      exact ⟨_, exec_setPulse s, serve_done _ hs (setPulseBody_of (setPulseFields_staged h (hw.begun p) hb))
        (modWindow_begun c (fld f 1) _ p s)⟩

end Sys2Proof.Machine
end

section
/-! PROOFS. WINDOW TAKE (R96 to R102). -/

namespace Sys2Proof.Machine

/-! ### What a take does to the part -/

section
variable {x : Context} {w : LiveWindow} {n : Nat} {c : Fin 24} {g : LiveWindow → LiveWindow}

/-- The windows of a context with those of one number changed. -/
theorem withWindow_active {y : Screen} (ha : y.active = some x) : (y.withWindow n g).active =
    some (x.mapWindows fun v => if v.copy.number = n then g v else v) := by
  unfold Screen.withWindow
  rw [ha]
  rfl

/-- Windows that are left as they are. -/
theorem withWindow_id (y : Screen) (n : Nat) : y.withWindow n id = y := by
  have same : (fun v : LiveWindow => if v.copy.number = n then id v else v) = id := funext fun v => ite_self v
  have kept : (Context.mapWindows id : Context → Context) = id := funext fun x => by
    unfold Context.mapWindows
    rw [List.map_id]
    rfl
  unfold Screen.withWindow
  rw [same, kept, Option.map_id]
  rfl

/-- The window of a number, once the windows of that number have been changed. -/
theorem find_changed {ws : List LiveWindow} (hw : ws.find? (fun y => y.copy.number = n) = some w)
    (hg : ∀ y : LiveWindow, (g y).copy = y.copy) :
    (ws.map fun v => if v.copy.number = n then g v else v).find? (fun y => y.copy.number = n) = some (g w) := by
  have same : ((fun y : LiveWindow => decide (y.copy.number = n)) ∘ fun v => if v.copy.number = n then g v else v) =
      fun y => decide (y.copy.number = n) := by
    funext v
    dsimp only [Function.comp]
    split <;> simp only [hg]
  have number : w.copy.number = n := by simpa using List.find?_some hw
  rw [List.find?_map, same, hw, Option.map_some, if_pos number]

/-- R102: the result of a take, from the screen that it leaves. -/
theorem takeEffectBytes_of {e : TakeEffect} {y : Screen} (ha : y.active = some x)
    (hw : x.windows.find? (fun v => v.copy.number = n) = some w) (hg : ∀ v : LiveWindow, (g v).copy = v.copy)
    (hs : e.state.screens[c] = y.withWindow n g) : takeEffectBytes c n e =
      byte1 c.val ++ byte1 n ++ byte1 (g w).current ++ byte1 (transitionNum e.transition) ++
        present 1 ((transitionLength e.transition).map byte1) ++ flag e.cutSubstituted ++ flag e.completed ++
        byte2 (areaInUse ((y.withWindow n g).active.map (·.windows)).get!) := by
  have windows : e.state.activeWindows c = x.windows.map fun v => if v.copy.number = n then g v else v := by
    unfold State.activeWindows
    rw [hs, withWindow_active ha]
    rfl
  unfold takeEffectBytes
  dsimp only
  rw [windows, find_changed hw hg, withWindow_active ha]
  rfl

end

/-- R102: a take e of the window w of screen c that changes the windows of its number by g. -/
structure Takes (s : State) (c : Fin 24) (w : LiveWindow) (g : LiveWindow → LiveWindow) (transition : Option Transition)
    (cut : Bool) (e : TakeEffect) : Prop where
  state : SameButMarks e.state ((s.releaseOpt (w.dissolve.bind (·.latch))).withScreen c
    (s.screens[c].withWindow w.copy.number g))
  transition : e.transition = transition
  cut : e.cutSubstituted = cut
  completed : e.completed = w.dissolve.isSome

section
variable {s : State} {c : Fin 24} {x : Context} {w : LiveWindow} {source : Nat} {t : Transition}

/-- The windows of one number changed after a release. -/
theorem modWindow_released (s : State) (c : Fin 24) (n : Nat) (g : LiveWindow → LiveWindow) (k : Option (Fin 64)) :
    SameButMarks ((s.releaseOpt k).modWindow c n g) ((s.releaseOpt k).withScreen c (s.screens[c].withWindow n g)) := by
  have same := modWindow_same c n g (s.releaseOpt k)
  have screens : (s.releaseOpt k).screens = s.screens := by cases k <;> rfl
  rwa [screens] at same

/-- R96: a take to the source that the window has, no dissolve running. -/
theorem takeWindow_same (h : source = w.current) (hd : w.dissolve = none) :
    Takes s c w id none false (takeWindow c x w source t s) := by
  unfold takeWindow
  dsimp only
  rw [if_pos ⟨h, by rw [hd]; rfl⟩]
  refine ⟨?_, rfl, rfl, by rw [hd]; rfl⟩
  rw [withWindow_id, hd]
  exact .of_eq (withScreen_self s c).symm

/-- R101: a take to the source that the window has completes a running dissolve. -/
theorem takeWindow_completes (h : source = w.current) (hd : w.dissolve ≠ none) :
    Takes s c w completeWindow none false (takeWindow c x w source t s) := by
  unfold takeWindow
  dsimp only
  rw [if_neg (by simpa [h] using hd), if_pos h]
  exact ⟨modWindow_released .., rfl, rfl, rfl⟩

/-- R97, R100: a cut. -/
theorem takeWindow_cuts (h : source ≠ w.current) : Takes s c w (cutWindow source) (some .cut) false
    (takeWindow c x w source .cut s) := by
  unfold takeWindow
  dsimp only
  rw [if_neg fun k => h k.1, if_neg h]
  exact ⟨modWindow_released .., rfl, rfl, rfl⟩

/-- R98: a dissolve within the area budget. -/
theorem takeWindow_dissolves {l : Nat} (h : source ≠ w.current) (ha : areaWith w.copy.number x.windows ≤ Config.areaBudget) :
    Takes s c w (dissolveWindow source l) (some (.dissolve l)) false (takeWindow c x w source (.dissolve l) s) := by
  unfold takeWindow
  dsimp only
  rw [if_neg fun k => h k.1, if_neg h, if_pos ha]
  exact ⟨modWindow_released .., rfl, rfl, rfl⟩

/-- R99: the cut that takes the place of a dissolve. -/
theorem takeWindow_substitutes {l : Nat} (h : source ≠ w.current) (ha : Config.areaBudget < areaWith w.copy.number x.windows) :
    Takes s c w (cutWindow source) (some .cut) true (takeWindow c x w source (.dissolve l) s) := by
  unfold takeWindow
  dsimp only
  rw [if_neg fun k => h k.1, if_neg h, if_neg (Nat.not_le.2 ha)]
  exact ⟨modWindow_released .., rfl, rfl, rfl⟩

end

section
variable {s : State} {c : Fin 24} {n : Nat} {x : Context} {w : LiveWindow} {g : LiveWindow → LiveWindow}
  {tr : Option Transition} {cut : Bool} {e : TakeEffect}

/-- A window that a screen shows is of the number asked for. -/
theorem State.Shows.number (h : s.Shows c n x w) : w.copy.number = n := by
  simpa using List.find?_some h.2.2

/-- R102: the result of a take. -/
theorem Takes.bytes (h : Takes s c w g tr cut e) (hw : s.Shows c n x w) (hg : ∀ v : LiveWindow, (g v).copy = v.copy) :
    takeEffectBytes c n e = byte1 c.val ++ byte1 n ++ byte1 (g w).current ++ byte1 (transitionNum tr) ++
      present 1 ((transitionLength tr).map byte1) ++ flag cut ++ flag w.dissolve.isSome ++
      byte2 (areaInUse ((s.screens[c].withWindow n g).active.map (·.windows)).get!) := by
  obtain ⟨enabled, active, found⟩ := hw
  obtain ⟨state, transition, cut, completed⟩ := h
  have screen : e.state.screens[c] = s.screens[c].withWindow n g := by
    rw [state.screens, State.Shows.number ⟨enabled, active, found⟩]
    exact withScreen_get ..
  rw [takeEffectBytes_of active found hg screen, transition, cut, completed]

end

/-! ### The request -/

section
variable {s : State} {p : Fin 16} {r : Request} {x : Context} {w : LiveWindow} {g : LiveWindow → LiveWindow}
  {tr : Option Transition} {cut : Bool}

/-- R96: WINDOW TAKE of a window that the screen shows. -/
theorem windowTakeBody_shown (h : firstBad 0 (windowTakeTests (r.params.map (·.toNat))) = none)
    (hw : s.Shows (Fin.ofNat 24 (fld (r.params.map (·.toNat)) 0)) (fld (r.params.map (·.toNat)) 1) x w) :
    let f := r.params.map (·.toNat)
    let e := takeWindow (Fin.ofNat 24 (fld f 0)) x w (fld f 2) (transitionOf f w) s
    windowTakeBody p r.params s = ⟨e.state, .done (takeEffectBytes (Fin.ofNat 24 (fld f 0)) (fld f 1) e), id⟩ := by
  unfold windowTakeBody windowTakeFields
  rw [h]
  dsimp only
  rw [onWindow_found hw]

/-- A take once a service has begun. -/
theorem Takes.begun {c : Fin 24} {e : TakeEffect} (h : Takes (s.beginService p) c w g tr cut e) :
    SameButMarks e.state { (s.releaseOpt (w.dissolve.bind (·.latch))).withScreen c (s.screens[c].withWindow w.copy.number g) with
      served := p
      ports := (s.beginService p).ports } :=
  h.state.trans (begun_same (fun v => (v.releaseOpt (w.dissolve.bind (·.latch))).withScreen c
    (v.screens[c].withWindow w.copy.number g)) (fun _ _ _ => by cases w.dissolve.bind (·.latch) <;> rfl) p s)

/-- R96, R102: the answer to a WINDOW TAKE. -/
theorem serve_windowTake (hs : s.Serves 16 p r) (h : firstBad 0 (windowTakeTests (r.params.map (·.toNat))) = none) :
    let f := r.params.map (·.toNat)
    let c := Fin.ofNat 24 (fld f 0)
    let n := fld f 1
    s.Shows c n x w → Takes (s.beginService p) c w g tr cut
      (takeWindow c x w (fld f 2) (transitionOf f w) (s.beginService p)) →
    (∀ v : LiveWindow, (g v).copy = v.copy) → (g w).current = fld f 2 →
    ∃ t : State, exec .windowTake s = .next t ∧
      AnsweredAs s t ((s.releaseOpt (w.dissolve.bind (·.latch))).withScreen c (s.screens[c].withWindow n g)) p r .done
        (byte1 c.val ++ byte1 n ++ byte1 (fld f 2) ++ byte1 (transitionNum tr) ++
          present 1 ((transitionLength tr).map byte1) ++ flag cut ++ flag w.dissolve.isSome ++
          byte2 (areaInUse ((s.screens[c].withWindow n g).active.map (·.windows)).get!)) := by
  intro f c n hw takes hg hc
  have bytes := takes.bytes (hw.begun p) hg
  rw [hc, beginService_screens] at bytes
  have state := takes.begun
  rw [hw.number] at state
  refine ⟨_, exec_windowTake s, serve_done _ hs ?_ state⟩
  rw [windowTakeBody_shown h (hw.begun p)]
  exact congrArg (fun b => (⟨_, .done b, id⟩ : Served)) bytes

end

/-- Settles O26: each case of a take by its `takeWindow` lemma. -/
theorem windowTakesCutOrDissolve : Obligations.WindowTakesCutOrDissolve := by
  intro s p r hs f c n source h x w hw released taken
  have number : w.copy.number = n := hw.number
  refine ⟨fun he hd => ?same, fun he hd => ?completes, fun he ht => ?cuts, fun l he ht ha => ?dissolves,
    fun l he ht ha => ?substitutes⟩
  case same =>
    exact serve_windowTake (g := id) (tr := none) (cut := false) hs h hw (takeWindow_same he hd) (fun _ => rfl) he.symm
  case completes =>
    exact serve_windowTake (g := completeWindow) (tr := none) (cut := false) hs h hw (takeWindow_completes he hd)
      (fun _ => rfl) he.symm
  case cuts =>
    refine serve_windowTake (g := cutWindow source) (tr := some .cut) (cut := false) hs h hw ?_ (fun _ => rfl) rfl
    rw [ht]
    exact takeWindow_cuts he
  case dissolves =>
    refine serve_windowTake (g := dissolveWindow source l) (tr := some (.dissolve l)) (cut := false) hs h hw ?_ (fun _ => rfl) rfl
    rw [ht]
    exact takeWindow_dissolves he (number ▸ ha)
  case substitutes =>
    refine serve_windowTake (g := cutWindow source) (tr := some .cut) (cut := true) hs h hw ?_ (fun _ => rfl) rfl
    rw [ht]
    exact takeWindow_substitutes he (number ▸ ha)

end Sys2Proof.Machine
end

section
/-! PROOFS. Rotation lists (R105 to R108). -/

namespace Sys2Proof.Machine

/-! ### The search (R107) -/

section
variable {s : State} {l : Rotation} {current : Nat}

/-- R107: as many entries are tried as the list has. -/
theorem tries_length (l : Rotation) : l.tries.length = l.entries.length := by
  unfold Rotation.tries
  rw [List.length_map, List.length_range]

/-- R107: the order in which the entries are tried. -/
theorem tries_get {j : Nat} (h : j < l.entries.length) : l.tries[j]? = some ((l.position + 1 + j) % l.entries.length) := by
  unfold Rotation.tries
  rw [List.getElem?_map, List.getElem?_range h]
  rfl

/-- R107: each entry of a list is tried. -/
theorem exists_try {i : Nat} (h : i < l.entries.length) : i ∈ l.tries := by
  have positive : 0 < l.entries.length := Nat.zero_lt_of_lt h
  refine List.mem_map.2 ⟨(i + l.entries.length - (l.position + 1) % l.entries.length) % l.entries.length,
    List.mem_range.2 (Nat.mod_lt _ positive), ?_⟩
  have below := Nat.mod_lt (l.position + 1) positive
  rw [Nat.add_mod_mod, ← Nat.mod_add_mod, Nat.add_sub_cancel' (by omega), Nat.add_mod_right, Nat.mod_eq_of_lt h]

/-- R107: what ROTATE makes of one entry of its search. -/
def tried (s : State) (l : Rotation) (current i : Nat) : Option (Nat × Fin 16) :=
  l.entries[i]?.bind fun feed => if s.eligible feed ∧ feed.val ≠ current then some (i, feed) else none

/-- R107: the search takes the first entry that it may take. -/
theorem rotateSearch_eq : rotateSearch s l current = l.tries.findSome? (tried s l current) := rfl

/-- R107: an entry that may be taken. -/
theorem tried_some {i a : Nat} {feed : Fin 16} : tried s l current i = some (a, feed) ↔
    a = i ∧ l.entries[i]? = some feed ∧ s.eligible feed = true ∧ feed.val ≠ current := by
  unfold tried
  rw [Option.bind_eq_some_iff]
  constructor
  · rintro ⟨other, entry, taken⟩
    split at taken
    · next h =>
      cases taken
      exact ⟨rfl, entry, h⟩
    · cases taken
  · rintro ⟨rfl, entry, h⟩
    exact ⟨feed, entry, if_pos h⟩

/-- R107: an entry that may not be taken. -/
theorem tried_none {i : Nat} (h : tried s l current i = none) {feed : Fin 16} (he : l.entries[i]? = some feed) :
    ¬ (s.eligible feed = true ∧ feed.val ≠ current) := fun k => by
  rw [tried_some.2 ⟨rfl, he, k⟩] at h
  cases h

/-- R107: the entry taken, and those tried before it. -/
theorem rotateSearch_some {i : Nat} {feed : Fin 16} (h : rotateSearch s l current = some (i, feed)) :
    l.entries[i]? = some feed ∧ s.eligible feed = true ∧ feed.val ≠ current ∧
      ∃ j : Nat, l.tries[j]? = some i ∧ ∀ (m a : Nat) (earlier : Fin 16), m < j → l.tries[m]? = some a →
        l.entries[a]? = some earlier → ¬ (s.eligible earlier = true ∧ earlier.val ≠ current) := by
  rw [rotateSearch_eq, List.findSome?_eq_some_iff] at h
  obtain ⟨before, a, after, split, taken, earlier⟩ := h
  obtain ⟨rfl, entry, eligible, other⟩ := tried_some.1 taken
  refine ⟨entry, eligible, other, before.length, ?_, fun m a feed hm ha he => ?_⟩
  · rw [split, List.getElem?_append_right (Nat.le_refl _), Nat.sub_self]
    rfl
  · rw [split, List.getElem?_append_left hm] at ha
    exact tried_none (earlier a (List.mem_of_getElem? ha)) he

/-- R107: a search that takes no entry. -/
theorem rotateSearch_none : rotateSearch s l current = none ↔
    ∀ feed ∈ l.entries, ¬ (s.eligible feed = true ∧ feed.val ≠ current) := by
  rw [rotateSearch_eq, List.findSome?_eq_none_iff]
  constructor
  · intro h feed hf
    obtain ⟨i, below, entry⟩ := List.getElem_of_mem hf
    exact tried_none (h i (exists_try below)) (by rw [List.getElem?_eq_getElem below, entry])
  · intro h i _
    cases k : tried s l current i with
    | none => rfl
    | some y =>
      obtain ⟨a, feed⟩ := y
      obtain ⟨_, entry, eligible⟩ := tried_some.1 k
      exact absurd eligible (h feed (List.mem_of_getElem? entry))

end

/-- The search is the same once a service has begun. -/
theorem rotateSearch_beginService (s : State) (p : Fin 16) (l : Rotation) (current : Nat) :
    rotateSearch (s.beginService p) l current = rotateSearch s l current := by
  unfold rotateSearch
  simp only [show ∀ i, (s.beginService p).eligible i = s.eligible i from fun i =>
    eligible_congr i (beginService_sources p s) (beginService_slots p s)]

/-! ### ROTATE -/

section
variable {s : State} {p : Fin 16} {r : Request}

/-- The body of ROTATE, from its fields. -/
theorem rotateBody_eq (p : Fin 16) (ps : List Byte) (s : State) : rotateBody p ps s =
    ⟨(rotateFields (ps.map (·.toNat)) s).1, (rotateFields (ps.map (·.toNat)) s).2.1, id⟩ := rfl

variable {f : List Nat} {x : Context} {w : LiveWindow}

/-- R107: ROTATE of a screen that is not SHOWING. -/
theorem rotateFields_notShowing (h : firstBad 0 (rotateTests f) = none)
    (hx : s.screens[Fin.ofNat 24 (fld f 0)].state ≠ .showing) :
    (rotateFields f s).1 = s ∧ (rotateFields f s).2.1 = .refused .screenNotShowing none := by
  unfold rotateFields
  rw [h]
  dsimp only
  rw [onWindow_notShowing hx]
  exact ⟨rfl, rfl⟩

/-- R107: ROTATE of a window that the active context does not hold. -/
theorem rotateFields_noWindow (h : firstBad 0 (rotateTests f) = none) (he : s.screens[Fin.ofNat 24 (fld f 0)].enabled = true)
    (ha : s.screens[Fin.ofNat 24 (fld f 0)].active = some x)
    (hw : x.windows.find? (fun y => y.copy.number = fld f 1) = none) :
    (rotateFields f s).1 = s ∧ (rotateFields f s).2.1 = .refused .noSuchWindow none := by
  unfold rotateFields
  rw [h]
  dsimp only
  rw [onWindow_noWindow he ha hw]
  exact ⟨rfl, rfl⟩

/-- R107: ROTATE whose search takes no entry. -/
theorem rotateFields_exhausted (h : firstBad 0 (rotateTests f) = none)
    (hw : s.Shows (Fin.ofNat 24 (fld f 0)) (fld f 1) x w) :
    let c := Fin.ofNat 24 (fld f 0)
    let k : Fin 8 := Fin.ofNat 8 (fld f 2)
    rotateSearch s s.rotations[k] w.current = none →
    (rotateFields f s).1 = s ∧ (rotateFields f s).2.1 =
      .done (rotateBytes c (fld f 1) ⟨s, none, false, false⟩ k s.rotations[k].position true) := by
  intro c k hr
  unfold rotateFields
  rw [h]
  dsimp only
  rw [onWindow_found hw, hr]
  exact ⟨rfl, rfl⟩

/-- R107: ROTATE whose search takes an entry. -/
theorem rotateFields_taken {i : Nat} {feed : Fin 16} (h : firstBad 0 (rotateTests f) = none)
    (hw : s.Shows (Fin.ofNat 24 (fld f 0)) (fld f 1) x w) :
    let c := Fin.ofNat 24 (fld f 0)
    let k : Fin 8 := Fin.ofNat 8 (fld f 2)
    rotateSearch s s.rotations[k] w.current = some (i, feed) →
    let e := takeWindow c x w feed.val w.copy.transition (s.setRotation k { s.rotations[k] with position := i })
    (rotateFields f s).1 = e.state ∧ (rotateFields f s).2.1 = .done (rotateBytes c (fld f 1) e k i false) := by
  intro c k hr
  unfold rotateFields
  rw [h]
  dsimp only
  rw [onWindow_found hw, hr]
  exact ⟨rfl, rfl⟩

end

end Sys2Proof.Machine
end

section
/-! PROOFS. The answers to ROTATE and LOAD ROTATION (R106 to R108). -/

namespace Sys2Proof.Machine

section
variable {s : State} {p : Fin 16} {r : Request} {x : Context} {w : LiveWindow}

/-- The body of ROTATE, from what its fields make of the part. -/
theorem rotateBody_of {t : State} {answer : Answer} (h : (rotateFields (r.params.map (·.toNat)) s).1 = t ∧
    (rotateFields (r.params.map (·.toNat)) s).2.1 = answer) : rotateBody p r.params s = ⟨t, answer, id⟩ := by
  rw [rotateBody_eq, h.1, h.2]

/-- R107: ROTATE moves the position of the list and takes the window. -/
def State.rotated (s : State) (c : Fin 24) (w : LiveWindow) (g : LiveWindow → LiveWindow) (k : Fin 8) (i : Nat) : State :=
  { s.releaseOpt (w.dissolve.bind (·.latch)) with
    rotations := put s.rotations k { s.rotations[k] with position := i } }.withScreen c
    (s.screens[c].withWindow w.copy.number g)

/-- The take of a ROTATE once its service has begun. -/
theorem Takes.rotated {c : Fin 24} {k : Fin 8} {i : Nat} {g : LiveWindow → LiveWindow} {tr : Option Transition} {cut : Bool}
    {e : TakeEffect} (h : Takes ((s.beginService p).setRotation k { (s.beginService p).rotations[k] with position := i })
      c w g tr cut e) :
    SameButMarks e.state { s.rotated c w g k i with served := p, ports := (s.beginService p).ports } := by
  have state : SameButMarks e.state ((s.beginService p).rotated c w g k i) := by
    refine h.state.trans (.of_eq ?_)
    unfold State.rotated State.setRotation
    cases w.dissolve.bind (·.latch) <;> rfl
  refine state.trans (begun_same (fun v => v.rotated c w g k i) (fun _ _ _ => ?_) p s)
  unfold State.rotated
  cases w.dissolve.bind (·.latch) <;> rfl

/-- R108: the answer to a ROTATE that takes an entry. -/
theorem serve_rotate {i : Nat} {feed : Fin 16} {g : LiveWindow → LiveWindow} {tr : Option Transition} {cut : Bool}
    (hs : s.Serves 17 p r) (h : firstBad 0 (rotateTests (r.params.map (·.toNat))) = none) :
    let f := r.params.map (·.toNat)
    let c := Fin.ofNat 24 (fld f 0)
    let n := fld f 1
    let k : Fin 8 := Fin.ofNat 8 (fld f 2)
    s.Shows c n x w → rotateSearch s s.rotations[k] w.current = some (i, feed) →
    (∀ v : State, Takes v c w g tr cut (takeWindow c x w feed.val w.copy.transition v)) →
    (∀ v : LiveWindow, (g v).copy = v.copy) → (g w).current = feed.val →
    ∃ t : State, exec .rotate s = .next t ∧
      AnsweredAs s t ({ s.releaseOpt (w.dissolve.bind (·.latch)) with
        rotations := put s.rotations k { s.rotations[k] with position := i } }.withScreen c (s.screens[c].withWindow n g)) p r .done
        (byte1 c.val ++ byte1 n ++ byte1 feed.val ++ byte1 (transitionNum tr) ++
          present 1 ((transitionLength tr).map byte1) ++ flag cut ++ flag w.dissolve.isSome ++
          byte2 (areaInUse ((s.screens[c].withWindow n g).active.map (·.windows)).get!) ++ byte1 k.val ++ byte1 i ++
          flag false) := by
  intro f c n k hw found takes hg hc
  have begun : rotateSearch (s.beginService p) (s.beginService p).rotations[k] w.current = some (i, feed) := by
    rw [rotateSearch_beginService, beginService_rotations]
    exact found
  have taken := takes ((s.beginService p).setRotation k { (s.beginService p).rotations[k] with position := i })
  have bytes := taken.bytes (n := n) (hw.begun p) hg
  have screens : ((s.beginService p).setRotation k { (s.beginService p).rotations[k] with position := i }).screens = s.screens :=
    beginService_screens p s
  rw [hc, screens] at bytes
  have state := taken.rotated
  unfold State.rotated at state
  rw [hw.number] at state
  refine ⟨_, exec_rotate s, serve_done _ hs ?_ state⟩
  rw [rotateBody_of (rotateFields_taken h (hw.begun p) begun)]
  exact congrArg (fun b => (⟨_, .done (b ++ byte1 k.val ++ byte1 i ++ flag false), id⟩ : Served)) bytes

variable {ps : List Byte}

/-- R106: the number of the list out of range. -/
theorem loadRotationBody_number (p : Fin 16) (h : 7 < fld (ps.map (·.toNat)) 0) :
    loadRotationBody p ps s = unchanged s (outOfRange 0) := if_pos h

/-- R106: an entry of the sequence that is refused. -/
theorem loadRotationBody_bad (p : Fin 16) {i : Nat} (h : fld (ps.map (·.toNat)) 0 ≤ 7)
    (hb : rotationBad (fld (ps.map (·.toNat)) 1) ((ps.map (·.toNat)).drop 2) = some i) :
    loadRotationBody p ps s = unchanged s (outOfRange i) := by
  unfold loadRotationBody
  dsimp only
  rw [if_neg (Nat.not_lt.2 h), hb]

/-- R106: a sequence in a save. -/
theorem loadRotationBody_busy (p : Fin 16) (h : fld (ps.map (·.toNat)) 0 ≤ 7)
    (hb : rotationBad (fld (ps.map (·.toNat)) 1) ((ps.map (·.toNat)).drop 2) = none) (hs : s.saving = true) :
    loadRotationBody p ps s = unchanged s .busy := by
  unfold loadRotationBody
  dsimp only
  rw [if_neg (Nat.not_lt.2 h), hb]
  exact if_pos hs

/-- R106: a sequence that is loaded. -/
theorem loadRotationBody_done (p : Fin 16) (h : fld (ps.map (·.toNat)) 0 ≤ 7)
    (hb : rotationBad (fld (ps.map (·.toNat)) 1) ((ps.map (·.toNat)).drop 2) = none) (hs : s.saving = false) :
    loadRotationBody p ps s = ⟨s.setRotation (Fin.ofNat 8 (fld (ps.map (·.toNat)) 0))
      ⟨((ps.map (·.toNat)).drop 2).map (Fin.ofNat 16), 0⟩, .done [], id⟩ := by
  unfold loadRotationBody
  dsimp only
  rw [if_neg (Nat.not_lt.2 h), hb]
  exact if_neg (by rw [hs]; nofun)

end

/-- Settles O27: (1) by the lemmas on ROTATE's fields and `serve_rotate`; (2) by `rotateSearch_some` and `rotateSearch_none`. -/
theorem rotationListsStepAWindow : Obligations.RotationListsStepAWindow := by
  refine ⟨?rotate, ⟨fun l j => tries_get, tries_length, fun s l current i feed => rotateSearch_some,
    fun s l current => rotateSearch_none⟩, ?load⟩
  case rotate =>
    intro s p r hs f c n k h
    refine ⟨fun hx => ?dark, fun x he ha hw => ?absent, fun x w hw => ⟨fun hr => ?exhausted, fun i feed hr => ?taken⟩⟩
    case dark =>
      exact ⟨_, exec_rotate s, serve_refused hs (by decide) (rotateBody_of (rotateFields_notShowing h
        (by rw [beginService_screens]; exact hx)))⟩
    case absent =>
      exact ⟨_, exec_rotate s, serve_refused hs (by decide) (rotateBody_of (rotateFields_noWindow h
        (by rw [beginService_screens]; exact he) (by rw [beginService_screens]; exact ha) hw))⟩
    case exhausted =>
      have begun : rotateSearch (s.beginService p) (s.beginService p).rotations[k] w.current = none := by
        rw [rotateSearch_beginService, beginService_rotations]
        exact hr
      refine ⟨_, exec_rotate s, serve_unchanged hs ((rotateBody_of (rotateFields_exhausted h (hw.begun p) begun)).trans ?_)⟩
      obtain ⟨_, active, window⟩ := hw.begun p
      have bytes := takeEffectBytes_of (g := id) (c := c) (e := ⟨s.beginService p, none, false, false⟩) active window (fun _ => rfl)
        (withWindow_id _ n).symm
      rw [withWindow_id, active] at bytes
      have position : (s.beginService p).rotations[k].position = s.rotations[k].position := by rw [beginService_rotations]
      change (⟨s.beginService p, .done (rotateBytes c n ⟨s.beginService p, none, false, false⟩ k
        (s.beginService p).rotations[k].position true), id⟩ : Served) = _
      rw [rotateBytes, bytes, position]
      rfl
    case taken =>
      intro moved taken
      obtain ⟨entry, eligible, other, _⟩ := rotateSearch_some hr
      have number : w.copy.number = n := hw.number
      refine ⟨fun ht => ?cuts, fun l ht ha => ?dissolves, fun l ht ha => ?substitutes⟩
      case cuts =>
        refine serve_rotate (g := cutWindow feed.val) (tr := some .cut) (cut := false) hs h hw hr (fun v => ?_) (fun _ => rfl) rfl
        rw [ht]
        exact takeWindow_cuts other
      case dissolves =>
        refine serve_rotate (g := dissolveWindow feed.val l) (tr := some (.dissolve l)) (cut := false) hs h hw hr (fun v => ?_)
          (fun _ => rfl) rfl
        rw [ht]
        exact takeWindow_dissolves other (number ▸ ha)
      case substitutes =>
        refine serve_rotate (g := cutWindow feed.val) (tr := some .cut) (cut := true) hs h hw hr (fun v => ?_) (fun _ => rfl) rfl
        rw [ht]
        exact takeWindow_substitutes other (number ▸ ha)
  case load =>
    intro s p r hs f k
    refine ⟨fun h => ?number, fun i h hb => ?bad, fun h hb hv => ?busy, fun h hb hv => ?done⟩
    case number => exact ⟨_, exec_loadRotation s, serve_refused hs (by decide) (loadRotationBody_number p h)⟩
    case bad => exact ⟨_, exec_loadRotation s, serve_refused hs (by decide) (loadRotationBody_bad p h hb)⟩
    case busy =>
      exact ⟨_, exec_loadRotation s, serve_busy hs (loadRotationBody_busy p h hb ((beginService_saving p s).trans hv))⟩
    case done =>
      exact ⟨_, exec_loadRotation s, serve_changed (fun v => v.setRotation k ⟨(f.drop 2).map (Fin.ofNat 16), 0⟩) hs
        (loadRotationBody_done p h hb ((beginService_saving p s).trans hv)) fun _ _ _ => rfl⟩

end Sys2Proof.Machine
end

section
/-! PROOFS. LOAD SCENE and ERASE SCENE (R111, R112). -/

namespace Sys2Proof.Machine

section
variable {s : State} {ps : List Byte}

/-- R111: the number of the scene out of range. -/
theorem loadSceneBody_number (p : Fin 16) (h : 31 < fld (ps.map (·.toNat)) 0) :
    loadSceneBody p ps s = unchanged s (outOfRange 0) := if_pos h

/-- R111: a scene that is busy. -/
theorem loadSceneBody_busy (p : Fin 16) (h : fld (ps.map (·.toNat)) 0 ≤ 31)
    (hb : s.sceneBusy (Fin.ofNat 32 (fld (ps.map (·.toNat)) 0)) = true) : loadSceneBody p ps s = unchanged s .busy := by
  unfold loadSceneBody
  dsimp only
  rw [if_neg (Nat.not_lt.2 h), if_pos hb]

/-- R111: a record that fails a check. -/
theorem loadSceneBody_bad (p : Fin 16) {c : Code} {d : Nat} (h : fld (ps.map (·.toNat)) 0 ≤ 31)
    (hb : s.sceneBusy (Fin.ofNat 32 (fld (ps.map (·.toNat)) 0)) = false)
    (hc : sceneBad (fld (ps.map (·.toNat)) 1) ((ps.map (·.toNat)).drop 2) = some (c, d)) :
    loadSceneBody p ps s = unchanged s (.refused c (some d)) := by
  unfold loadSceneBody
  dsimp only
  rw [if_neg (Nat.not_lt.2 h), if_neg (by rw [hb]; nofun), hc]

/-- R111: a record that is stored. -/
theorem loadSceneBody_done (p : Fin 16) (h : fld (ps.map (·.toNat)) 0 ≤ 31)
    (hb : s.sceneBusy (Fin.ofNat 32 (fld (ps.map (·.toNat)) 0)) = false)
    (hc : sceneBad (fld (ps.map (·.toNat)) 1) ((ps.map (·.toNat)).drop 2) = none) :
    let n := Fin.ofNat 32 (fld (ps.map (·.toNat)) 0)
    loadSceneBody p ps s = ⟨s.setScene n (some (membersOf ((ps.map (·.toNat)).drop 2))),
      .done (byte1 n.val ++ byte1 (fld (ps.map (·.toNat)) 1) ++ flag s.scenes[n].isSome), id⟩ := by
  unfold loadSceneBody
  dsimp only
  rw [if_neg (Nat.not_lt.2 h), if_neg (by rw [hb]; nofun), hc]

/-- R112: the number of the scene out of range. -/
theorem eraseSceneBody_number (p : Fin 16) (h : 31 < (byteAt ps 0).toNat) :
    eraseSceneBody p ps s = unchanged s (outOfRange 0) := if_pos h

/-- R112: a scene that is busy. -/
theorem eraseSceneBody_busy (p : Fin 16) (h : (byteAt ps 0).toNat ≤ 31)
    (hb : s.sceneBusy (Fin.ofNat 32 (byteAt ps 0).toNat) = true) : eraseSceneBody p ps s = unchanged s .busy := by
  unfold eraseSceneBody
  dsimp only
  rw [if_neg (Nat.not_lt.2 h), if_pos hb]

/-- R112: a scene that is erased. -/
theorem eraseSceneBody_done (p : Fin 16) (h : (byteAt ps 0).toNat ≤ 31)
    (hb : s.sceneBusy (Fin.ofNat 32 (byteAt ps 0).toNat) = false) :
    let n := Fin.ofNat 32 (byteAt ps 0).toNat
    eraseSceneBody p ps s = ⟨s.setScene n none, .done (flag s.scenes[n].isSome), id⟩ := by
  unfold eraseSceneBody
  dsimp only
  rw [if_neg (Nat.not_lt.2 h), if_neg (by rw [hb]; nofun)]

end

/-- Settles O29: one lemma for each outcome of the two owning blocks. -/
theorem scenesAreLoadedAndErased : Obligations.ScenesAreLoadedAndErased := by
  constructor
  case left =>
    intro s p r hs f n
    have busy := beginService_sceneBusy (s := s) (p := p) n
    refine ⟨fun h => ⟨_, exec_loadScene s, ?number⟩, fun h hb => ⟨_, exec_loadScene s, ?busy⟩,
      fun c d h hb hc => ⟨_, exec_loadScene s, ?bad⟩, fun h hb hc => ⟨_, exec_loadScene s, ?done⟩⟩
    case number => exact serve_refused hs (by decide) (loadSceneBody_number p h)
    case busy => exact serve_busy hs (loadSceneBody_busy p h (busy.trans hb))
    case bad => exact serve_refused hs (by decide) (loadSceneBody_bad p h (busy.trans hb) hc)
    case done =>
      exact serve_changed (fun v => v.setScene n (some (membersOf (f.drop 2)))) hs
        ((loadSceneBody_done p h (busy.trans hb) hc).trans (by rw [beginService_scenes])) fun _ _ _ => rfl
  case right =>
    intro s p r hs k n
    have busy := beginService_sceneBusy (s := s) (p := p) n
    refine ⟨fun h => ⟨_, exec_eraseScene s, ?number⟩, fun h hb => ⟨_, exec_eraseScene s, ?busy⟩,
      fun h hb => ⟨_, exec_eraseScene s, ?done⟩⟩
    case number => exact serve_refused hs (by decide) (eraseSceneBody_number p h)
    case busy => exact serve_busy hs (eraseSceneBody_busy p h (busy.trans hb))
    case done =>
      exact serve_changed (fun v => v.setScene n none) hs
        ((eraseSceneBody_done p h (busy.trans hb)).trans (by rw [beginService_scenes])) fun _ _ _ => rfl

end Sys2Proof.Machine
end

section
/-! PROOFS. LOAD CUES (R128). -/

namespace Sys2Proof.Machine

/-! ### The write of a run -/

section
variable {s : State}

/-- R128: a run leaves the entries before it. -/
theorem writeCues_before {es : List CueEntry} {a : Nat} {k : Fin 1024} (h : a + es.length ≤ 1024) (hk : k.val < a) :
    (s.writeCues a es).cues[k] = s.cues[k] := by
  induction es generalizing a s with
  | nil => rfl
  | cons e rest ih =>
    rw [List.length_cons] at h
    rw [State.writeCues, ih (by omega) (by omega)]
    refine put_other _ _ fun same => ?_
    have value : (Fin.ofNat 1024 a).val = a := Nat.mod_eq_of_lt (by omega)
    rw [same] at value
    omega

/-- R128: each entry of a run stands at its address, and the entries after it as they stood. -/
theorem writeCues_from {fs : List (List Nat)} {a : Nat} {k : Fin 1024} (h : a + fs.length ≤ 1024) (hk : a ≤ k.val) :
    (s.writeCues a (fs.map entryOfFields)).cues[k] =
      if k.val < a + fs.length then entryOfFields (fs.getD (k.val - a) []) else s.cues[k] := by
  induction fs generalizing a s with
  | nil => rw [if_neg (by simpa using hk)]; rfl
  | cons e rest ih =>
    rw [List.length_cons] at h
    have value : (Fin.ofNat 1024 a).val = a := Nat.mod_eq_of_lt (by omega)
    rw [List.map_cons, State.writeCues, List.length_cons]
    rcases Nat.eq_or_lt_of_le hk with here | later
    · have same : Fin.ofNat 1024 a = k := Fin.ext (value.trans here)
      rw [writeCues_before (by rw [List.length_map]; omega) (by omega), if_pos (by omega),
        show k.val - a = 0 by omega, ← same]
      exact put_same ..
    · have other : Fin.ofNat 1024 a ≠ k := fun same => by rw [same] at value; omega
      rw [ih (by omega) later, show k.val - a = k.val - (a + 1) + 1 by omega, List.getD_cons_succ,
        show a + 1 + rest.length = a + (rest.length + 1) by omega]
      exact congrArg _ (put_other _ _ other)

/-- R128: the entries of the store once a run has been written. -/
theorem writeCues_get {fs : List (List Nat)} {a : Nat} (h : a + fs.length ≤ 1024) (k : Fin 1024) :
    (s.writeCues a (fs.map entryOfFields)).cues[k] =
      if a ≤ k.val ∧ k.val < a + fs.length then entryOfFields (fs.getD (k.val - a) []) else s.cues[k] := by
  by_cases hk : a ≤ k.val
  · rw [writeCues_from h hk]
    exact if_congr (by simp [hk]) rfl rfl
  · rw [writeCues_before (by rwa [List.length_map]) (Nat.not_le.1 hk), if_neg fun both => hk both.1]

/-- R128: a run changes the store of the cues only. -/
theorem writeCues_cues (a : Nat) (es : List CueEntry) (s : State) :
    s.writeCues a es = { s with cues := (s.writeCues a es).cues } := by
  induction es generalizing a s with
  | nil => rfl
  | cons e rest ih => exact ih (a + 1) _

/-- R128: the write of a run does not look at the ports. -/
theorem writeCues_begun (a : Nat) (es : List CueEntry) (v : State) (q : Fin 16) (ports : Vector Port 16) :
    { v with served := q, ports := ports }.writeCues a es = { v.writeCues a es with served := q, ports := ports } := by
  induction es generalizing a v with
  | nil => rfl
  | cons e rest ih => exact ih (a + 1) { v with cues := put v.cues (Fin.ofNat 1024 a) e }

end

/-! ### The request -/

section
variable {s : State} {ps : List Byte}

/-- R128: a run out of range. -/
theorem loadCuesBody_run (p : Fin 16) {i : Nat}
    (h : runBad (fld (splitFields [2, 1] ps) 0) (fld (splitFields [2, 1] ps) 1) = some i) :
    loadCuesBody p ps s = unchanged s (outOfRange i) := by
  unfold loadCuesBody
  dsimp only
  rw [h]

/-- R128: a run in a save. -/
theorem loadCuesBody_busy (p : Fin 16) (h : runBad (fld (splitFields [2, 1] ps) 0) (fld (splitFields [2, 1] ps) 1) = none)
    (hb : s.saving = true) : loadCuesBody p ps s = unchanged s .busy := by
  unfold loadCuesBody
  dsimp only
  rw [h]
  exact if_pos hb

/-- R128: an entry that fails a test. -/
theorem loadCuesBody_entry (p : Fin 16) {i : Nat}
    (h : runBad (fld (splitFields [2, 1] ps) 0) (fld (splitFields [2, 1] ps) 1) = none) (hb : s.saving = false)
    (he : firstBad 2 ((cueFields (fld (splitFields [2, 1] ps) 1) (ps.drop 3)).flatMap entryTests) = some i) :
    loadCuesBody p ps s = unchanged s (outOfRange i) := by
  unfold loadCuesBody
  dsimp only
  rw [h]
  dsimp only
  rw [if_neg (by rw [hb]; nofun), he]

/-- R128: a run that is written. -/
theorem loadCuesBody_done (p : Fin 16) (h : runBad (fld (splitFields [2, 1] ps) 0) (fld (splitFields [2, 1] ps) 1) = none)
    (hb : s.saving = false)
    (he : firstBad 2 ((cueFields (fld (splitFields [2, 1] ps) 1) (ps.drop 3)).flatMap entryTests) = none) :
    let f := splitFields [2, 1] ps
    loadCuesBody p ps s = ⟨s.writeCues (fld f 0) ((cueFields (fld f 1) (ps.drop 3)).map entryOfFields),
      .done (byte2 (fld f 0) ++ byte1 (fld f 1)), id⟩ := by
  unfold loadCuesBody
  dsimp only
  rw [h]
  dsimp only
  rw [if_neg (by rw [hb]; nofun), he]

/-- R128: a run in range ends within the store. -/
theorem runBad_none {start count : Nat} (h : runBad start count = none) : start + count ≤ 1024 := by
  unfold runBad at h
  by_contra beyond
  have bad : (within 1 64 count && decide (start + count ≤ 1024)) = false := by
    rw [decide_eq_false beyond, Bool.and_false]
  cases first : within 0 1023 start with
  | true =>
    rw [firstBad_pair_second first bad] at h
    cases h
  | false =>
    rw [firstBad_pair_first first] at h
    cases h

end

/-- Settles O34: the outcomes of the owning block, and `writeCues_get` for the store. -/
theorem loadCuesWritesTheRun : Obligations.LoadCuesWritesTheRun := by
  intro s p r hs f start count entries
  have saving := beginService_saving p s
  refine ⟨fun i h => ⟨_, exec_loadCues s, ?run⟩, fun h hb => ⟨_, exec_loadCues s, ?busy⟩,
    fun i h hb he => ⟨_, exec_loadCues s, ?entry⟩, fun h hb he => ⟨_, exec_loadCues s, ?done⟩⟩
  case run => exact serve_refused hs (by decide) (loadCuesBody_run p h)
  case busy => exact serve_busy hs (loadCuesBody_busy p h (saving.trans hb))
  case entry => exact serve_refused hs (by decide) (loadCuesBody_entry p h (saving.trans hb) he)
  case done =>
    have answered : AnsweredAs s (s.serve 30 loadCuesBody) (s.writeCues start (entries.map entryOfFields)) p r .done
        (byte2 start ++ byte1 count) :=
      serve_changed (fun v => v.writeCues start (entries.map entryOfFields)) hs (loadCuesBody_done p h (saving.trans hb) he)
        (writeCues_begun start _)
    have cues : (s.serve 30 loadCuesBody).cues = (s.writeCues start (entries.map entryOfFields)).cues :=
      (SameButMarks.cues answered :)
    have length : entries.length = count := by
      change (List.map _ _).length = count
      rw [List.length_map, chunks_length]
    have run := runBad_none h
    rw [cues, ← writeCues_cues]
    refine ⟨answered, fun a => ?_⟩
    rw [← length] at run ⊢
    exact writeCues_get run a

end Sys2Proof.Machine
end

section
/-! PROOFS. START CUE and RESUME CUE (R143, R145). -/

namespace Sys2Proof.Machine

section
variable {s : State} {ps : List Byte}

/-- R143: a field out of range. -/
theorem startCueBody_outOfRange (p : Fin 16) {i : Nat} (h : firstBad 0
    [within 0 3 (fld (splitFields [1, 2] ps) 0), within 0 1023 (fld (splitFields [1, 2] ps) 1)] = some i) :
    startCueBody p ps s = unchanged s (outOfRange i) := by
  unfold startCueBody
  dsimp only
  rw [h]

/-- R143: a runner that may be started. -/
theorem startCueBody_starts (p : Fin 16) (h : firstBad 0
    [within 0 3 (fld (splitFields [1, 2] ps) 0), within 0 1023 (fld (splitFields [1, 2] ps) 1)] = none)
    (hr : s.canStart (Fin.ofNat 4 (fld (splitFields [1, 2] ps) 0)) = true) : startCueBody p ps s =
      ⟨s.startRunner (Fin.ofNat 4 (fld (splitFields [1, 2] ps) 0)) (fld (splitFields [1, 2] ps) 1) .request, .done [], id⟩ := by
  unfold startCueBody
  dsimp only
  rw [h]
  exact if_pos hr

/-- R143: a runner that may not be started. -/
theorem startCueBody_active (p : Fin 16) (h : firstBad 0
    [within 0 3 (fld (splitFields [1, 2] ps) 0), within 0 1023 (fld (splitFields [1, 2] ps) 1)] = none)
    (hr : s.canStart (Fin.ofNat 4 (fld (splitFields [1, 2] ps) 0)) = false) :
    startCueBody p ps s = unchanged s (.refused .runnerActive none) := by
  unfold startCueBody
  dsimp only
  rw [h]
  exact if_neg (by rw [hr]; nofun)

/-- R143: IDLE and FAULTED runners may be started. -/
theorem canStart_true {k : Fin 4} (h : s.runners[k].state = .idle ∨ s.runners[k].state = .faulted) : s.canStart k = true := by
  unfold State.canStart
  rcases h with h | h <;> rw [h] <;> rfl

/-- R143: no other runner may be started. -/
theorem canStart_false {k : Fin 4} (hi : s.runners[k].state ≠ .idle) (hf : s.runners[k].state ≠ .faulted) :
    s.canStart k = false := by
  unfold State.canStart
  rw [decide_eq_false hi, decide_eq_false hf]
  rfl

/-- Two fields of one byte each. -/
theorem fld_two_bytes (ps : List Byte) : fld (splitFields [1, 1] ps) 0 = (byteAt ps 0).toNat ∧
    fld (splitFields [1, 1] ps) 1 = (byteAt ps 1).toNat := by
  rw [splitFields_one_one]
  exact ⟨rfl, rfl⟩

/-- R145: a runner that is FAULTED. -/
theorem resumeCueBody_faulted (p : Fin 16) (h : (byteAt ps 0).toNat ≤ 3) (ho : (byteAt ps 1).toNat ≤ 1)
    (hx : s.runners[Fin.ofNat 4 (byteAt ps 0).toNat].state = .faulted) : resumeCueBody p ps s =
      ⟨s.resumeRunner (Fin.ofNat 4 (byteAt ps 0).toNat) ((byteAt ps 1).toNat = 1), .done [], id⟩ := by
  obtain ⟨number, option⟩ := fld_two_bytes ps
  simp only [resumeCueBody, number, option, firstBad_pair_none (within_upto h) (within_upto ho), hx, if_true]

/-- R145: a runner that is not FAULTED. -/
theorem resumeCueBody_other (p : Fin 16) (h : (byteAt ps 0).toNat ≤ 3) (ho : (byteAt ps 1).toNat ≤ 1)
    (hx : s.runners[Fin.ofNat 4 (byteAt ps 0).toNat].state ≠ .faulted) :
    resumeCueBody p ps s = unchanged s (.refused .runnerNotFaulted none) := by
  obtain ⟨number, option⟩ := fld_two_bytes ps
  simp only [resumeCueBody, number, option, firstBad_pair_none (within_upto h) (within_upto ho), hx, if_false]

end

/-- R143: a start once a service has begun. -/
theorem startRunner_begun (p : Fin 16) (k : Fin 4) (a : Nat) (cause : StartCause) (s : State) :
    SameButMarks ((s.beginService p).startRunner k a cause) { s.withRunner k (Runner.startedAt a cause) with
      served := p, ports := (s.beginService p).ports } :=
  (startRunner_same ..).trans (withRunner_beginService_same ..)

/-- R145: a RESUME CUE once a service has begun. -/
theorem resumeRunner_begun (p : Fin 16) (k : Fin 4) (skip : Bool) (s : State) :
    SameButMarks ((s.beginService p).resumeRunner k skip) { s.withRunner k { s.runners[k] with
      state := .running
      spin := 0
      position := if skip then min 1024 (s.runners[k].position + 1) else s.runners[k].position } with
      served := p, ports := (s.beginService p).ports } := by
  have resumed : SameButMarks ((s.beginService p).resumeRunner k skip) _ := setRunner_same ..
  rw [beginService_runners] at resumed
  exact resumed.trans (withRunner_beginService_same ..)

/-- R145: the answer to a RESUME CUE of a FAULTED runner. -/
theorem serve_resumeCue {s : State} {p : Fin 16} {r : Request} (hs : s.Serves 33 p r) (h : (byteAt r.params 0).toNat ≤ 3)
    (ho : (byteAt r.params 1).toNat ≤ 1) :
    let k : Fin 4 := Fin.ofNat 4 (byteAt r.params 0).toNat
    let x := s.runners[k]
    x.state = .faulted → ∀ position : Nat,
    (if (byteAt r.params 1).toNat = 1 then min 1024 (x.position + 1) else x.position) = position →
    ∃ t : State, exec .resumeCue s = .next t ∧
      AnsweredAs s t (s.withRunner k { x with state := .running, spin := 0, position := position }) p r .done [] := by
  intro k x hx position hp
  have resumed := resumeRunner_begun p k ((byteAt r.params 1).toNat = 1) s
  simp only [decide_eq_true_eq] at resumed
  rw [hp] at resumed
  exact ⟨_, exec_resumeCue s, serve_done _ hs (resumeCueBody_faulted p h ho (by rw [beginService_runners]; exact hx)) resumed⟩

/-- Settles O35: one lemma for each outcome of the two owning blocks. -/
theorem runnersAreStartedAndResumed : Obligations.RunnersAreStartedAndResumed := by
  constructor
  case left =>
    intro s p r hs f k
    have same (v : State) (hv : v.runners = s.runners) : v.canStart k = s.canStart k := by
      unfold State.canStart
      rw [hv]
    have begun := same _ (beginService_runners p s)
    refine ⟨fun h => ⟨_, exec_startCue s, ?number⟩, fun h ha => ⟨_, exec_startCue s, ?address⟩,
      fun h ha hx => ⟨_, exec_startCue s, ?starts⟩, fun h ha hi hf => ⟨_, exec_startCue s, ?active⟩⟩
    case number =>
      exact serve_refused hs (by decide) (startCueBody_outOfRange p (firstBad_pair_first (within_above h)))
    case address =>
      exact serve_refused hs (by decide) (startCueBody_outOfRange p (firstBad_pair_second (within_upto h) (within_above ha)))
    case starts =>
      exact serve_done _ hs (startCueBody_starts p (firstBad_pair_none (within_upto h) (within_upto ha))
        (begun.trans (canStart_true hx))) (startRunner_begun ..)
    case active =>
      exact serve_refused hs (by decide) (startCueBody_active p (firstBad_pair_none (within_upto h) (within_upto ha))
        (begun.trans (canStart_false hi hf)))
  case right =>
    intro s p r hs n option k x
    refine ⟨fun h ho hx => ?retry, fun h ho hx hp => ?skip, fun h ho hx hp => ?past, fun h ho hx => ?other⟩
    case retry => exact serve_resumeCue hs h (Nat.le_of_eq ho |>.trans (by decide)) hx _ (if_neg (by omega))
    case skip => exact serve_resumeCue hs h (Nat.le_of_eq ho) hx _ ((if_pos ho).trans (Nat.min_eq_right hp))
    case past =>
      refine serve_resumeCue hs h (Nat.le_of_eq ho) hx _ ((if_pos ho).trans ?_)
      rw [show s.runners[k].position = 1024 from hp]
      rfl
    case other =>
      exact ⟨_, exec_resumeCue s, serve_refused hs (by decide) (resumeCueBody_other p h ho
        (by rw [beginService_runners]; exact hx))⟩

end Sys2Proof.Machine
end

section
/-! PROOFS. The execution of entries (R136, R137, R139). -/

namespace Sys2Proof.Machine

/-! ### The tests before an execution -/

section
variable {s : State} {r : Fin 4} {kind : CueKind}

/-- R139: the spin limit is the first test. -/
theorem cueEvent_spin (hx : s.runners[r].state = .running) (hk : (s.entryAt r).kind = kind) (run : CueEntry → State → State)
    (h : 64 ≤ s.runners[r].spin) : s.cueEvent kind run r = s.faultRunner r .spin (some 0) := by
  unfold State.cueEvent
  dsimp only
  rw [if_pos ⟨hx, hk⟩]
  exact if_pos h

/-- R139: the position past the store is the second test. -/
theorem cueEvent_address (hx : s.runners[r].state = .running) (hk : (s.entryAt r).kind = kind)
    (run : CueEntry → State → State) (h : s.runners[r].spin < 64) (hp : 1024 ≤ s.runners[r].position) :
    s.cueEvent kind run r = s.faultRunner r .address (some 0) := by
  unfold State.cueEvent
  dsimp only
  rw [if_pos ⟨hx, hk⟩]
  exact (if_neg (Nat.not_le.2 h)).trans (if_pos hp)

/-- R139: an EMPTY entry is the third test. -/
theorem cueEvent_empty (hx : s.runners[r].state = .running) (hk : (s.entryAt r).kind = .empty)
    (run : CueEntry → State → State) (h : s.runners[r].spin < 64) (hp : s.runners[r].position < 1024) :
    s.cueEvent .empty run r = s.faultRunner r .emptyEntry (some 0) := by
  unfold State.cueEvent
  dsimp only
  rw [if_pos ⟨hx, hk⟩]
  exact (if_neg (Nat.not_le.2 h)).trans ((if_neg (Nat.not_le.2 hp)).trans (if_pos hk))

/-- R130: the event of each kind of entry carries out the tests and then the execution of that kind. -/
theorem exec_entry (s : State) {c : Instr} (h : (c, kind) ∈ [(Instr.emptyEntry r, CueKind.empty), (.cueTakeScene r, .takeScene),
      (.cueTakeLayout r, .takeLayout), (.cueRevert r, .revert), (.cueWindowTake r, .windowTake), (.cueFreeze r, .freeze),
      (.cueSetPulse r, .setPulse), (.cueCapture r, .capture), (.cueReleaseStill r, .releaseStill), (.cueRotate r, .rotate),
      (.cueRequalify r, .requalify), (.waitPictures r, .waitPictures), (.waitTime r, .waitTime),
      (.waitQualified r, .waitQualified), (.jump r, .jump), (.call r, .call), (.returnEntry r, .ret), (.haltEntry r, .halt)]) :
    ∃ run : CueEntry → State → State, exec c s = .next (s.cueEvent kind run r) := by
  simp only [List.mem_cons, Prod.mk.injEq, List.not_mem_nil, or_false] at h
  rcases h with ⟨rfl, rfl⟩ | ⟨rfl, rfl⟩ | ⟨rfl, rfl⟩ | ⟨rfl, rfl⟩ | ⟨rfl, rfl⟩ | ⟨rfl, rfl⟩ | ⟨rfl, rfl⟩ | ⟨rfl, rfl⟩ |
    ⟨rfl, rfl⟩ | ⟨rfl, rfl⟩ | ⟨rfl, rfl⟩ | ⟨rfl, rfl⟩ | ⟨rfl, rfl⟩ | ⟨rfl, rfl⟩ | ⟨rfl, rfl⟩ | ⟨rfl, rfl⟩ | ⟨rfl, rfl⟩ |
    ⟨rfl, rfl⟩ <;> exact ⟨_, rfl⟩

end

/-- Settles O37: `exec_entry` and one lemma for each test. -/
theorem executionIsTestedFirst : Obligations.ExecutionIsTestedFirst := by
  intro s r c kind hx hk hc
  obtain ⟨run, event⟩ := exec_entry s hc
  refine ⟨fun h => ⟨_, event, ?spin⟩, fun h hp => ⟨_, event, ?address⟩, fun h hp he => ⟨_, event, ?empty⟩⟩
  case spin =>
    rw [cueEvent_spin hx hk run h]
    exact faultRunner_same ..
  case address =>
    rw [cueEvent_address hx hk run h hp]
    exact faultRunner_same ..
  case empty =>
    subst he
    rw [cueEvent_empty hx hk run h hp]
    exact faultRunner_same ..

/-! ### JUMP, CALL, RETURN and HALT -/

section
variable {s : State} {r : Fin 4} {e : CueEntry}

/-- R136: CALL with room on the stack. -/
theorem callEntry_moves (h : s.runners[r].stack.length < 4) :
    s.callEntry r e = s.moveRunner r e.op1 (s.runners[r].stack ++ [s.runners[r].position + 1]) := if_neg (Nat.not_le.2 h)

/-- R136: CALL with a full stack. -/
theorem callEntry_overflows (h : 4 ≤ s.runners[r].stack.length) :
    s.callEntry r e = s.faultRunner r .stackOverflow (some e.op1) := if_pos h

/-- R137: RETURN to the address pushed last. -/
theorem returnFrom_moves {stack : List Nat} {a : Nat} (h : s.runners[r].stack = stack ++ [a]) :
    s.returnFrom r = s.moveRunner r a stack := by
  unfold State.returnFrom
  rw [h, List.getLast?_concat, List.dropLast_concat]

/-- R137: RETURN with an empty stack. -/
theorem returnFrom_underflows (h : s.runners[r].stack = []) : s.returnFrom r = s.faultRunner r .stackUnderflow (some 0) := by
  unfold State.returnFrom
  rw [h]
  rfl

end

/-- Settles O38: `cueEvent_of` and the effect of each kind. -/
theorem jumpCallReturnAndHalt : Obligations.JumpCallReturnAndHalt := by
  intro s r e x
  refine ⟨fun he => ?jump, fun he hl => ?call, fun he hl => ?overflow, fun stack a he hl => ?ret, fun he hl => ?underflow,
    fun he => ?halt⟩
  case jump =>
    rw [exec_jump, cueEvent_of he nofun, State.jumpEntry, moveRunner_eq]
  case call =>
    rw [exec_call, cueEvent_of he nofun, callEntry_moves hl, moveRunner_eq]
  case overflow =>
    refine ⟨_, exec_call s r, ?_⟩
    rw [cueEvent_of he nofun, callEntry_overflows hl]
    exact faultRunner_same ..
  case ret =>
    rw [exec_returnEntry, cueEvent_of he nofun, returnFrom_moves hl, moveRunner_eq]
  case underflow =>
    refine ⟨_, exec_returnEntry s r, ?_⟩
    rw [cueEvent_of he nofun, returnFrom_underflows hl]
    exact faultRunner_same ..
  case halt =>
    refine ⟨_, exec_haltEntry s r, ?_⟩
    rw [cueEvent_of he nofun]
    exact haltRunner_same ..

end Sys2Proof.Machine
end

section
/-! PROOFS. The begin and the end of waits (R132 to R135). -/

namespace Sys2Proof.Machine

section
variable {s : State} {r : Fin 4} {e : CueEntry}

/-- R134: WAIT TIME with a valid time base. -/
theorem waitTimeEntry_valid (h : s.time.valid = true) : s.waitTimeEntry r e = s.enterWait r (.time e.op1) := if_pos h

/-- R134: WAIT TIME without one. -/
theorem waitTimeEntry_unset (h : s.time.valid = false) : s.waitTimeEntry r e = s.faultRunner r .timeUnset (some 0) :=
  if_neg (by rw [h]; nofun)

/-- R135: WAIT QUALIFIED for a QUALIFIED source. -/
theorem waitQualifiedEntry_goes (h : s.sources[Fin.ofNat 16 e.op1].state = .qualified) :
    s.waitQualifiedEntry r e = s.advanceRunner r := if_pos h

/-- R135: WAIT QUALIFIED for another source. -/
theorem waitQualifiedEntry_waits (h : s.sources[Fin.ofNat 16 e.op1].state ≠ .qualified) : s.waitQualifiedEntry r e =
    s.enterWait r (.qualified (Fin.ofNat 16 e.op1) (StopOption.ofNum e.op3) (1000 * e.op2)) := if_neg h

/-- R133: the last tick of a count. -/
theorem countEnds_due {k : Cadence} {n : Nat} (h : s.runners[r].state = .waiting (.pictures k n true)) :
    s.countEnds r = s.endWait r := by
  unfold State.countEnds
  rw [h]

/-- R135: the timer under FAULT. -/
theorem timerExpires_faults {i : Fin 16} {n : Nat} (h : s.runners[r].state = .waiting (.qualified i .fault n)) :
    s.timerExpires r = s.faultRunner r .waitTimeout (some i.val) := by
  unfold State.timerExpires
  rw [h]

/-- R135: the timer under CONTINUE. -/
theorem timerExpires_continues {i : Fin 16} {n : Nat} (h : s.runners[r].state = .waiting (.qualified i .continue n)) :
    s.timerExpires r = s.endWait r := by
  unfold State.timerExpires
  rw [h]

/-- R132: the result of a job that came to its end. -/
theorem resultTaken_ends {n : Word16} (h : s.runners[r].state = .waiting (.takeDone n (some .complete)) ∨
    s.runners[r].state = .waiting (.takeDone n (some .partialResult))) : s.resultTaken r = s.endWait r := by
  unfold State.resultTaken
  rcases h with h | h <;> rw [h]

/-- R132: the result of an aborted job. -/
theorem resultTaken_faults {n : Word16} (h : s.runners[r].state = .waiting (.takeDone n (some .aborted))) :
    s.resultTaken r = s.faultRunner r .takeAborted (some n.toNat) := by
  unfold State.resultTaken
  rw [h]

end

/-- Settles O39: `cueEvent_of` for the wait entries, and one lemma for each end of a wait. -/
theorem waitsBeginAndEnd : Obligations.WaitsBeginAndEnd := by
  constructor
  case left =>
    intro s r e x
    refine ⟨fun he => ⟨_, exec_waitPictures s r, ?pictures⟩, fun he ht => ⟨_, exec_waitTime s r, ?time⟩,
      fun he ht => ⟨_, exec_waitTime s r, ?unset⟩, fun he hq => ?goes, fun he hq => ⟨_, exec_waitQualified s r, ?waits⟩⟩
    case pictures =>
      rw [cueEvent_of he nofun]
      exact enterWait_same ..
    case time =>
      rw [cueEvent_of he nofun, waitTimeEntry_valid ht]
      exact enterWait_same ..
    case unset =>
      rw [cueEvent_of he nofun, waitTimeEntry_unset ht]
      exact faultRunner_same ..
    case goes => rw [exec_waitQualified, cueEvent_of he nofun, waitQualifiedEntry_goes hq, advanceRunner_eq]
    case waits =>
      rw [cueEvent_of he nofun, waitQualifiedEntry_waits hq]
      exact enterWait_same ..
  case right =>
    intro s r x
    refine ⟨fun k n h => ⟨_, exec_waitPicturesCountEnd s r, ?count⟩,
      fun i n h => ⟨_, exec_waitQualifiedTimerExpiry s r, ?timeout⟩,
      fun i n h => ⟨_, exec_waitQualifiedTimerExpiry s r, ?expiry⟩, fun n h => ⟨_, exec_takeResultTaken s r, ?ends⟩,
      fun n h => ⟨_, exec_takeResultTaken s r, ?aborted⟩⟩
    case count =>
      rw [countEnds_due h]
      exact endWait_same ..
    case timeout =>
      rw [timerExpires_faults h]
      exact faultRunner_same ..
    case expiry =>
      rw [timerExpires_continues h]
      exact endWait_same ..
    case ends =>
      rw [resultTaken_ends h]
      exact endWait_same ..
    case aborted =>
      rw [resultTaken_faults h]
      exact faultRunner_same ..

end Sys2Proof.Machine
end

section
/-! PROOFS. The entries that act as requests (R130). -/

namespace Sys2Proof.Machine

/-! ### How the requests leave the runners, and the part at a refusal -/

section
variable {s : State} {f : List Nat} {code : Code} {detail : Option Nat}

/-- R90: a SHOWING screen is enabled and has an active context. -/
theorem Screen.showing_active {y : Screen} (h : y.state = .showing) : y.enabled = true ∧ ∃ x : Context, y.active = some x := by
  unfold Screen.state at h
  cases he : y.enabled <;> cases ha : y.active <;> simp [he, ha] at h ⊢

/-- R87: a window that the screen does not show, and one that it shows. -/
theorem shows_or (s : State) (c : Fin 24) (n : Nat) : s.screens[c].state ≠ .showing ∨
    (∃ x : Context, s.screens[c].enabled = true ∧ s.screens[c].active = some x ∧
      x.windows.find? (fun y => y.copy.number = n) = none) ∨ ∃ (x : Context) (w : LiveWindow), s.Shows c n x w := by
  by_cases showing : s.screens[c].state = .showing
  · obtain ⟨enabled, x, active⟩ := Screen.showing_active showing
    cases found : x.windows.find? fun y => y.copy.number = n with
    | none => exact .inr (.inl ⟨x, enabled, active, found⟩)
    | some w => exact .inr (.inr ⟨x, w, enabled, active, found⟩)
  · exact .inl showing

/-- R87: a request on a window that is refused changes nothing. -/
theorem onWindow_refused {c : Fin 24} {n : Nat} {act : Context → LiveWindow → State × Answer}
    (ha : ∀ (x : Context) (w : LiveWindow), (act x w).2 = .refused code detail → (act x w).1 = s)
    (h : (s.onWindow c n act).2 = .refused code detail) : (s.onWindow c n act).1 = s := by
  rcases shows_or s c n with dark | ⟨x, enabled, active, absent⟩ | ⟨x, w, shows⟩
  · rw [onWindow_notShowing dark]
  · rw [onWindow_noWindow enabled active absent]
  · rw [onWindow_found shows] at h ⊢
    exact ha x w h

/-- R96: a refused WINDOW TAKE. -/
theorem windowTakeFields_refused (h : (windowTakeFields f s).2 = .refused code detail) : (windowTakeFields f s).1 = s := by
  unfold windowTakeFields at h ⊢
  cases k : firstBad 0 (windowTakeTests f) with
  | some i => rfl
  | none =>
    rw [k] at h
    exact onWindow_refused (fun _ _ => nofun) h

/-- R88: a refused FREEZE. -/
theorem freezeFields_refused (h : (freezeFields f s).2 = .refused code detail) : (freezeFields f s).1 = s := by
  unfold freezeFields at h ⊢
  cases k : firstBad 0 (freezeTests f) with
  | some i => rfl
  | none =>
    rw [k] at h
    exact onWindow_refused (fun _ _ => nofun) h

/-- R89: a refused SET PULSE. -/
theorem setPulseFields_refused (h : (setPulseFields f s).2 = .refused code detail) : (setPulseFields f s).1 = s := by
  unfold setPulseFields at h ⊢
  cases k : firstBad 0 (setPulseTests f) with
  | some i => rfl
  | none =>
    rw [k] at h
    refine onWindow_refused (fun x w hw => ?_) h
    split at hw
    · next b => rw [if_pos b]
    · cases hw

/-- R46: a refused CAPTURE. -/
theorem captureFields_refused (h : (captureFields f s).2 = .refused code detail) : (captureFields f s).1 = s := by
  unfold captureFields at h ⊢
  cases k : firstBad 0 (captureTests f) with
  | some i => rfl
  | none =>
    rw [k] at h
    dsimp only at h ⊢
    split at h
    · next eligible =>
      rw [if_pos eligible]
      cases ready : s.readySlot (Fin.ofNat 16 (fld f 1)) with
      | some slot =>
        rw [ready] at h
        cases h
      | none => rfl
    · next other => rw [if_neg other]

/-- R47: a refused RELEASE STILL. -/
theorem releaseStillFields_refused (h : (releaseStillFields f s).2 = .refused code detail) :
    (releaseStillFields f s).1 = s := by
  unfold releaseStillFields at h ⊢
  split at h
  · next k => rw [if_pos k]
  · next k =>
    rw [if_neg k]
    dsimp only at h ⊢
    cases still : s.stills[Fin.ofNat 4 (fld f 0)] with
    | none => rfl
    | some slot =>
      rw [still] at h
      cases h

/-- R30: a refused REQUALIFY. -/
theorem requalifyFields_refused (h : (requalifyFields f s).2 = .refused code detail) : (requalifyFields f s).1 = s := by
  unfold requalifyFields at h ⊢
  split at h
  · next k => rw [if_pos k]
  · cases h

/-- R107: a refused ROTATE has not searched its list. -/
theorem rotateFields_refused (h : (rotateFields f s).2.1 = .refused code detail) :
    (rotateFields f s).1 = s ∧ (rotateFields f s).2.2 = false := by
  cases k : firstBad 0 (rotateTests f) with
  | some i =>
    unfold rotateFields
    rw [k]
    exact ⟨rfl, rfl⟩
  | none =>
    rcases shows_or s (Fin.ofNat 24 (fld f 0)) (fld f 1) with dark | ⟨x, enabled, active, absent⟩ | ⟨x, w, shows⟩
    · refine ⟨(rotateFields_notShowing k dark).1, ?_⟩
      unfold rotateFields
      rw [k]
      dsimp only
      rw [decide_eq_false dark, Bool.false_and]
    · refine ⟨(rotateFields_noWindow k enabled active absent).1, ?_⟩
      have none : (s.activeWindows (Fin.ofNat 24 (fld f 0))).find? (fun y => y.copy.number = fld f 1) = none := by
        unfold State.activeWindows
        rw [active]
        exact absent
      unfold rotateFields
      rw [k]
      dsimp only
      rw [none, Bool.and_false]
    · exfalso
      cases search : rotateSearch s s.rotations[Fin.ofNat 8 (fld f 2)] w.current with
      | none =>
        rw [(rotateFields_exhausted k shows search).2] at h
        cases h
      | some y =>
        rw [(rotateFields_taken k shows search).2] at h
        cases h

end

/-! ### The entries -/

/-- What a request does that an entry may act as: it leaves the runners, and it changes nothing when it is refused. -/
def ActsApart (act : List Nat → State → State × Answer) : Prop := ∀ (f : List Nat) (s : State),
  (act f s).1.runners = s.runners ∧
    ∀ (code : Code) (detail : Option Nat), (act f s).2 = .refused code detail → (act f s).1 = s

/-- R130: an entry that acts as a request: its event, and what its request does. -/
theorem exec_actAs {r : Fin 4} {kind : CueKind} {c : Instr} {act : List Nat → State → State × Answer}
    (h : (kind, c, act) ∈ [(CueKind.windowTake, Instr.cueWindowTake r, windowTakeFields), (.freeze, .cueFreeze r, freezeFields),
      (.setPulse, .cueSetPulse r, setPulseFields), (.capture, .cueCapture r, captureFields),
      (.releaseStill, .cueReleaseStill r, releaseStillFields), (.requalify, .cueRequalify r, requalifyFields)]) :
    kind ≠ .empty ∧ ActsApart act ∧ ∀ s : State, exec c s = .next (s.cueEvent kind (State.actAs act r) r) := by
  simp only [List.mem_cons, Prod.mk.injEq, List.not_mem_nil, or_false] at h
  rcases h with ⟨rfl, rfl, rfl⟩ | ⟨rfl, rfl, rfl⟩ | ⟨rfl, rfl, rfl⟩ | ⟨rfl, rfl, rfl⟩ | ⟨rfl, rfl, rfl⟩ | ⟨rfl, rfl, rfl⟩
  · exact ⟨nofun, fun f s => ⟨by simp, fun _ _ => windowTakeFields_refused⟩, fun s => exec_cueWindowTake s r⟩
  · exact ⟨nofun, fun f s => ⟨by simp, fun _ _ => freezeFields_refused⟩, fun s => exec_cueFreeze s r⟩
  · exact ⟨nofun, fun f s => ⟨by simp, fun _ _ => setPulseFields_refused⟩, fun s => exec_cueSetPulse s r⟩
  · exact ⟨nofun, fun f s => ⟨by simp, fun _ _ => captureFields_refused⟩, fun s => exec_cueCapture s r⟩
  · exact ⟨nofun, fun f s => ⟨by simp, fun _ _ => releaseStillFields_refused⟩, fun s => exec_cueReleaseStill s r⟩
  · exact ⟨nofun, fun f s => ⟨by simp, fun _ _ => requalifyFields_refused⟩, fun s => exec_cueRequalify s r⟩

section
variable {s u : State} {r : Fin 4}

/-- R130: after a request that was carried out the runner goes on. -/
theorem followRequest_done {result : List Byte} (h : u.runners = s.runners) :
    State.followRequest r (u, .done result) = u.withRunner r s.runners[r].next := by
  rw [← h]
  exact advanceRunner_eq r u

/-- R130: after a refusal the runner faults with the condition. -/
theorem followRequest_refused (s : State) (r : Fin 4) (code : Code) (detail : Option Nat) :
    ∃ d n : Nat, (∀ x, detail = some x → d = x ∧ n = s.freeCount) ∧
      SameButMarks (State.followRequest r (s, .refused code detail))
        ({ s with freeCount := n }.withRunner r (s.runners[r].faultedWith code d s.time.seconds)) :=
  faultRunner_drawn r code detail s

/-- R108: an exhausted search under FAULT. -/
theorem rotateEntry_exhausted {e : CueEntry} (h : (rotateFields e.operands s).2.2 = true) (ho : e.op4 = 0) :
    s.rotateEntry r e = s.faultRunner r .rotationExhausted (some e.op3) := if_pos ⟨h, if_pos ho⟩

/-- R130: any other ROTATE entry acts as the request. -/
theorem rotateEntry_follows {e : CueEntry} (h : (rotateFields e.operands s).2.2 = false ∨ e.op4 ≠ 0) :
    s.rotateEntry r e = State.followRequest r ((rotateFields e.operands s).1, (rotateFields e.operands s).2.1) := by
  refine if_neg fun both => ?_
  obtain ⟨exhausted, stop⟩ := both
  rcases h with h | h
  · rw [h] at exhausted
    cases exhausted
  · rw [StopOption.ofNum, if_neg h] at stop
    cases stop

end

/-- Settles O40: (1) by `exec_actAs`; (2) by the two lemmas on ROTATE entries and `rotateFields_refused`. -/
theorem entriesActAsRequestsDo : Obligations.EntriesActAsRequestsDo := by
  refine ⟨fun s r e kind c act hc he => ?acts, fun s r e he u result exhausted hu => ⟨fun hx ho => ?exhausted, fun hx => ?goes⟩,
    fun s r e he u code detail exhausted hu => ?refused⟩
  case acts =>
    obtain ⟨kept, apart, event⟩ := exec_actAs hc
    have executed : exec c s = .next (State.followRequest r (act e.operands s)) := by rw [event, cueEvent_of he kept]; rfl
    obtain ⟨runners, same⟩ := apart e.operands s
    refine ⟨fun u result hu => ⟨_, executed, ?_⟩, fun u code detail hu => ?_⟩
    · rw [hu] at runners ⊢
      rw [followRequest_done runners]
      exact .refl _
    · rw [hu] at same executed
      obtain rfl : u = s := same code detail rfl
      obtain ⟨d, n, drawn, faulted⟩ := followRequest_refused u r code detail
      exact ⟨_, d, n, executed, drawn, faulted⟩
  case exhausted =>
    refine ⟨_, exec_cueRotate s r, ?_⟩
    rw [cueEvent_of he nofun, rotateEntry_exhausted (by rw [hu]; exact hx) ho]
    exact faultRunner_same ..
  case goes =>
    have runners : (rotateFields e.operands s).1.runners = s.runners := by simp
    refine ⟨_, exec_cueRotate s r, ?_⟩
    rw [cueEvent_of he nofun, rotateEntry_follows (by rw [hu]; exact hx)]
    rw [hu] at runners ⊢
    rw [followRequest_done runners]
    exact .refl _
  case refused =>
    have refusal : (rotateFields e.operands s).2.1 = .refused code detail := by rw [hu]
    obtain ⟨same, searched⟩ := rotateFields_refused refusal
    obtain ⟨d, n, drawn, faulted⟩ := followRequest_refused s r code detail
    refine ⟨_, d, n, exec_cueRotate s r, drawn, ?_⟩
    rw [cueEvent_of he nofun, rotateEntry_follows (.inl searched), same, refusal]
    exact faulted

end Sys2Proof.Machine
end

section
/-! PROOFS. The take engine's share among the runners (R124, R125, R131). -/

namespace Sys2Proof.Machine

/-! ### The submission of a take -/

section
variable {s u : State} {r : Fin 4} {take : Take}

/-- R131: a take that is refused faults its runner. -/
theorem submitTake_refused {code : Code} {d : Nat} (h : s.accept (.runner r) take = .error (code, d)) (granted : Bool) :
    SameButMarks (s.submitTake r take granted) (s.withRunner r (s.runners[r].faultedWith code d s.time.seconds)) := by
  unfold State.submitTake
  rw [h]
  exact faultRunner_same ..

/-- R131: a take whose job is in progress. -/
theorem submitTake_begins (h : s.accept (.runner r) take = .ok u) (hu : u.runners = s.runners)
    (hb : u.engineBusy = true) (granted : Bool) :
    SameButMarks (s.submitTake r take granted) (u.withRunner r (if take.waitComplete = true then
      s.runners[r].waitingFor (.takeDone u.serial none) else if granted then s.runners[r].resumed else s.runners[r].next)) := by
  unfold State.submitTake
  rw [h]
  dsimp only
  rw [hb, Bool.and_true, ← hu]
  split
  · exact enterWait_same ..
  · split
    · exact endWait_same ..
    · exact .of_eq (advanceRunner_eq ..)

/-- R131: a take whose job is DONE within its acceptance. -/
theorem submitTake_ends (h : s.accept (.runner r) take = .ok u) (hu : u.runners = s.runners)
    (hb : u.engineBusy = false) (granted : Bool) :
    SameButMarks (s.submitTake r take granted) (u.withRunner r (if granted then s.runners[r].resumed else s.runners[r].next)) := by
  unfold State.submitTake
  rw [h]
  dsimp only
  rw [hb, Bool.and_false, if_neg Bool.false_ne_true, ← hu]
  split
  · exact endWait_same ..
  · exact .of_eq (advanceRunner_eq ..)

end

/-! ### The offer to the waiting runners -/

/-- A runner that does not wait for the engine. -/
def Runner.NoGrant (x : Runner) : Prop := ∀ take : Take, x.state ≠ .waiting (.takeGrant take)

section
variable {s t u : State} {r : Fin 4} {x : Runner} {take : Take}

/-- R124: a runner that does not wait for the engine is not in the waiting set. -/
theorem waitingTake_noGrant (h : s.runners[r].NoGrant) : s.waitingTake r = none := by
  unfold State.waitingTake
  split
  · next take hs => exact absurd hs (h take)
  · rfl

/-- R124: a runner of the waiting set waits for the engine. -/
theorem state_of_waitingTake (h : s.waitingTake r = some take) : s.runners[r].state = .waiting (.takeGrant take) := by
  unfold State.waitingTake at h
  split at h
  · next other hs =>
    cases h
    exact hs
  · cases h

/-- R125: once the first waiting runner waits no more, no runner up to it does. -/
theorem noneWaits_upto (same : SameButMarks t (u.withRunner r x)) (hu : u.runners = s.runners)
    (hl : ∀ q : Fin 4, q < r → s.waitingTake q = none) (hx : x.NoGrant) : ∀ q : Fin 4, q ≤ r → t.waitingTake q = none := by
  intro q hq
  rw [same.waitingTake]
  rcases eq_or_ne q r with rfl | other
  · refine waitingTake_noGrant ?_
    change (put u.runners q x)[q].NoGrant
    rw [put_same]
    exact hx
  · rw [← hl q (lt_of_le_of_ne hq other)]
    have kept : (u.withRunner r x).runners[q] = s.runners[q] := by
      change (put u.runners r x)[q] = s.runners[q]
      rw [put_other _ _ other.symm, hu]
    unfold State.waitingTake
    rw [kept]

/-- R125: the offer of an engine that is IDLE, when the runner that it goes to waits for it no more. -/
theorem offerEngine_submits (hb : s.engineBusy = false) (hw : s.waitingTake r = some take)
    (hl : ∀ q : Fin 4, q < r → s.waitingTake q = none) (same : SameButMarks (s.submitTake r take true) (u.withRunner r x))
    (hu : u.runners = s.runners) (hx : x.NoGrant) : s.offerEngine = (s.submitTake r take true).offerEngine :=
  offerEngine_first hb hw hl (noneWaits_upto same hu hl hx)

end

/-! ### The entries -/

/-- R131: the events of the take entries. -/
theorem exec_takeEntry {r : Fin 4} {e : CueEntry} {kind : CueKind} {c : Instr} {take : Take}
    (h : (kind, c, take) ∈ [(CueKind.takeScene, Instr.cueTakeScene r, Take.scene (Fin.ofNat 32 e.op1) (e.op2 = 1)),
      (.takeLayout, .cueTakeLayout r, .layout (Fin.ofNat 24 e.op1) (Fin.ofNat 128 e.op2) (e.op3 = 1)),
      (.revert, .cueRevert r, .revert (Fin.ofNat 24 e.op1) (e.op2 = 1))]) {s : State} (he : s.Executes kind r e) :
    exec c s = .next (if s.engineBusy then s.enterWait r (.takeGrant take) else (s.submitTake r take false).offerEngine) := by
  simp only [List.mem_cons, Prod.mk.injEq, List.not_mem_nil, or_false] at h
  rcases h with ⟨rfl, rfl, rfl⟩ | ⟨rfl, rfl, rfl⟩ | ⟨rfl, rfl, rfl⟩
  · rw [exec_cueTakeScene, cueEvent_of he nofun, State.takeEntry]
  · rw [exec_cueTakeLayout, cueEvent_of he nofun, State.takeEntry]
  · rw [exec_cueRevert, cueEvent_of he nofun, State.takeEntry]

/-- Settles O41: the submission of a take by its three lemmas, the offer by `offerEngine_submits`. -/
theorem takeEntriesShareTheEngine : Obligations.TakeEntriesShareTheEngine := by
  refine ⟨fun s r e kind c take hc he => ?entry, fun s h => h.elim offerEngine_of_busy offerEngine_of_noneWaits,
    fun s r take hb hw hl => ?offer⟩
  case entry =>
    have event := exec_takeEntry hc he
    have runners {u : State} (ha : s.accept (.runner r) take = .ok u) : u.runners = s.runners :=
      accept_runners ha fun n => by rw [he.1]; nofun
    refine ⟨fun hb => ?waits, fun u hb ha hu => ?begins, fun u hb ha hu => ?ends, fun code d hb ha => ?refused⟩
    case waits =>
      rw [if_pos hb] at event
      exact ⟨_, event, enterWait_same ..⟩
    all_goals rw [hb, if_neg Bool.false_ne_true] at event
    case begins =>
      have same := submitTake_begins ha (runners ha) hu false
      have busy : (s.submitTake r take false).engineBusy = true := same.engineBusy.trans hu
      rw [offerEngine_of_busy busy] at event
      exact ⟨_, event, same⟩
    case ends => exact ⟨_, event, submitTake_ends ha (runners ha) hu false⟩
    case refused => exact ⟨_, event, submitTake_refused ha false⟩
  case offer =>
    have runners {u : State} (ha : s.accept (.runner r) take = .ok u) : u.runners = s.runners :=
      accept_runners ha fun n => by rw [state_of_waitingTake hw]; nofun
    refine ⟨fun u ha hu => ?begins, fun u ha hu => ?ends, fun code d ha => ?refused⟩
    case begins =>
      have same := submitTake_begins ha (runners ha) hu true
      have busy : (s.submitTake r take true).engineBusy = true := same.engineBusy.trans hu
      rw [offerEngine_submits hb hw hl same (runners ha) (by split <;> exact nofun), offerEngine_of_busy busy]
      exact same
    case ends =>
      have same := submitTake_ends ha (runners ha) hu true
      exact ⟨_, offerEngine_submits hb hw hl same (runners ha) nofun, same⟩
    case refused =>
      have same := submitTake_refused ha true
      exact ⟨_, offerEngine_submits hb hw hl same rfl nofun, same⟩

end Sys2Proof.Machine
end

section
/-! PROOFS. ABORT TAKE (R122). -/

namespace Sys2Proof.Machine

/-! ### The offer after a request -/

section
variable {s t u : State} {p : Fin 16} {r : Fin 4}

/-- What a change that does not look at the ports makes of the part once a service has begun, the ports and the port served
last left out. -/
theorem rest_begun (f : State → State) (hf : ∀ (v : State) (q : Fin 16) (ps : Vector Port 16),
    f { v with served := q, ports := ps } = { f v with served := q, ports := ps }) (same : SameButMarks u (f (s.beginService p))) :
    { u with ports := s.ports, served := s.served } = { f s with ports := s.ports, served := s.served } := by
  have rest := (sameButMarks_iff.1 (same.trans (begun_same f hf p s))).2
  exact (congrArg (fun v : State => { v with ports := s.ports, served := s.served }) rest :)

/-- R124: a runner that is not in the waiting set does not wait for the engine. -/
theorem noGrant_of_waitingTake (h : s.waitingTake r = none) : s.runners[r].NoGrant := fun take hs => by
  unfold State.waitingTake at h
  rw [hs] at h
  cases h

/-- R119: the end of a job leaves nobody waiting for the engine that did not wait. -/
theorem noneWaits_handed {j : Job} {result : JobResult} (h : s.NoneWaits)
    (hu : u.runners = Vector.ofFn fun q => s.runners[q].handed j result q) : u.NoneWaits := fun q => by
  refine waitingTake_noGrant fun take hs => ?_
  rw [hu, ofFn_get, handed_waits] at hs
  exact noGrant_of_waitingTake (h q) take hs

end

/-! ### The request -/

section
variable {s : State} {ps : List Byte}

/-- R122: no job in progress. -/
theorem abortTakeBody_idle (p : Fin 16) (h : s.engineBusy = false) :
    abortTakeBody p ps s = unchanged s (.refused .noTake none) := by
  unfold abortTakeBody
  rw [currentJob_none h]

/-- R122: a job in progress. -/
theorem abortTakeBody_aborts (p : Fin 16) {j : Job} (h : s.currentJob = some j) : abortTakeBody p ps s =
    ⟨s.abortJob.offerEngine, .done (byte2 j.serial.toNat ++ byte1 (j.members.countP (·.outcome = .pending))), id⟩ := by
  unfold abortTakeBody
  rw [h]

/-- R122: the part as an abort of the job leaves it. -/
def State.aborted (s : State) (j : Job) : State := { s with
  job := some { j with members := j.members.map Member.abort, phase := .done, result := some .aborted }
  screens := Vector.ofFn fun c => { s.screens[c] with
    standby := if s.pendingMember c = true then s.screens[c].standby.aborted j.kind else s.screens[c].standby }
  runners := Vector.ofFn fun q => s.runners[q].handed j .aborted q }

end

/-- Settles O32: `abortJob_same`, and `serve_offered` for the reply. -/
theorem abortTakeEndsTheJob : Obligations.AbortTakeEndsTheJob := by
  intro s p r hs
  refine ⟨fun hb => ⟨_, exec_abortTake s, ?idle⟩, fun j hj hp => ?aborts⟩
  case idle =>
    exact serve_refused hs (by decide) (abortTakeBody_idle p ((engineBusy_congr (beginService_job p s)).trans hb))
  case aborts =>
    have current : (s.beginService p).currentJob = some j := by
      rw [beginService_currentJob]
      exact currentJob_some.2 ⟨hj, hp⟩
    have same : SameButMarks (s.beginService p).abortJob ((s.beginService p).aborted j) := abortJob_same current
    have served : (s.beginService p).abortJob.served = p := (SameButMarks.served same :)
    have rest := rest_begun (fun v => v.aborted j) (fun _ _ _ => rfl) same
    unfold State.aborted at rest
    dsimp only at rest
    have answered := serve_offered hs (abortTakeBody_aborts p current) (abortJob_bare _) served
    have runners : (s.beginService p).abortJob.runners = Vector.ofFn fun q => s.runners[q].handed j .aborted q :=
      (SameButMarks.runners same :)
    exact ⟨_, _, exec_abortTake s, answered, rest, fun none => offerEngine_of_noneWaits (noneWaits_handed none runners)⟩

end Sys2Proof.Machine
end

section
/-! PROOFS. REVERT (R115). -/

namespace Sys2Proof.Machine

/-! ### The acceptance of a REVERT -/

/-- R113: a new job. -/
theorem newJob_same (kind : JobKind) (q : Requester) (phase : Phase) (ms : List Member) (s : State) :
    SameButMarks (s.newJob kind q phase ms) { s with
      serial := s.serial + 1
      job := some ⟨s.serial + 1, kind, q, ms, phase, none⟩ } :=
  setJob_same _ { s with serial := s.serial + 1 }

/-- R119: the end of a port's job is handed to no runner. -/
theorem handed_port (runners : Vector Runner 4) {j : Job} {p : Fin 16} (h : j.requester = .port p) (result : JobResult) :
    (Vector.ofFn fun q => runners[q].handed j result q) = runners := by
  refine table_ext fun q => ?_
  rw [ofFn_get]
  unfold Runner.handed
  rw [h]
  exact if_neg fun k => by cases k.1

/-- R114: the result of an accepted take, from the job. -/
theorem takeResult_of {u : State} {j : Job} (h : u.job = some j) (counted : MemberOutcome) :
    takeResult counted u = byte2 j.serial.toNat ++ byte1 j.kind.num ++ byte1 j.members.length ++
      byte1 (j.members.countP (·.outcome = counted)) ++ byte1 j.phase.num := by
  unfold takeResult
  rw [h]

/-- R115: a screen at the acceptance of a REVERT of the given screens. -/
def State.rearmed (s : State) (cs : List (Fin 24)) (c : Fin 24) : Screen :=
  if c ∈ cs ∧ (s.revertMember c).outcome = .pending then s.screens[c].rearm else s.screens[c]

section
variable {s : State} {q : Requester} {cs : List (Fin 24)}

/-- R115: the job of a REVERT, before it is tested for its end. -/
theorem rearmed_same (s : State) (q : Requester) (cs : List (Fin 24)) :
    SameButMarks (((cs.map s.revertMember).foldl State.armPrevious s).newJob .revert q .armed (cs.map s.revertMember)) { s with
      serial := s.serial + 1
      job := some ⟨s.serial + 1, .revert, q, cs.map s.revertMember, .armed, none⟩
      screens := Vector.ofFn (s.rearmed cs) } := by
  have counted (c : Fin 24) : ((cs.map s.revertMember).any fun m => m.screen = c && m.outcome = .pending) = true ↔
      c ∈ cs ∧ (s.revertMember c).outcome = .pending := by
    rw [List.any_map, List.any_eq_true]
    constructor
    · rintro ⟨d, hd, k⟩
      simp only [Function.comp, Bool.and_eq_true, decide_eq_true_eq] at k
      obtain ⟨rfl, pending⟩ := k
      exact ⟨hd, pending⟩
    · rintro ⟨hc, pending⟩
      refine ⟨c, hc, ?_⟩
      simp only [Function.comp, Bool.and_eq_true, decide_eq_true_eq]
      exact ⟨rfl, pending⟩
  have screens := armPrevious_same (cs.map s.revertMember) s
  simp only [counted] at screens
  have made := newJob_same .revert q .armed (cs.map s.revertMember) ((cs.map s.revertMember).foldl State.armPrevious s)
  rw [screens.serial] at made
  exact made.trans (screens.with (fun v => { v with
    serial := s.serial + 1
    job := some ⟨s.serial + 1, .revert, q, cs.map s.revertMember, .armed, none⟩ }) fun _ _ => rfl)

/-- R115: the acceptance of a REVERT with a PENDING member. -/
theorem acceptRevert_pending (h : ∃ c ∈ cs, (s.revertMember c).outcome = .pending) :
    SameButMarks (s.acceptRevert q cs) { s with
      serial := s.serial + 1
      job := some ⟨s.serial + 1, .revert, q, cs.map s.revertMember, .armed, none⟩
      screens := Vector.ofFn (s.rearmed cs) } := by
  obtain ⟨c, hc, pending⟩ := h
  exact (rearmed_same s q cs).settle_going rfl nofun ⟨_, List.mem_map_of_mem hc, pending⟩

/-- R115, R119: the acceptance of a REVERT without a PENDING member. -/
theorem acceptRevert_ended {p : Fin 16} (h : ∀ c ∈ cs, (s.revertMember c).outcome ≠ .pending) (hc : cs ≠ []) :
    SameButMarks (s.acceptRevert (.port p) cs) { s with
      serial := s.serial + 1
      job := some ⟨s.serial + 1, .revert, .port p, cs.map s.revertMember, .done, some .partialResult⟩ } := by
  have pending : ∀ m ∈ cs.map s.revertMember, m.outcome ≠ .pending := fun m hm => by
    obtain ⟨c, hc, rfl⟩ := List.mem_map.1 hm
    exact h c hc
  have swapped : ∃ m ∈ cs.map s.revertMember, m.outcome ≠ .swapped := by
    obtain ⟨c, rest, rfl⟩ := List.exists_cons_of_ne_nil hc
    refine ⟨s.revertMember c, List.mem_cons_self, ?_⟩
    unfold State.revertMember
    dsimp only
    split
    · nofun
    · split <;> nofun
  have ended := (rearmed_same s (.port p) cs).settle_ended rfl nofun swapped pending
  have screens : Vector.ofFn (s.rearmed cs) = s.screens := table_ext fun c => by
    rw [ofFn_get]
    exact if_neg fun k => h c k.1 k.2
  dsimp only at ended
  rw [screens, handed_port s.runners rfl] at ended
  exact ended

end

end Sys2Proof.Machine
end

section
/-! PROOFS. The answers to REVERT (R115). -/

namespace Sys2Proof.Machine

section
variable {s : State} {ps : List Byte}

/-- R115: the fields of a REVERT that fail a test. -/
theorem revertBody_bad (p : Fin 16) {c : Code} {d : Nat} (h : revertBad (ps.map (·.toNat)) = some (c, d)) :
    revertBody p ps s = unchanged s (.refused c (some d)) := by
  unfold revertBody
  dsimp only
  rw [h]

/-- R115: a REVERT while the engine is BUSY. -/
theorem revertBody_busy (p : Fin 16) (h : revertBad (ps.map (·.toNat)) = none) (hb : s.engineBusy = true) :
    revertBody p ps s = unchanged s .busy := by
  unfold revertBody
  dsimp only
  rw [h]
  exact if_pos hb

/-- R115: a REVERT that is accepted. -/
theorem revertBody_accepts (p : Fin 16) (h : revertBad (ps.map (·.toNat)) = none) (hb : s.engineBusy = false) :
    let u := s.acceptRevert (.port p) (((ps.map (·.toNat)).drop 1).map (Fin.ofNat 24))
    revertBody p ps s = ⟨u.offerEngine, .done (takeResult .pending u), id⟩ := by
  unfold revertBody
  dsimp only
  rw [h]
  exact if_neg (by rw [hb]; nofun)

/-- R115: a REVERT names at least one screen. -/
theorem revert_names {p : Fin 16} {r : Request} (hs : s.Serves 27 p r) (h : revertBad (r.params.map (·.toNat)) = none) :
    ((r.params.map (·.toNat)).drop 1).map (Fin.ofNat 24) ≠ [] := by
  obtain ⟨_, code, pass⟩ := hs
  have length := requiredLength_of_pass pass
  rw [code] at length
  have count : within 1 24 (fld (r.params.map (·.toNat)) 0) = true := by
    by_contra bad
    unfold revertBad at h
    rw [Bool.not_eq_true] at bad
    rw [bad] at h
    cases h
  rw [fld_map_toNat, within_eq_true] at count
  intro none
  rw [List.map_eq_nil_iff, List.drop_eq_nil_iff, List.length_map] at none
  simp only [requiredLength] at length
  split at length
  · have := Option.some.inj length
    omega
  · cases length

variable {cs : List (Fin 24)}

/-- R114: how many members of a REVERT are PENDING. -/
theorem countP_revertMembers (s : State) (cs : List (Fin 24)) :
    (cs.map s.revertMember).countP (·.outcome = .pending) = cs.countP fun c => (s.revertMember c).outcome = .pending := by
  rw [List.countP_map]
  rfl

/-- R115: the members of a REVERT are the same once its service has begun. -/
theorem revertMember_beginService (s : State) (p : Fin 16) (c : Fin 24) :
    (s.beginService p).revertMember c = s.revertMember c := by
  unfold State.revertMember
  rw [beginService_screens]

variable {p : Fin 16} {r : Request}

/-- R115: the answer to a REVERT with a PENDING member. -/
theorem serve_revert_pending (hs : s.Serves 27 p r) (h : revertBad (r.params.map (·.toNat)) = none)
    (hb : s.engineBusy = false) :
    let cs := ((r.params.map (·.toNat)).drop 1).map (Fin.ofNat 24)
    (∃ c ∈ cs, (s.revertMember c).outcome = .pending) →
    AnsweredAs s (s.serve 27 revertBody) { s with
      serial := s.serial + 1
      job := some ⟨s.serial + 1, .revert, .port p, cs.map s.revertMember, .armed, none⟩
      screens := Vector.ofFn (s.rearmed cs) } p r .done
      (byte2 (s.serial + 1).toNat ++ byte1 2 ++ byte1 cs.length ++
        byte1 (cs.countP fun c => (s.revertMember c).outcome = .pending) ++ byte1 1) := by
  intro cs pending
  have same : SameButMarks ((s.beginService p).acceptRevert (.port p) cs) _ := acceptRevert_pending (by
    simp only [revertMember_beginService]
    exact pending)
  have job : ((s.beginService p).acceptRevert (.port p) cs).job =
      some ⟨s.serial + 1, .revert, .port p, cs.map s.revertMember, .armed, none⟩ := (SameButMarks.job same :)
  have busy : ((s.beginService p).acceptRevert (.port p) cs).engineBusy = true := engineBusy_of job nofun
  have begun := same.trans (begun_same (fun v => { v with
    serial := v.serial + 1
    job := some ⟨v.serial + 1, .revert, .port p, cs.map v.revertMember, .armed, none⟩
    screens := Vector.ofFn (v.rearmed cs) }) (fun _ _ _ => rfl) p s)
  refine serve_done _ hs ((revertBody_accepts p h ((engineBusy_congr (beginService_job p s)).trans hb)).trans ?_) begun
  rw [offerEngine_of_busy busy, takeResult_of job]
  dsimp only
  rw [countP_revertMembers, List.length_map]
  rfl

/-- R115, R119: the answer to a REVERT without a PENDING member. -/
theorem serve_revert_ended (hs : s.Serves 27 p r) (h : revertBad (r.params.map (·.toNat)) = none)
    (hb : s.engineBusy = false) :
    let cs := ((r.params.map (·.toNat)).drop 1).map (Fin.ofNat 24)
    (∀ c ∈ cs, (s.revertMember c).outcome ≠ .pending) →
    ∃ u : State, AnsweredAs s (s.serve 27 revertBody) u.offerEngine p r .done
      (byte2 (s.serial + 1).toNat ++ byte1 2 ++ byte1 cs.length ++ byte1 0 ++ byte1 3) ∧
      { u with ports := s.ports, served := s.served } = { s with
        serial := s.serial + 1
        job := some ⟨s.serial + 1, .revert, .port p, cs.map s.revertMember, .done, some .partialResult⟩ } := by
  intro cs pending
  have none : cs.countP (fun c => (s.revertMember c).outcome = .pending) = 0 :=
    List.countP_eq_zero.2 fun c hc => by simpa using pending c hc
  have same : SameButMarks ((s.beginService p).acceptRevert (.port p) cs) _ :=
    acceptRevert_ended (by simp only [revertMember_beginService]; exact pending) (revert_names hs h)
  have job : ((s.beginService p).acceptRevert (.port p) cs).job =
      some ⟨s.serial + 1, .revert, .port p, cs.map s.revertMember, .done, some .partialResult⟩ := (SameButMarks.job same :)
  have served : ((s.beginService p).acceptRevert (.port p) cs).served = p := (SameButMarks.served same :)
  have rest := rest_begun (fun v => { v with
    serial := v.serial + 1
    job := some ⟨v.serial + 1, .revert, .port p, cs.map v.revertMember, .done, some .partialResult⟩ }) (fun _ _ _ => rfl) same
  have body := revertBody_accepts p h ((engineBusy_congr (beginService_job p s)).trans hb)
  dsimp only at body rest
  rw [takeResult_of job] at body
  dsimp only at body
  rw [countP_revertMembers, none, List.length_map] at body
  exact ⟨_, serve_offered hs body (acceptRevert_bare ..) served, rest⟩

end

/-- Settles O31: `serve_revert_pending` and `serve_revert_ended`. -/
theorem revertArmsThePreviousContexts : Obligations.RevertArmsThePreviousContexts := by
  intro s p r hs f screens
  have engine := engineBusy_congr (beginService_job p s)
  refine ⟨fun c d h => ⟨_, exec_revert s, serve_refused hs (by decide) (revertBody_bad p h)⟩,
    fun h hb => ⟨_, exec_revert s, serve_busy hs (revertBody_busy p h (engine.trans hb))⟩, fun h hb hx => ?previous,
    fun h hb => ?general⟩
  case previous =>
    have outcome : ∀ c ∈ screens, s.revertMember c = ⟨c, none, none, .pending⟩ := fun c hc => by
      obtain ⟨enabled, x, previous⟩ := hx c hc
      have on : s.screens[c].state ≠ .disabled := fun k => by
        rw [Screen.state_disabled, enabled] at k
        cases k
      unfold State.revertMember
      rw [if_neg on, previous]
    obtain ⟨c, rest, names⟩ := List.exists_cons_of_ne_nil (revert_names hs h)
    have answered := serve_revert_pending hs h hb ⟨c, by rw [names]; exact List.mem_cons_self, by
      rw [outcome c (by change c ∈ List.map _ _; rw [names]; exact List.mem_cons_self)]⟩
    have members : screens.map s.revertMember = screens.map fun c => ⟨c, none, none, .pending⟩ := List.map_congr_left outcome
    have count : screens.countP (fun c => (s.revertMember c).outcome = .pending) = screens.length :=
      List.countP_eq_length.2 fun c hc => by rw [outcome c hc]; rfl
    have written : (s.serve 27 revertBody).screens = Vector.ofFn (s.rearmed screens) := (SameButMarks.screens answered :)
    change AnsweredAs _ _ { s with job := some ⟨_, _, _, screens.map _, _, _⟩, serial := _, screens := Vector.ofFn (s.rearmed screens) }
      _ _ _ (byte2 _ ++ byte1 2 ++ byte1 screens.length ++ byte1 (screens.countP _) ++ byte1 1) at answered
    rw [members, count] at answered
    refine ⟨_, exec_revert s, ?_, fun c x hc hy => ?_, fun c hc => ?_⟩
    · rw [written]
      exact answered
    · rw [written, ofFn_get, State.rearmed, if_pos ⟨hc, by rw [outcome c hc]⟩, Screen.rearm_previous hy]
    · rw [written, ofFn_get, State.rearmed, if_neg fun k => hc k.1]
  case general =>
    intro outcome job armed reply
    have outcomes : ∀ c, (s.revertMember c).outcome = outcome c := fun c => by
      unfold State.revertMember
      simp only [Screen.state_disabled]
      rfl
    have members : screens.map s.revertMember = screens.map fun c => ⟨c, none, none, outcome c⟩ :=
      List.map_congr_left fun c _ => by rw [← outcomes c]; rfl
    have screen : s.rearmed screens = armed := funext fun c => by
      change s.rearmed screens c = match s.screens[c].standby with
        | .previous x => if c ∈ screens ∧ outcome c = .pending then { s.screens[c] with standby := .armed x } else s.screens[c]
        | .empty | .loaded _ | .armed _ => s.screens[c]
      unfold State.rearmed
      rw [outcomes]
      cases b : s.screens[c].standby with
      | previous x => rw [Screen.rearm_previous b]
      | empty | loaded _ | armed _ => rw [Screen.rearm_other (by rw [b]; exact nofun), ite_self]
    refine ⟨fun pending => ?pending, fun none => ?ended⟩
    case pending =>
      have answered := serve_revert_pending hs h hb (by simp only [outcomes]; exact pending)
      simp only [outcomes] at answered
      rw [members, screen] at answered
      exact ⟨_, exec_revert s, answered⟩
    case ended =>
      obtain ⟨u, answered, rest⟩ := serve_revert_ended hs h hb (by simp only [outcomes]; exact none)
      rw [members] at rest
      exact ⟨_, u, exec_revert s, answered, rest⟩

end Sys2Proof.Machine
end

section
/-! PROOFS. TAKE SCENE and TAKE LAYOUT (R114). -/

namespace Sys2Proof.Machine

/-! ### The acceptance of a list of members -/

section
variable {s : State} {ms : Scene}

/-- R114: no member's layout is empty. -/
theorem emptyLayoutAt_none (h : ∀ y ∈ ms, s.library[y.2] ≠ none) : s.emptyLayoutAt ms = none := by
  unfold State.emptyLayoutAt
  exact List.findIdx?_eq_none_iff.2 fun y hy => by rw [Option.isNone_eq_false_iff, Option.isSome_iff_ne_none]; exact h y hy

/-- R114: the first member whose layout is empty. -/
theorem emptyLayoutAt_first {i : Nat} (h : ∃ y, ms[i]? = some y ∧ s.library[y.2] = none)
    (hl : ∀ j < i, ∀ y, ms[j]? = some y → s.library[y.2] ≠ none) : s.emptyLayoutAt ms = some i := by
  obtain ⟨y, hy, empty⟩ := h
  obtain ⟨below, entry⟩ := List.getElem?_eq_some_iff.1 hy
  unfold State.emptyLayoutAt
  refine List.findIdx?_eq_some_iff_getElem.2 ⟨below, by rw [entry, empty]; rfl, fun j hj => ?_⟩
  have full := hl j hj _ (List.getElem?_eq_getElem (Nat.lt_trans hj below))
  simpa using full

/-- R114: a new member's screen decides its outcome. -/
theorem newMember_eq (s : State) (y : Fin 24 × Fin 128) : s.newMember y =
    ⟨y.1, some y.2, some .notBegun, if s.screens[y.1].enabled = true then .pending else .skippedDisabled⟩ := by
  unfold State.newMember
  rw [ite_congr (propext Screen.state_disabled) (fun _ => rfl) fun _ => rfl]
  cases s.screens[y.1].enabled <;> rfl

/-- R114: a new member whose screen is enabled. -/
theorem newMember_enabled {y : Fin 24 × Fin 128} (h : s.screens[y.1].enabled = true) :
    s.newMember y = ⟨y.1, some y.2, some .notBegun, .pending⟩ := by
  rw [newMember_eq, h]
  rfl

/-- R114: a new member whose screen is DISABLED. -/
theorem newMember_disabled {y : Fin 24 × Fin 128} (h : s.screens[y.1].enabled = false) :
    s.newMember y = ⟨y.1, some y.2, some .notBegun, .skippedDisabled⟩ := by
  rw [newMember_eq, h]
  rfl

/-- R114: no load of a new job is in progress. -/
theorem newMembers_notInProgress (s : State) (ms : Scene) : ∀ m ∈ ms.map s.newMember, m.loadIs .inProgress = false := by
  intro m hm
  obtain ⟨y, _, rfl⟩ := List.mem_map.1 hm
  unfold Member.loadIs
  rw [newMember_eq]
  exact Bool.and_false _

/-- R117: no load of a DISABLED screen's member begins. -/
theorem newMembers_disabled (h : ∀ y ∈ ms, s.screens[y.1].enabled = false) :
    ∀ m ∈ ms.map s.newMember, m.loadIs .notBegun = false := by
  intro m hm
  obtain ⟨y, hy, rfl⟩ := List.mem_map.1 hm
  rw [newMember_disabled (h y hy)]
  rfl

/-- R114: how many new members are SKIPPED-DISABLED. -/
theorem countP_newMembers (s : State) (ms : Scene) : (ms.map s.newMember).countP (·.outcome = .skippedDisabled) =
    ms.countP fun y => s.screens[y.1].enabled = false := by
  rw [List.countP_map]
  refine List.countP_congr fun y _ => ?_
  simp only [Function.comp, decide_eq_true_eq]
  rw [newMember_eq]
  cases s.screens[y.1].enabled <;> simp

variable {skipped rest : Scene} {m : Fin 24 × Fin 128} {kind : JobKind} {q : Requester} {p : Fin 16}

/-- R114, R116: a job with an enabled screen is LOADING its first member. -/
theorem acceptMembers_begins (hl : ∀ y ∈ skipped ++ m :: rest, s.library[y.2] ≠ none)
    (hd : ∀ y ∈ skipped, s.screens[y.1].enabled = false) (he : s.screens[m.1].enabled = true) :
    ∃ u : State, s.acceptMembers kind q (skipped ++ m :: rest) = .ok u ∧ SameButMarks u { s with
      serial := s.serial + 1
      job := some ⟨s.serial + 1, kind, q,
        skipped.map s.newMember ++ ⟨m.1, some m.2, some .inProgress, .pending⟩ :: rest.map s.newMember, .loading, none⟩ } := by
  unfold State.acceptMembers
  rw [emptyLayoutAt_none hl]
  refine ⟨_, rfl, ?_⟩
  have begins := (newJob_same kind q .loading ((skipped ++ m :: rest).map s.newMember) s).advanceLoading_begins rfl rfl
    (newMembers_notInProgress s _) List.map_append (newMembers_disabled hd) (by rw [newMember_enabled he]; rfl)
  rw [newMember_enabled he] at begins
  exact begins

/-- R114, R119: a job with every screen DISABLED is DONE within its acceptance. -/
theorem acceptMembers_ends (hl : ∀ y ∈ ms, s.library[y.2] ≠ none) (hd : ∀ y ∈ ms, s.screens[y.1].enabled = false)
    (hm : ms ≠ []) : ∃ u : State, s.acceptMembers kind (.port p) ms = .ok u ∧ SameButMarks u { s with
      serial := s.serial + 1
      job := some ⟨s.serial + 1, kind, .port p, ms.map s.newMember, .done, some .partialResult⟩
      screens := Vector.ofFn fun c => s.screens[c].armedIn (ms.map (·.1)) c } := by
  unfold State.acceptMembers
  rw [emptyLayoutAt_none hl]
  refine ⟨_, rfl, ?_⟩
  obtain ⟨w, settles, same⟩ := (newJob_same kind (.port p) .loading (ms.map s.newMember) s).advanceLoading_arms rfl rfl
    (newMembers_notInProgress s _) (newMembers_disabled hd)
  have outcome : ∀ x ∈ ms.map s.newMember, x.outcome = .skippedDisabled := fun x hx => by
    obtain ⟨y, hy, rfl⟩ := List.mem_map.1 hx
    rw [newMember_disabled (hd y hy)]
  have swapped : ∃ x ∈ ms.map s.newMember, x.outcome ≠ .swapped := by
    obtain ⟨y, rest, rfl⟩ := List.exists_cons_of_ne_nil hm
    exact ⟨s.newMember y, List.mem_cons_self, by rw [outcome _ List.mem_cons_self]; nofun⟩
  have ended := same.settle_ended rfl nofun swapped fun x hx => by rw [outcome x hx]; nofun
  have screens : (ms.map s.newMember).map (·.screen) = ms.map (·.1) := List.map_map
  dsimp only at ended
  rw [screens, handed_port s.runners rfl, ← settles] at ended
  exact ended

end

end Sys2Proof.Machine
end

section
/-! PROOFS. The answers to TAKE SCENE and TAKE LAYOUT (R114). -/

namespace Sys2Proof.Machine

section
variable {s : State} {p : Fin 16} {take : Take} {ps : List Byte}

/-- R114: a take while the engine is BUSY. -/
theorem requestTake_busy (h : s.engineBusy = true) : requestTake p take s = unchanged s .busy := if_pos h

/-- R114: a take that is refused. -/
theorem requestTake_refused {c : Code} {d : Nat} (h : s.engineBusy = false) (ha : s.accept (.port p) take = .error (c, d)) :
    requestTake p take s = unchanged s (.refused c (some d)) := by
  unfold requestTake
  rw [if_neg (by rw [h]; nofun), ha]

/-- R114: a take that is accepted. -/
theorem requestTake_accepted {u : State} (h : s.engineBusy = false) (ha : s.accept (.port p) take = .ok u) :
    requestTake p take s = ⟨u.offerEngine, .done (takeResult .skippedDisabled u), id⟩ := by
  unfold requestTake
  rw [if_neg (by rw [h]; nofun), ha]

/-- R114: TAKE SCENE of a scene of the table. -/
theorem takeSceneBody_inRange (p : Fin 16) (h : (byteAt ps 0).toNat ≤ 31) :
    takeSceneBody p ps s = requestTake p (.scene (Fin.ofNat 32 (byteAt ps 0).toNat) false) s := if_neg (Nat.not_lt.2 h)

/-- R114: TAKE LAYOUT of an entry of the library to a screen. -/
theorem takeLayoutBody_inRange (p : Fin 16) (h : (byteAt ps 0).toNat ≤ 23) (he : (byteAt ps 1).toNat ≤ 127) :
    takeLayoutBody p ps s =
      requestTake p (.layout (Fin.ofNat 24 (byteAt ps 0).toNat) (Fin.ofNat 128 (byteAt ps 1).toNat) false) s := by
  obtain ⟨number, entry⟩ := fld_two_bytes ps
  simp only [takeLayoutBody, number, entry, firstBad_pair_none (within_upto h) (within_upto he)]

/-- R114: the take of an empty scene. -/
theorem accept_emptyScene {n : Fin 32} {w : Bool} {q : Requester} (h : s.scenes[n] = none) :
    s.accept q (.scene n w) = .error (.emptyScene, 0) := by
  unfold State.accept
  dsimp only
  rw [h]

/-- R114: the take of a scene. -/
theorem accept_scene {n : Fin 32} {w : Bool} {q : Requester} {ms : Scene} (h : s.scenes[n] = some ms) :
    s.accept q (.scene n w) = s.acceptMembers (.scene n) q ms := by
  unfold State.accept
  dsimp only
  rw [h]

/-- R114: a member whose layout is empty. -/
theorem acceptMembers_empty {kind : JobKind} {q : Requester} {ms : Scene} {i : Nat} (h : s.emptyLayoutAt ms = some i) :
    s.acceptMembers kind q ms = .error (.emptyLayout, i) := by
  unfold State.acceptMembers
  rw [h]

end

/-! ### A take of a port -/

/-- R114: the request r of port p, of the given code, takes the given members in a job of the given kind. -/
structure TakesMembers (s : State) (p : Fin 16) (r : Request) (code : Nat) (body : Fin 16 → List Byte → State → Served)
    (kind : JobKind) (ms : Scene) : Prop where
  serves : s.Serves code p r
  idle : s.engineBusy = false
  takes : ∃ take : Take, body p r.params (s.beginService p) = requestTake p take (s.beginService p) ∧
    (s.beginService p).accept (.port p) take = (s.beginService p).acceptMembers kind (.port p) ms

section
variable {s : State} {p : Fin 16} {r : Request} {code : Nat} {body : Fin 16 → List Byte → State → Served} {kind : JobKind}
  {ms skipped rest : Scene} {m : Fin 24 × Fin 128}

/-- R114: a take that finds an empty layout. -/
theorem TakesMembers.refused (h : TakesMembers s p r code body kind ms) (hc : code ≠ 43) {i : Nat}
    (hi : s.emptyLayoutAt ms = some i) : RefusedAs s (s.serve code body) p r .emptyLayout (some i) := by
  obtain ⟨serves, idle, take, served, accepts⟩ := h
  have empty : (s.beginService p).emptyLayoutAt ms = some i := by
    unfold State.emptyLayoutAt
    rw [beginService_library]
    exact hi
  exact serve_refused serves hc (served.trans (requestTake_refused ((engineBusy_congr (beginService_job p s)).trans idle)
    (accepts.trans (acceptMembers_empty empty))))

/-- R114: a take that is accepted. -/
theorem TakesMembers.accepted (h : TakesMembers s p r code body kind ms) {u : State} {j : Job}
    (hu : (s.beginService p).acceptMembers kind (.port p) ms = .ok u) (hj : u.job = some j) :
    body p r.params (s.beginService p) = ⟨u.offerEngine, .done (byte2 j.serial.toNat ++ byte1 j.kind.num ++
      byte1 j.members.length ++ byte1 (j.members.countP (·.outcome = .skippedDisabled)) ++ byte1 j.phase.num), id⟩ := by
  obtain ⟨_, idle, take, served, accepts⟩ := h
  rw [served, requestTake_accepted ((engineBusy_congr (beginService_job p s)).trans idle) (accepts.trans hu), takeResult_of hj]

/-- R114, R116: the answer to a take with an enabled screen. -/
theorem TakesMembers.begins (h : TakesMembers s p r code body kind (skipped ++ m :: rest))
    (hl : ∀ y ∈ skipped ++ m :: rest, s.library[y.2] ≠ none) (hd : ∀ y ∈ skipped, s.screens[y.1].enabled = false)
    (he : s.screens[m.1].enabled = true) : AnsweredAs s (s.serve code body) { s with
      serial := s.serial + 1
      job := some ⟨s.serial + 1, kind, .port p,
        skipped.map s.newMember ++ ⟨m.1, some m.2, some .inProgress, .pending⟩ :: rest.map s.newMember, .loading, none⟩ }
      p r .done (byte2 (s.serial + 1).toNat ++ byte1 kind.num ++ byte1 (skipped ++ m :: rest).length ++
        byte1 ((skipped ++ m :: rest).countP fun y => s.screens[y.1].enabled = false) ++ byte1 0) := by
  obtain ⟨u, accepted, same⟩ := acceptMembers_begins (s := s.beginService p) (kind := kind) (q := .port p)
    (by rw [beginService_library]; exact hl) (by rw [beginService_screens]; exact hd) (by rw [beginService_screens]; exact he)
  have begun := same.trans (begun_same (fun v => { v with
    serial := v.serial + 1
    job := some ⟨v.serial + 1, kind, .port p,
      skipped.map v.newMember ++ ⟨m.1, some m.2, some .inProgress, .pending⟩ :: rest.map v.newMember, .loading, none⟩ })
    (fun _ _ _ => rfl) p s)
  have job : u.job = some ⟨s.serial + 1, kind, .port p,
      skipped.map s.newMember ++ ⟨m.1, some m.2, some .inProgress, .pending⟩ :: rest.map s.newMember, .loading, none⟩ :=
    (SameButMarks.job begun :)
  have length : (skipped.map s.newMember ++ ⟨m.1, some m.2, some .inProgress, .pending⟩ :: rest.map s.newMember).length =
      (skipped ++ m :: rest).length := by simp
  have count : (skipped.map s.newMember ++ ⟨m.1, some m.2, some .inProgress, .pending⟩ :: rest.map s.newMember).countP
      (·.outcome = .skippedDisabled) = (skipped ++ m :: rest).countP fun y => s.screens[y.1].enabled = false := by
    rw [List.countP_append, List.countP_append, countP_newMembers, List.countP_cons_of_neg (by nofun), countP_newMembers,
      List.countP_cons_of_neg (by rw [he]; nofun)]
  have answer := h.accepted accepted job
  rw [offerEngine_of_busy (engineBusy_of job nofun)] at answer
  dsimp only at answer
  rw [length, count] at answer
  exact serve_done _ h.serves answer begun

/-- R114: the answer to a take with every screen enabled. -/
theorem TakesMembers.begins_enabled (h : TakesMembers s p r code body kind (m :: rest))
    (hy : ∀ y ∈ m :: rest, s.library[y.2] ≠ none ∧ s.screens[y.1].enabled = true) :
    AnsweredAs s (s.serve code body) { s with
      serial := s.serial + 1
      job := some ⟨s.serial + 1, kind, .port p, ⟨m.1, some m.2, some .inProgress, .pending⟩ ::
        rest.map fun y => ⟨y.1, some y.2, some .notBegun, .pending⟩, .loading, none⟩ } p r .done
      (byte2 (s.serial + 1).toNat ++ byte1 kind.num ++ byte1 (rest.length + 1) ++ byte1 0 ++ byte1 0) := by
  have answered := TakesMembers.begins (skipped := []) h (fun y k => (hy y k).1) nofun (hy m List.mem_cons_self).2
  have members : rest.map s.newMember = rest.map fun y => ⟨y.1, some y.2, some .notBegun, .pending⟩ :=
    List.map_congr_left fun y k => newMember_enabled (hy y (List.mem_cons_of_mem _ k)).2
  have count : (m :: rest).countP (fun y => s.screens[y.1].enabled = false) = 0 :=
    List.countP_eq_zero.2 fun y k => by rw [(hy y k).2]; nofun
  rw [List.nil_append, List.map_nil, List.nil_append, members, count] at answered
  exact answered

/-- R114, R119: the answer to a take with every screen DISABLED. -/
theorem TakesMembers.ends (h : TakesMembers s p r code body kind ms) (hl : ∀ y ∈ ms, s.library[y.2] ≠ none)
    (hd : ∀ y ∈ ms, s.screens[y.1].enabled = false) (hm : ms ≠ []) :
    ∃ u : State, AnsweredAs s (s.serve code body) u.offerEngine p r .done
      (byte2 (s.serial + 1).toNat ++ byte1 kind.num ++ byte1 ms.length ++
        byte1 (ms.countP fun y => s.screens[y.1].enabled = false) ++ byte1 3) ∧
      { u with ports := s.ports, served := s.served } = { s with
        serial := s.serial + 1
        job := some ⟨s.serial + 1, kind, .port p, ms.map s.newMember, .done, some .partialResult⟩
        screens := Vector.ofFn fun c => s.screens[c].armedIn (ms.map (·.1)) c } := by
  obtain ⟨u, accepted, same⟩ := acceptMembers_ends (s := s.beginService p) (kind := kind) (p := p)
    (by rw [beginService_library]; exact hl) (by rw [beginService_screens]; exact hd) hm
  have job : u.job = some ⟨s.serial + 1, kind, .port p, ms.map s.newMember, .done, some .partialResult⟩ :=
    (SameButMarks.job same :)
  have served : u.served = p := (SameButMarks.served same :)
  have rest := rest_begun (fun v => { v with
    serial := v.serial + 1
    job := some ⟨v.serial + 1, kind, .port p, ms.map v.newMember, .done, some .partialResult⟩
    screens := Vector.ofFn fun c => v.screens[c].armedIn (ms.map (·.1)) c }) (fun _ _ _ => rfl) same
  have answer := h.accepted accepted job
  dsimp only at answer rest
  rw [List.length_map, countP_newMembers] at answer
  obtain ⟨take, _, accepts⟩ := h.takes
  exact ⟨u, serve_offered h.serves answer (accept_bare (accepts.trans accepted)) served, rest⟩

end

/-- Settles O30: both requests are `TakesMembers`, whose answers are `TakesMembers.begins` and `TakesMembers.ends`. -/
theorem takesAreAccepted : Obligations.TakesAreAccepted := by
  have scene {s : State} {p : Fin 16} {r : Request} {ms : Scene} (hs : s.Serves 25 p r) (hn : (byteAt r.params 0).toNat ≤ 31)
      (hb : s.engineBusy = false) (h : s.scenes[Fin.ofNat 32 (byteAt r.params 0).toNat] = some ms) :
      TakesMembers s p r 25 takeSceneBody (.scene (Fin.ofNat 32 (byteAt r.params 0).toNat)) ms :=
    ⟨hs, hb, _, takeSceneBody_inRange p hn, accept_scene (by rw [beginService_scenes]; exact h)⟩
  have layout {s : State} {p : Fin 16} {r : Request} (hs : s.Serves 26 p r) (hn : (byteAt r.params 0).toNat ≤ 23)
      (he : (byteAt r.params 1).toNat ≤ 127) (hb : s.engineBusy = false) : TakesMembers s p r 26 takeLayoutBody .layout
      [(Fin.ofNat 24 (byteAt r.params 0).toNat, Fin.ofNat 128 (byteAt r.params 1).toNat)] :=
    ⟨hs, hb, _, takeLayoutBody_inRange p hn he, rfl⟩
  constructor
  case left =>
    intro s p r n e accepted
    have engine := engineBusy_congr (beginService_job p s)
    refine ⟨fun hs hn hb => ⟨_, exec_takeScene s, ?sceneBusy⟩, fun hs hn hb hm => ⟨_, exec_takeScene s, ?emptyScene⟩,
      fun m rest hs hn hb hm hy => ⟨_, exec_takeScene s, (scene hs hn hb hm).begins_enabled hy⟩,
      fun ms i hs hn hb hm hy hj => ⟨_, exec_takeScene s, (scene hs hn hb hm).refused (by decide) (emptyLayoutAt_first hy hj)⟩,
      fun hs hn he hb => ⟨_, exec_takeLayout s, ?layoutBusy⟩, fun hs hn he hb hl => ⟨_, exec_takeLayout s, ?emptyLayout⟩,
      fun hs hn he hb hl hx => ⟨_, exec_takeLayout s, (layout hs hn he hb).begins_enabled fun y hy => ?layout⟩⟩
    case sceneBusy => exact serve_busy hs ((takeSceneBody_inRange p hn).trans (requestTake_busy (engine.trans hb)))
    case emptyScene =>
      exact serve_refused hs (by decide) ((takeSceneBody_inRange p hn).trans (requestTake_refused (engine.trans hb)
        (accept_emptyScene (by rw [beginService_scenes]; exact hm))))
    case layoutBusy => exact serve_busy hs ((takeLayoutBody_inRange p hn he).trans (requestTake_busy (engine.trans hb)))
    case emptyLayout =>
      exact (layout hs hn he hb).refused (by decide) (emptyLayoutAt_first ⟨_, rfl, hl⟩ nofun)
    case layout =>
      obtain rfl := List.mem_singleton.1 hy
      exact ⟨hl, hx⟩
  case right =>
    intro s p r i kind ms n e h hb hl fresh job reply
    obtain ⟨code, body, takes, event⟩ : ∃ (code : Nat) (body : Fin 16 → List Byte → State → Served),
        TakesMembers s p r code body kind ms ∧ exec i s = .next (s.serve code body) := by
      rcases h with ⟨hs, hn, hm, rfl, rfl⟩ | ⟨hs, hn, he, rfl, rfl, rfl⟩
      · exact ⟨_, _, scene hs hn hb hm, exec_takeScene s⟩
      · exact ⟨_, _, layout hs hn he hb, exec_takeLayout s⟩
    have members : s.newMember = fresh := funext (newMember_eq s)
    refine ⟨fun skipped m rest hm hd he => ?begins, fun hm hd => ?ends⟩
    case begins =>
      subst hm
      have answered := takes.begins hl hd he
      rw [members] at answered
      exact ⟨_, event, answered⟩
    case ends =>
      obtain ⟨u, answered, rest⟩ := takes.ends hl hd hm
      rw [members] at rest
      exact ⟨_, u, event, answered, rest⟩

end Sys2Proof.Machine
end

section
/-! PROOFS. The completion of a load (R116, R117). -/

namespace Sys2Proof.Machine

/-! ### The members -/

section
variable {m : Member} {outcome : MemberOutcome}

/-- R116: what a completion makes of a member. -/
theorem Member.complete_eq (outcome : MemberOutcome) (m : Member) : m.complete outcome =
    if m.outcome = .pending ∧ m.load = some .inProgress then { m with load := some .completed, outcome := outcome } else m := by
  unfold Member.complete Member.loadIs
  refine if_congr ?_ rfl rfl
  rw [Bool.and_eq_true, decide_eq_true_iff, decide_eq_true_iff]

/-- R116: a member whose load is not in progress. -/
theorem Member.complete_other (h : m.loadIs .inProgress = false) : m.complete outcome = m := if_neg (by rw [h]; nofun)

/-- R116: a member whose load is in progress. -/
theorem Member.complete_loading (h : m.loadIs .inProgress = true) :
    m.complete outcome = { m with load := some .completed, outcome := outcome } := if_pos h

/-- R116: a member's load is in progress. -/
theorem Member.loadIs_iff {l : Load} : m.loadIs l = true ↔ m.outcome = .pending ∧ m.load = some l := by
  unfold Member.loadIs
  rw [Bool.and_eq_true, decide_eq_true_iff, decide_eq_true_iff]

/-- R116: a load that may begin is not in progress. -/
theorem Member.notInProgress (h : m.loadIs .notBegun = true) : m.loadIs .inProgress = false := by
  obtain ⟨_, load⟩ := Member.loadIs_iff.1 h
  unfold Member.loadIs
  rw [load]
  exact Bool.and_false _

/-- R116: after a completion no load is in progress. -/
theorem Member.complete_notInProgress (outcome : MemberOutcome) (m : Member) :
    (m.complete outcome).loadIs .inProgress = false := by
  cases h : m.loadIs .inProgress with
  | true =>
    rw [Member.complete_loading h]
    exact Bool.and_false _
  | false =>
    rw [Member.complete_other h]
    exact h

/-- R116: a completion leaves what loads may begin. -/
theorem Member.complete_notBegun (outcome : MemberOutcome) (m : Member) :
    (m.complete outcome).loadIs .notBegun = m.loadIs .notBegun := by
  cases h : m.loadIs .inProgress with
  | true =>
    obtain ⟨_, load⟩ := Member.loadIs_iff.1 h
    rw [Member.complete_loading h]
    unfold Member.loadIs
    rw [load]
    exact (Bool.and_false _).trans (Bool.and_false _).symm
  | false => rw [Member.complete_other h]

/-- R116: a completion leaves the member's screen. -/
theorem Member.complete_screen (outcome : MemberOutcome) (m : Member) : (m.complete outcome).screen = m.screen := by
  unfold Member.complete
  split <;> rfl

end

end Sys2Proof.Machine
end

section
/-! PROOFS. How a job goes on after a load (R116, R117, R119). -/

namespace Sys2Proof.Machine

section
variable {s u v : State} {c : Fin 24} {e : Fin 128} {l : Layout} {j : Job} {outcome : MemberOutcome}

/-- R116: the event of a completion. -/
theorem exec_loadCompletes (h : s.loadInProgress = some (c, e, l)) :
    exec .memberLoadCompletion s = .next (s.loadCompletes c e l) := by
  rw [exec_memberLoadCompletion, h]

/-- R116: the member whose load is in progress. -/
theorem loadInProgress_member (h : s.loadInProgress = some (c, e, l)) (hj : s.job = some j) :
    j.phase ≠ .done ∧ ∃ m ∈ j.members, m.loadIs .inProgress = true ∧ m.screen = c := by
  unfold State.loadInProgress at h
  cases hc : s.currentJob with
  | none => rw [hc] at h; cases h
  | some k =>
    obtain ⟨job, going⟩ := currentJob_some.1 hc
    obtain rfl : k = j := Option.some.inj (job.symm.trans hj)
    rw [hc] at h
    dsimp only at h
    cases hm : k.members.find? (Member.loadIs .inProgress) with
    | none => rw [hm] at h; cases h
    | some m =>
      rw [hm] at h
      dsimp only at h
      cases he : m.layout with
      | none => rw [he] at h; cases h
      | some entry =>
        rw [he] at h
        obtain ⟨layout, _, same⟩ := Option.map_eq_some_iff.1 h
        cases same
        exact ⟨going, m, List.mem_of_find?_eq_some hm, List.find?_some hm, rfl⟩

/-- R116: the load in progress COMPLETED. -/
theorem SameButMarks.completeLoad (same : SameButMarks v u) (hj : u.job = some j) (hp : j.phase ≠ .done)
    (outcome : MemberOutcome) : SameButMarks (v.completeLoad outcome)
      { u with job := some { j with members := j.members.map (Member.complete outcome) } } := by
  have current : v.currentJob = some j := currentJob_some.2 ⟨same.job.trans hj, hp⟩
  unfold State.completeLoad
  rw [current]
  exact (setJob_same ..).trans (same.withJob _)

/-- R116: after a completion no load is in progress. -/
theorem completed_notInProgress (outcome : MemberOutcome) (ms : List Member) :
    ∀ m ∈ ms.map (Member.complete outcome), m.loadIs .inProgress = false := fun m hm => by
  obtain ⟨y, _, rfl⟩ := List.mem_map.1 hm
  exact Member.complete_notInProgress outcome y

/-- R116: a completion leaves which loads may begin. -/
theorem completed_notBegun (outcome : MemberOutcome) {ms : List Member} (h : ∀ m ∈ ms, m.loadIs .notBegun = false) :
    ∀ m ∈ ms.map (Member.complete outcome), m.loadIs .notBegun = false := fun m hm => by
  obtain ⟨y, hy, rfl⟩ := List.mem_map.1 hm
  rw [Member.complete_notBegun, h y hy]

/-- R116: a completion leaves the members' screens. -/
theorem completed_screens (outcome : MemberOutcome) (ms : List Member) :
    (ms.map (Member.complete outcome)).map (·.screen) = ms.map (·.screen) := by
  rw [List.map_map]
  exact List.map_congr_left fun m _ => Member.complete_screen outcome m

/-- R116: after a completion the next load begins. -/
theorem SameButMarks.nextLoad (same : SameButMarks v u) (hj : u.job = some j) (hp : j.phase = .loading)
    {before rest : List Member} {m : Member} (hm : j.members = before ++ m :: rest)
    (hb : ∀ y ∈ before, y.loadIs .notBegun = false) (hl : m.loadIs .notBegun = true) (outcome : MemberOutcome) :
    SameButMarks (v.completeLoad outcome).advanceLoading.offerEngine { u with job := some { j with
      members := before.map (Member.complete outcome) ++
        { m with load := some .inProgress } :: rest.map (Member.complete outcome) } } := by
  have going : j.phase ≠ .done := by rw [hp]; nofun
  have split : j.members.map (Member.complete outcome) =
      before.map (Member.complete outcome) ++ m :: rest.map (Member.complete outcome) := by
    rw [hm, List.map_append, List.map_cons, Member.complete_other (Member.notInProgress hl)]
  have begins := (same.completeLoad hj going outcome).advanceLoading_begins rfl hp (completed_notInProgress outcome _) split
    (completed_notBegun outcome hb) hl
  have job : (v.completeLoad outcome).advanceLoading.job = some _ := (SameButMarks.job begins :)
  rw [offerEngine_of_busy (engineBusy_of job going)]
  exact begins

/-- R117: after the last completion the job is armed while a member is PENDING. -/
theorem SameButMarks.lastLoad_arms (same : SameButMarks v u) (hj : u.job = some j) (hp : j.phase = .loading)
    (hl : ∀ m ∈ j.members, m.loadIs .notBegun = false) (outcome : MemberOutcome)
    (hm : ∃ m ∈ j.members.map (Member.complete outcome), m.outcome = .pending) :
    SameButMarks (v.completeLoad outcome).advanceLoading.offerEngine { u with
      screens := Vector.ofFn fun d => u.screens[d].armedIn (j.members.map (·.screen)) d
      job := some { j with members := j.members.map (Member.complete outcome), phase := .armed } } := by
  obtain ⟨w, settles, armed⟩ := (same.completeLoad hj (by rw [hp]; nofun) outcome).advanceLoading_arms rfl hp
    (completed_notInProgress outcome _) (completed_notBegun outcome hl)
  have settled := armed.settle_going rfl nofun hm
  dsimp only at settled
  rw [← settles, completed_screens] at settled
  have job : (v.completeLoad outcome).advanceLoading.job = some _ := (SameButMarks.job settled :)
  rw [offerEngine_of_busy (engineBusy_of job nofun)]
  exact settled

/-- R117, R119: after the last completion the job is DONE when no member is PENDING. -/
theorem SameButMarks.lastLoad_ends (same : SameButMarks v u) (hj : u.job = some j) (hp : j.phase = .loading)
    (hl : ∀ m ∈ j.members, m.loadIs .notBegun = false) (outcome : MemberOutcome)
    (hs : ∃ m ∈ j.members.map (Member.complete outcome), m.outcome ≠ .swapped)
    (hm : ∀ m ∈ j.members.map (Member.complete outcome), m.outcome ≠ .pending) :
    SameButMarks (v.completeLoad outcome).advanceLoading { u with
      screens := Vector.ofFn fun d => u.screens[d].armedIn (j.members.map (·.screen)) d
      job := some { j with
        members := j.members.map (Member.complete outcome)
        phase := .done
        result := some .partialResult }
      runners := Vector.ofFn fun q => u.runners[q].handed j .partialResult q } := by
  obtain ⟨w, settles, armed⟩ := (same.completeLoad hj (by rw [hp]; nofun) outcome).advanceLoading_arms rfl hp
    (completed_notInProgress outcome _) (completed_notBegun outcome hl)
  have settled := armed.settle_ended rfl nofun hs hm
  dsimp only at settled
  rw [← settles, completed_screens] at settled
  exact settled

/-- R116: a layout that fits. -/
theorem loadCompletes_fits (h : fits l.windows s.screens[c].width s.screens[c].height = true) : s.loadCompletes c e l =
    ((s.setStandby c (.loaded (contextOf e l))).completeLoad .pending).advanceLoading.offerEngine := if_pos h

/-- R116: a layout that does not fit. -/
theorem loadCompletes_rejects (h : fits l.windows s.screens[c].width s.screens[c].height = false) :
    s.loadCompletes c e l = (s.completeLoad .rejectedGeometry).advanceLoading.offerEngine := if_neg (by rw [h]; nofun)

/-- R117: a standby just LOADED is armed with the others. -/
theorem put_loaded_armedIn {y : Context} {holders : List (Fin 24)} (hc : c ∈ holders) :
    (Vector.ofFn fun d => (put s.screens c { s.screens[c] with standby := .loaded y })[d].armedIn holders d) =
      Vector.ofFn fun d => if d = c then { s.screens[c] with standby := .armed y } else s.screens[d].armedIn holders d := by
  refine table_ext fun d => ?_
  rw [ofFn_get, ofFn_get]
  rcases eq_or_ne d c with rfl | other
  · rw [put_same, if_pos rfl]
    exact if_pos hc
  · rw [put_other _ _ other.symm, if_neg other]

end

/-- Settles O33: `SameButMarks.nextLoad`, `SameButMarks.lastLoad_arms` and `SameButMarks.lastLoad_ends`. -/
theorem loadsCompleteIntoTheStandby : Obligations.LoadsCompleteIntoTheStandby := by
  intro s c e l j hl hj hp ended holders
  obtain ⟨_, loading, member, progress, screen⟩ := loadInProgress_member hl hj
  have event := exec_loadCompletes hl
  have same : Member.complete = ended := funext fun outcome => funext fun m => Member.complete_eq outcome m
  have holder : c ∈ holders := List.mem_map.2 ⟨loading, member, screen⟩
  have completed (outcome : MemberOutcome) : ∃ m ∈ j.members.map (Member.complete outcome), m.outcome = outcome :=
    ⟨_, List.mem_map_of_mem member, by rw [Member.complete_loading progress]⟩
  have standby := setStandby_same c (.loaded (contextOf e l)) (.refl s)
  refine ⟨fun before m rest hm hb hk => ?next, fun hn => ⟨fun hf => ?armed, fun hf => ?rejected⟩⟩
  case next =>
    refine ⟨fun hf => ⟨_, event, ?_⟩, fun hf => ⟨_, event, ?_⟩⟩
    · have begins := standby.nextLoad hj hp hm hb hk .pending
      rw [same] at begins
      rw [loadCompletes_fits hf]
      exact begins
    · have begins := (SameButMarks.refl s).nextLoad hj hp hm hb hk .rejectedGeometry
      rw [same] at begins
      rw [loadCompletes_rejects hf]
      exact begins
  case armed =>
    have arms := standby.lastLoad_arms hj hp hn .pending (completed .pending)
    unfold State.withScreen at arms
    dsimp only at arms
    rw [put_loaded_armedIn holder, same] at arms
    exact ⟨_, event, by rw [loadCompletes_fits hf]; exact arms⟩
  case rejected =>
    intro rejected armed
    rw [loadCompletes_rejects hf] at event
    refine ⟨fun hm => ?goes, fun hm => ?ends⟩
    case goes =>
      have arms := (SameButMarks.refl s).lastLoad_arms hj hp hn .rejectedGeometry (by rw [same]; exact hm)
      rw [same] at arms
      exact ⟨_, event, arms⟩
    case ends =>
      obtain ⟨m, hm', outcome⟩ := completed .rejectedGeometry
      have ends := (SameButMarks.refl s).lastLoad_ends hj hp hn .rejectedGeometry ⟨m, hm', by rw [outcome]; nofun⟩
        (by rw [same]; exact hm)
      rw [same] at ends
      exact ⟨_, event, ends⟩

end Sys2Proof.Machine
end

section
/-! PROOFS. The second tick (R134, R148, R151). -/

namespace Sys2Proof.Machine

/-! ### What a second tick makes of the part -/

/-- R148: the time base one second on, the second before midnight apart. -/
theorem advance_eq (t : TimeBase) : t.advance = if t.seconds < 86399 then { t with seconds := t.seconds + 1 }
    else ⟨0, if t.weekday < 6 then t.weekday + 1 else 0, t.valid⟩ := by
  unfold TimeBase.advance
  by_cases midnight : 86399 ≤ t.seconds
  · rw [if_pos midnight, if_neg (Nat.not_lt.2 midnight)]
    by_cases week : 6 ≤ t.weekday
    · rw [if_pos week, if_neg (Nat.not_lt.2 week)]
    · rw [if_neg week, if_pos (Nat.not_le.1 week)]
  · rw [if_neg midnight, if_pos (Nat.not_le.1 midnight)]

/-- R148: the time base stays valid, or not. -/
theorem advance_valid (t : TimeBase) : t.advance.valid = t.valid := by
  unfold TimeBase.advance
  split <;> rfl

section
variable {s : State}

/-- R134: the part once the runners have compared the new seconds with their targets. -/
def State.timesSeen (s : State) : State := (List.finRange 4).foldl State.timeMeets { s with time := s.time.advance }.moveDrops

/-- R134: the comparison leaves all but the runners. -/
theorem timesSeen_rest (s : State) :
    SameButMarks { s.timesSeen with runners := s.runners } { s with time := s.time.advance }.moveDrops := by
  unfold State.timesSeen
  exact (timesMeet_same _).1

/-- R134: each runner has compared the new seconds with its target. -/
theorem timesSeen_runner (s : State) (r : Fin 4) :
    s.timesSeen.runners[r] = s.runners[r].timeSeen s.time.advance.seconds := by
  unfold State.timesSeen
  exact (timesMeet_same _).2 r

/-- R148, R151: the alarms are matched last. -/
theorem secondTick_eq (s : State) : s.secondTick = s.timesSeen.matchAlarms := rfl

/-- R151: without a valid time base no alarm acts. -/
theorem matchAlarms_invalid (h : s.time.valid = false) : s.matchAlarms = s := if_neg (by rw [h]; nofun)

/-- R151: alarms change the alarms and the runners only. -/
theorem matchAlarms_rest (s : State) : SameButMarks { s.matchAlarms with alarms := s.alarms, runners := s.runners } s := by
  unfold State.matchAlarms
  split
  · exact ((alarms_start s).all (SameButMarks.refl s)).1
  · exact .refl s

/-- R148: a second tick changes the time base, the drops, the alarms and the runners only. -/
theorem secondTick_rest (s : State) : SameButMarks { s.secondTick with alarms := s.alarms, runners := s.runners }
    { s with time := s.time.advance }.moveDrops :=
  ((matchAlarms_rest s.timesSeen).with (fun v => { v with alarms := s.alarms, runners := s.runners }) fun _ _ => rfl).trans
    ((timesSeen_rest s).with (fun v => { v with alarms := s.alarms }) fun _ _ => rfl)

/-- The validity of the time base that the alarms meet. -/
theorem timesSeen_valid (s : State) : s.timesSeen.time.valid = s.time.valid := by
  have time : s.timesSeen.time = s.time.advance := (SameButMarks.time (timesSeen_rest s) :)
  rw [time, advance_valid]

/-- R151: a second tick of a time base that is not valid. -/
theorem secondTick_invalid (h : s.time.valid = false) : s.secondTick = s.timesSeen :=
  (secondTick_eq s).trans (matchAlarms_invalid ((timesSeen_valid s).trans h))

/-- R134, R151: a runner that no alarm may start only compares its target. -/
theorem secondTick_runner {r : Fin 4} (h : s.runners[r].startable = false ∨
    (s.time.valid = true → ∀ n : Fin 16, s.alarms[n].matches s.time.advance = true → s.alarms[n].runner ≠ r)) :
    s.secondTick.runners[r] = s.runners[r].timeSeen s.time.advance.seconds := by
  cases valid : s.time.valid with
  | false => rw [secondTick_invalid valid, timesSeen_runner]
  | true =>
    rw [(secondTick_met valid).others r, mapTable_get]
    rcases h with h | h
    · exact .inr (by rw [mapTable_get, timeSeen_startable, h])
    · exact .inl fun n _ => h valid n

end

/-- Settles O43: `secondTick_rest` for all but the runners, `secondTick_runner` for those. -/
theorem secondTicksAdvanceTheTime : Obligations.SecondTicksAdvanceTheTime := by
  intro s now
  have advance : s.time.advance = now := advance_eq s.time
  have rest := secondTick_rest s
  have time : s.secondTick.time = s.time.advance := (SameButMarks.time rest :)
  have starvation : s.secondTick.starvation = _ := (SameButMarks.starvation rest :)
  refine ⟨_, exec_secondTick s, time.trans advance, starvation, fun r target hr => ?waits, fun invalid => ?invalid, ?rest⟩
  case waits =>
    have active : s.runners[r].startable = false := not_startable_iff.2 (by rw [hr]; rintro (h | h) <;> cases h)
    rw [secondTick_runner (.inl active), advance]
    unfold Runner.timeSeen
    rw [hr]
  case invalid =>
    refine ⟨?_, fun r hr => ?_⟩
    · rw [secondTick_invalid invalid]
      exact (SameButMarks.alarms (timesSeen_rest s) :)
    · rw [secondTick_runner (.inr fun valid => by rw [invalid] at valid; cases valid), timeSeen_other hr]
  case rest =>
    exact rest.with (fun v => { v with time := s.time, starvation := s.starvation }) fun _ _ => rfl

end Sys2Proof.Machine
end

section
/-! PROOFS. What alarms and triggers start (R151, R153). -/

namespace Sys2Proof.Machine

/-- R153: a source event meets the sixteen triggers. -/
theorem raiseEvent_met (s : State) (i : Fin 16) (event : SourceEvent) :
    SameButMarks { s.raiseEvent i event with triggers := s.triggers, runners := s.runners } s ∧
    Met State.triggers (fun x => decide (x.enabled = true ∧ x.source = i ∧ x.event = event)) Trigger.runner
      (fun n x => Runner.startedAt x.address (.trigger n))
      (fun x => { x with outcome := .started, lastActed := some s.time.seconds, enabled := !x.once })
      (fun x => { x with outcome := .runnerActive, lastActed := some s.time.seconds }) s.triggers s.runners
      (s.raiseEvent i event) (List.finRange 16) :=
  (triggers_start i event s).all (SameButMarks.refl s)

/-- Settles O45: `secondTick_met` for the alarms, `raiseEvent_met` for the triggers. -/
theorem alarmsAndTriggersStartRunners : Obligations.AlarmsAndTriggersStartRunners := by
  refine ⟨?alarm, ?alarmsLeave, ?trigger, ?triggersLeave⟩
  case alarm =>
    intro s n valid now a free lower acts
    obtain ⟨_, _, begins, waits, _, _⟩ := secondTick_met valid
    have startable : (mapTable (Runner.timeSeen now.seconds) s.runners)[a.runner].startable = s.runners[a.runner].startable := by
      rw [mapTable_get, timeSeen_startable]
    refine ⟨_, exec_secondTick s, fun hf hl => ?_, fun hf => ?_⟩
    · obtain ⟨alarm, runner⟩ := begins n (List.mem_finRange n) acts (startable.trans (startable_iff.2 hf))
        fun m _ hm hmatch same => hl m ⟨hm, hmatch, same⟩
      exact ⟨runner, alarm⟩
    · refine waits n (List.mem_finRange n) acts (hf.imp (fun hf => startable.trans (not_startable_iff.2 hf)) ?_)
      rintro ⟨m, hm, hmatch, same⟩
      exact ⟨m, List.mem_finRange m, hm, hmatch, same⟩
  case alarmsLeave =>
    intro s valid now
    refine ⟨_, exec_secondTick s, fun n => (secondTick_met valid).idle n, fun r hr ha => ?_⟩
    rw [secondTick_runner, timeSeen_other hr]
    exact ha.symm.imp (fun active => not_startable_iff.2 (not_or.2 active)) fun named _ => named
  case trigger =>
    intro s n i event g free lower t acts
    obtain ⟨_, _, begins, waits, _, _⟩ := (raiseEvent_met s i event).2
    refine ⟨fun hf hl => ?_, fun hf => ?_⟩
    · obtain ⟨trigger, runner⟩ := begins n (List.mem_finRange n) (decide_eq_true acts) (startable_iff.2 hf)
        fun m _ hm hwatch same => hl m ⟨hm, of_decide_eq_true hwatch, same⟩
      exact ⟨runner, trigger⟩
    · refine waits n (List.mem_finRange n) (decide_eq_true acts) (hf.imp not_startable_iff.2 ?_)
      rintro ⟨m, hm, hwatch, same⟩
      exact ⟨m, List.mem_finRange m, hm, decide_eq_true hwatch, same⟩
  case triggersLeave =>
    intro s i event t
    obtain ⟨rest, met⟩ := raiseEvent_met s i event
    refine ⟨fun n hn => met.idle n (decide_eq_false hn), fun r hr => met.others r (hr.imp ?_ ?_), rest⟩
    · exact fun named n _ hwatch => named n (of_decide_eq_true hwatch)
    · exact fun active => not_startable_iff.2 (not_or.2 active)

end Sys2Proof.Machine
end

section
/-! PROOFS. The order of service and the tests before the owning block (R159, R160). -/

namespace Sys2Proof.Machine

/-! ### The search for the next request -/

/-- The first of the numbers below n that a search finds. -/
theorem findSome?_range {α β : Type} {g : Nat → α} {f : α → Option β} {b : β} {n : Nat} :
    ((List.range n).map g).findSome? f = some b ↔ ∃ i < n, f (g i) = some b ∧ ∀ j < i, f (g j) = none := by
  induction n with
  | zero => simp
  | succ n ih =>
    rw [List.range_succ, List.map_append, List.findSome?_append, Option.or_eq_some_iff, ih]
    constructor
    · rintro (⟨i, hi, found, none⟩ | ⟨none, last⟩)
      · exact ⟨i, Nat.lt_succ_of_lt hi, found, none⟩
      · refine ⟨n, Nat.lt_succ_self n, by simpa using last, fun j hj => ?_⟩
        exact List.findSome?_eq_none_iff.1 none (g j) (List.mem_map_of_mem (List.mem_range.2 hj))
    · rintro ⟨i, hi, found, none⟩
      rcases Nat.lt_succ_iff_lt_or_eq.1 hi with hi | rfl
      · exact .inl ⟨i, hi, found, none⟩
      · refine .inr ⟨List.findSome?_eq_none_iff.2 fun y hy => ?_, by simpa using found⟩
        obtain ⟨j, hj, rfl⟩ := List.mem_map.1 hy
        exact none j (List.mem_range.1 hj)

/-- R159: the next request is the oldest of the first port with a queued request. -/
theorem nextRequest_iff (s : State) (p : Fin 16) (r : Request) : s.nextRequest = some (p, r) ↔
    ∃ i : Nat, i < 16 ∧ p = Fin.ofNat 16 (s.served.val + 1 + i) ∧ s.ports[p].queue.head? = some r ∧
      ∀ j : Nat, j < i → s.ports[Fin.ofNat 16 (s.served.val + 1 + j)].queue = [] := by
  unfold State.nextRequest State.searchOrder
  rw [findSome?_range]
  refine exists_congr fun i => and_congr_right fun _ => ?_
  simp only [Option.map_eq_some_iff, Option.map_eq_none_iff, List.head?_eq_none_iff, Prod.mk.injEq]
  constructor
  · rintro ⟨⟨_, head, rfl, rfl⟩, empty⟩
    exact ⟨rfl, head, empty⟩
  · rintro ⟨rfl, head, empty⟩
    exact ⟨⟨r, head, rfl, rfl⟩, empty⟩

/-! ### The command of a code -/

/-- R159: each code of a request is served by its command. -/
theorem exec_commandOf_known {k : Nat} (h : knownCode k = true) : ∃ body : Fin 16 → List Byte → State → Served,
    ∀ s : State, exec (commandOf k) s = .next (s.serve k body) := by
  unfold knownCode at h
  rw [Bool.and_eq_true, decide_eq_true_iff, decide_eq_true_iff] at h
  obtain ⟨first, last⟩ := h
  interval_cases k <;> exact ⟨_, fun _ => rfl⟩

/-- R160: any other code is served as an unknown request. -/
theorem commandOf_unknown {k : Nat} (h : knownCode k = false) : commandOf k = .unknownRequest := by
  match k with
  | 0 => rfl
  | k + 46 => rfl
  | 1 => cases h

section
variable {s : State} {p : Fin 16} {r : Request}

/-- R160: the service of an unknown request. -/
theorem serveUnknown_eq (h : s.nextRequest = some (p, r)) (hk : knownCode r.code.toNat = false) :
    s.serveUnknown = s.serve r.code.toNat fun _ _ t => unchanged t (.refused .unknownRequest (some 0)) := by
  unfold State.serveUnknown State.serve
  rw [h]
  dsimp only
  rw [hk, if_neg Bool.false_ne_true, if_pos rfl]

/-- R159: the next request is served by the command of its code. -/
theorem exec_commandOf (h : s.nextRequest = some (p, r)) : ∃ body : Fin 16 → List Byte → State → Served,
    exec (commandOf r.code.toNat) s = .next (s.serve r.code.toNat body) := by
  cases hk : knownCode r.code.toNat with
  | true =>
    obtain ⟨body, event⟩ := exec_commandOf_known hk
    exact ⟨body, event s⟩
  | false =>
    rw [commandOf_unknown hk, exec_unknownRequest, serveUnknown_eq h hk]
    exact ⟨_, rfl⟩

end

/-! ### The tests -/

section
variable {x : Port} {r : Request}

/-- R160 step 1: a port without a grant. -/
theorem screenRequest_discard (h : x.grant = .none) : screenRequest x r = .discard := if_pos h

/-- R160 step 2: a port with an attention mark. -/
theorem screenRequest_attention (h : x.grant ≠ .none) (ha : x.attention = true) (hr : r.code ≠ 43) :
    screenRequest x r = .attention := by
  have code : r.code.toNat ≠ 43 := fun k => hr (BitVec.eq_of_toNat_eq k)
  exact (if_neg h).trans (if_pos ⟨ha, code⟩)

/-- R160 step 3 on: a port with a grant and no attention mark. -/
theorem screenRequest_form (h : x.grant ≠ .none) (ha : x.attention = false) : screenRequest x r = screenForm x.grant r :=
  (if_neg h).trans (if_neg fun k => by rw [ha] at k; cases k.1)

variable {g : Grant}

/-- R160 step 3: a code that names no request. -/
theorem screenForm_unknown (h : knownCode r.code.toNat = false) : screenForm g r = .refuse .unknownRequest (some 0) :=
  if_pos (by rw [h]; rfl)

/-- R160 step 4: parameters of another length. -/
theorem screenForm_length (h : knownCode r.code.toNat = true)
    (hl : requiredLength r.code.toNat r.params ≠ some r.params.length) : screenForm g r = .refuse .badLength (some 0) :=
  (if_neg (by rw [h]; nofun)).trans (if_pos hl)

/-- R160 step 5: a reserved byte that is not 0. -/
theorem screenForm_reserved {o : Nat} (h : knownCode r.code.toNat = true)
    (hl : requiredLength r.code.toNat r.params = some r.params.length)
    (hr : reservedOffset r.code.toNat r.params = some o) : screenForm g r = .refuse .reservedNotZero (some o) := by
  unfold screenForm
  rw [if_neg (by rw [h]; nofun), if_neg (not_not.2 hl), hr]

end

/-- Settles O46: `nextRequest_iff` for the order, and one lemma for each test. -/
theorem requestsAreServedInTurnAndTested : Obligations.RequestsAreServedInTurnAndTested := by
  refine ⟨nextRequest_iff, ?tests⟩
  intro s p r h c x lengthOk
  obtain ⟨body, event⟩ := exec_commandOf h
  refine ⟨fun hg => ?discard, fun hg ha hc => ⟨_, event, ?attention⟩, fun hg ha hk => ⟨_, event, ?unknown⟩,
    fun hg ha hk hl => ⟨_, event, ?length⟩, fun o hg ha hk hl hr => ⟨_, event, ?reserved⟩,
    fun hg ha hk hl hr hm => ⟨_, event, ?observe⟩⟩
  case discard =>
    rw [event, serve_discard body h (screenRequest_discard hg)]
    rfl
  case attention => exact serve_attention body h (screenRequest_attention hg ha hc)
  case unknown => exact serve_screened body h ha ((screenRequest_form hg ha).trans (screenForm_unknown hk))
  case length => exact serve_screened body h ha ((screenRequest_form hg ha).trans (screenForm_length hk hl))
  case reserved => exact serve_screened body h ha ((screenRequest_form hg ha).trans (screenForm_reserved hk hl hr))
  case observe => exact serve_screened body h ha (screenRequest_observe hg ha hk hl hr hm)

end Sys2Proof.Machine
end

section
/-! PROOFS. BUSY in a save, and the first field out of range (R70, R171 and the range tests of the requests). -/

namespace Sys2Proof.Machine

/-! ### BUSY in a save -/

section
variable {s : State} {ps : List Byte} (p : Fin 16)

/-- R29: parameters that pass their checks, in a save. -/
theorem setSourceBody_busy (h : sourceBad (splitFields sourceWidths ps) = none) (hb : s.saving = true) :
    setSourceBody p ps s = unchanged s .busy := by
  unfold setSourceBody
  dsimp only
  rw [h]
  exact if_pos hb

/-- R92: settings in range, in a save. -/
theorem setScreenBody_busy (h : firstBad 0 (screenTests (ps.map (·.toNat))) = none) (hb : s.saving = true) :
    setScreenBody p ps s = unchanged s .busy := by
  unfold setScreenBody
  dsimp only
  rw [h]
  exact if_pos hb

/-- R152: an alarm in range, in a save. -/
theorem setAlarmBody_busy (h : alarmBad (splitFields alarmWidths ps) = none) (hb : s.saving = true) :
    setAlarmBody p ps s = unchanged s .busy := by
  unfold setAlarmBody
  dsimp only
  rw [h]
  exact if_pos hb

/-- R154: a trigger in range, in a save. -/
theorem setTriggerBody_busy (h : firstBad 0 (triggerTests (splitFields triggerWidths ps)) = none) (hb : s.saving = true) :
    setTriggerBody p ps s = unchanged s .busy := by
  unfold setTriggerBody
  dsimp only
  rw [h]
  exact if_pos hb

/-- R166: a grant in range, in a save. -/
theorem setGrantBody_busy (h : firstBad 0 [within 0 15 (fld (splitFields [1, 1] ps) 0), within 0 2 (fld (splitFields [1, 1] ps) 1)] = none)
    (hb : s.saving = true) : setGrantBody p ps s = unchanged s .busy := by
  unfold setGrantBody
  dsimp only
  rw [h]
  exact if_pos hb

/-- R171: a save in a save. -/
theorem saveTablesBody_busy (hb : s.saving = true) : saveTablesBody p ps s = unchanged s .busy := by
  unfold State.saving at hb
  unfold saveTablesBody
  split
  · next idle =>
    rw [idle] at hb
    cases hb
  · rfl
  · rfl

/-- R62: an entry of the library is busy in a save. -/
theorem entryBusy_of_saving (h : s.saving = true) (e : Fin 128) : s.entryBusy e = true := by
  unfold State.entryBusy
  rw [h]
  rfl

/-- R111: a scene is busy in a save. -/
theorem sceneBusy_of_saving (h : s.saving = true) (n : Fin 32) : s.sceneBusy n = true := by
  unfold State.sceneBusy
  rw [h]
  rfl

end

/-! ### A field out of range -/

section
variable {s : State} {ps : List Byte} {i : Nat} (p : Fin 16)

/-- R29: a parameter out of range. -/
theorem setSourceBody_outOfRange (h : sourceBad (splitFields sourceWidths ps) = some i) :
    setSourceBody p ps s = unchanged s (outOfRange i) := by
  unfold setSourceBody
  dsimp only
  rw [h]

/-- R92: a setting out of range. -/
theorem setScreenBody_outOfRange (h : firstBad 0 (screenTests (ps.map (·.toNat))) = some i) :
    setScreenBody p ps s = unchanged s (outOfRange i) := by
  unfold setScreenBody
  dsimp only
  rw [h]

/-- R88: a field of FREEZE out of range. -/
theorem freezeBody_outOfRange (h : firstBad 0 (freezeTests (ps.map (·.toNat))) = some i) :
    freezeBody p ps s = unchanged s (outOfRange i) := by
  unfold freezeBody freezeFields
  dsimp only
  rw [h]
  rfl

/-- R89: a field of SET PULSE out of range. -/
theorem setPulseBody_outOfRange (h : firstBad 0 (setPulseTests (ps.map (·.toNat))) = some i) :
    setPulseBody p ps s = unchanged s (outOfRange i) := by
  unfold setPulseBody setPulseFields
  dsimp only
  rw [h]
  rfl

/-- R96: a field of WINDOW TAKE out of range. -/
theorem windowTakeBody_outOfRange (h : firstBad 0 (windowTakeTests (ps.map (·.toNat))) = some i) :
    windowTakeBody p ps s = unchanged s (outOfRange i) := by
  unfold windowTakeBody windowTakeFields
  dsimp only
  rw [h]
  rfl

/-- R107: a field of ROTATE out of range. -/
theorem rotateBody_outOfRange (h : firstBad 0 (rotateTests (ps.map (·.toNat))) = some i) :
    rotateBody p ps s = unchanged s (outOfRange i) := by
  unfold rotateBody rotateFields
  dsimp only
  rw [h]
  rfl

/-- R152: a field of an alarm out of range. -/
theorem setAlarmBody_outOfRange (h : alarmBad (splitFields alarmWidths ps) = some i) :
    setAlarmBody p ps s = unchanged s (outOfRange i) := by
  unfold setAlarmBody
  dsimp only
  rw [h]

/-- R154: a field of a trigger out of range. -/
theorem setTriggerBody_outOfRange (h : firstBad 0 (triggerTests (splitFields triggerWidths ps)) = some i) :
    setTriggerBody p ps s = unchanged s (outOfRange i) := by
  unfold setTriggerBody
  dsimp only
  rw [h]

/-- R166: a field of SET GRANT out of range. -/
theorem setGrantBody_outOfRange (h : firstBad 0 [within 0 15 (fld (splitFields [1, 1] ps) 0), within 0 2 (fld (splitFields [1, 1] ps) 1)] = some i) :
    setGrantBody p ps s = unchanged s (outOfRange i) := by
  unfold setGrantBody
  dsimp only
  rw [h]

/-- R166: the fields of SET GRANT are its two bytes. -/
theorem grant_fields (ps : List Byte) : [within 0 15 (fld (splitFields [1, 1] ps) 0), within 0 2 (fld (splitFields [1, 1] ps) 1)] =
    [within 0 15 (fld (ps.map (·.toNat)) 0), within 0 2 (fld (ps.map (·.toNat)) 1)] := by
  obtain ⟨port, grant⟩ := fld_two_bytes ps
  rw [port, grant, fld_map_toNat, fld_map_toNat]

end

/-- Settles O47: one lemma for each request. -/
theorem busyAndRangeAnswers : Obligations.BusyAndRangeAnswers := by
  constructor
  case left =>
    intro s p r hv f busy
    have saving : (s.beginService p).saving = true := (beginService_saving p s).trans hv
    refine ⟨fun hs h => ⟨_, exec_setSource s, serve_busy hs (setSourceBody_busy p h saving)⟩,
      fun hs h => ⟨_, exec_loadLayout s, serve_busy hs (loadLayoutBody_busy p ?load (entryBusy_of_saving saving _))⟩,
      fun hs h => ⟨_, exec_eraseLayout s, serve_busy hs (eraseLayoutBody_busy p ?erase (entryBusy_of_saving saving _))⟩,
      fun hs h => ⟨_, exec_setScreen s, serve_busy hs (setScreenBody_busy p h saving)⟩,
      fun hs _ => ⟨_, exec_setPalette s, serve_busy hs (setPaletteBody_busy p saving)⟩,
      fun hs h => ⟨_, exec_loadScene s, serve_busy hs (loadSceneBody_busy p h (sceneBusy_of_saving saving _))⟩,
      fun hs h => ⟨_, exec_eraseScene s, serve_busy hs (eraseSceneBody_busy p ?scene (sceneBusy_of_saving saving _))⟩,
      fun hs h => ⟨_, exec_setAlarm s, serve_busy hs (setAlarmBody_busy p h saving)⟩,
      fun hs h => ⟨_, exec_setTrigger s, serve_busy hs (setTriggerBody_busy p h saving)⟩,
      fun hs h => ⟨_, exec_setGrant s, serve_busy hs (setGrantBody_busy p ?grant saving)⟩,
      fun hs _ => ⟨_, exec_saveTables s, serve_busy hs (saveTablesBody_busy p saving)⟩⟩
    case grant =>
      rw [grant_fields]
      exact firstBad_pair_none (within_upto h.1) (within_upto h.2)
    all_goals
      rw [← fld_map_toNat]
      exact h
  case right =>
    intro s p r i f refused
    refine ⟨fun hs h => ⟨_, exec_setSource s, serve_refused hs (by decide) (setSourceBody_outOfRange p h)⟩,
      fun hs h => ⟨_, exec_setScreen s, serve_refused hs (by decide) (setScreenBody_outOfRange p h)⟩,
      fun hs h => ⟨_, exec_freeze s, serve_refused hs (by decide) (freezeBody_outOfRange p h)⟩,
      fun hs h => ⟨_, exec_setPulse s, serve_refused hs (by decide) (setPulseBody_outOfRange p h)⟩,
      fun hs h => ⟨_, exec_windowTake s, serve_refused hs (by decide) (windowTakeBody_outOfRange p h)⟩,
      fun hs h => ⟨_, exec_rotate s, serve_refused hs (by decide) (rotateBody_outOfRange p h)⟩,
      fun hs h => ⟨_, exec_setAlarm s, serve_refused hs (by decide) (setAlarmBody_outOfRange p h)⟩,
      fun hs h => ⟨_, exec_setTrigger s, serve_refused hs (by decide) (setTriggerBody_outOfRange p h)⟩,
      fun hs h => ⟨_, exec_setGrant s, serve_refused hs (by decide) (setGrantBody_outOfRange p ?grant)⟩⟩
    case grant =>
      rw [grant_fields]
      exact h

end Sys2Proof.Machine
end

section
/-! PROOFS. The reads (10 section 10.6). -/

namespace Sys2Proof.Machine

/-! ### What the reports are read from -/

section
variable (s : State) (p : Fin 16)

/-- A port once a service has begun, its queue apart. -/
theorem port_begun (q : Fin 16) : (s.beginService p).ports[q].grant = s.ports[q].grant ∧
    (s.beginService p).ports[q].link = s.ports[q].link ∧ (s.beginService p).ports[q].counters = s.ports[q].counters ∧
    (s.beginService p).ports[q].marks = s.ports[q].marks ∧ (s.beginService p).ports[q].condition = s.ports[q].condition := by
  rw [beginService_ports, put_get]
  split
  · next same =>
    subst same
    exact ⟨rfl, rfl, rfl, rfl, rfl⟩
  · exact ⟨rfl, rfl, rfl, rfl, rfl⟩

/-- The report of a source once a service has begun. -/
theorem sourceReport_begun (i : Fin 16) : sourceReport i (s.beginService p) = sourceReport i s := by
  obtain ⟨_, link, counters, _⟩ := port_begun s p i
  unfold sourceReport
  rw [link, counters]
  rfl

end

/-- The bytes of a table whose entries are read alike. -/
theorem flatMap_table {α β : Type} {n : Nat} {u v : Vector α n} (h : α → β) (k : β → List Byte)
    (same : ∀ i : Fin n, h u[i] = h v[i]) : (u.toList.flatMap fun x => k (h x)) = v.toList.flatMap fun x => k (h x) := by
  have table : u.map h = v.map h := Vector.ext fun i hi => by simpa using same ⟨i, hi⟩
  have lists : u.toList.map h = v.toList.map h := by
    rw [← Vector.toList_map, ← Vector.toList_map, table]
  have mapped (w : Vector α n) : (w.toList.flatMap fun x => k (h x)) = (w.toList.map h).flatMap k :=
    (List.flatMap_map ..).symm
  rw [mapped, mapped, lists]

/-- The grants of two parts whose ports hold the same. -/
theorem grantBytes_congr {s t : State} (h : ∀ q : Fin 16, s.ports[q].grant = t.ports[q].grant) : grantBytes s = grantBytes t :=
  flatMap_table Port.grant (fun g => byte1 g.num) h

/-! ### The owning blocks -/

section
variable {s : State} {ps : List Byte} (p : Fin 16)

/-- R33: READ SOURCE of a source of the part. -/
theorem readSourceBody_inRange (h : (byteAt ps 0).toNat ≤ 15) (ho : (byteAt ps 1).toNat ≤ 1) : readSourceBody p ps s =
    ⟨if (byteAt ps 1).toNat = 1 then s.clearCounters (Fin.ofNat 16 (byteAt ps 0).toNat) else s,
      .done (sourceReport (Fin.ofNat 16 (byteAt ps 0).toNat) s), id⟩ := by
  obtain ⟨number, option⟩ := fld_two_bytes ps
  simp only [readSourceBody, number, option, firstBad_pair_none (within_upto h) (within_upto ho)]

/-- R63: READ LAYOUT of an entry of the library. -/
theorem readLayoutBody_inRange (h : (byteAt ps 0).toNat ≤ 127) : readLayoutBody p ps s =
    unchanged s (.done (byte1 (byteAt ps 0).toNat ++
      presentRecord (s.library[Fin.ofNat 128 (byteAt ps 0).toNat].map (·.bytes)))) := if_neg (Nat.not_lt.2 h)

/-- R93: READ SCREEN of a screen of the part. -/
theorem readScreenBody_inRange (h : (byteAt ps 0).toNat ≤ 23) : readScreenBody p ps s =
    unchanged s (.done (screenReport (Fin.ofNat 24 (byteAt ps 0).toNat) s)) := if_neg (Nat.not_lt.2 h)

/-- R109: READ ROTATION of a list of the part. -/
theorem readRotationBody_inRange (h : (byteAt ps 0).toNat ≤ 7) :
    let l := s.rotations[Fin.ofNat 8 (byteAt ps 0).toNat]
    readRotationBody p ps s = unchanged s (.done (flag (!l.entries.isEmpty) ++ byte1 l.entries.length ++
      (l.entries.flatMap fun e => byte1 e.val) ++ byte1 l.position)) := if_neg (Nat.not_lt.2 h)

/-- R112: READ SCENE of a scene of the table. -/
theorem readSceneBody_inRange (h : (byteAt ps 0).toNat ≤ 31) : readSceneBody p ps s =
    unchanged s (.done (byte1 (byteAt ps 0).toNat ++
      presentRecord (s.scenes[Fin.ofNat 32 (byteAt ps 0).toNat].map sceneBytes))) := if_neg (Nat.not_lt.2 h)

/-- R129: READ CUES of a run of the store. -/
theorem readCuesBody_inRange (h : runBad (fld (splitFields [2, 1] ps) 0) (fld (splitFields [2, 1] ps) 1) = none) :
    let f := splitFields [2, 1] ps
    readCuesBody p ps s = unchanged s (.done (byte2 (fld f 0) ++ byte1 (fld f 1) ++
      (s.cueRun (fld f 0) (fld f 1)).flatMap CueEntry.bytes)) := by
  unfold readCuesBody
  dsimp only
  rw [h]

/-- R146: READ RUNNER of a runner of the part. -/
theorem readRunnerBody_inRange (h : (byteAt ps 0).toNat ≤ 3) :
    let k : Fin 4 := Fin.ofNat 4 (byteAt ps 0).toNat
    readRunnerBody p ps s = ⟨{ s with freeCount := s.freeCount + 1 }, .done (s.runners[k].bytes (s.timeLeft k)), id⟩ :=
  if_neg (Nat.not_lt.2 h)

end

/-! ### The two reads that change something -/

section
variable {s : State} {p : Fin 16} {r : Request}

/-- R33: the clearing of a source's counters, once the service has begun. -/
theorem clearCounters_begun (s : State) (p i : Fin 16) : SameButMarks ((s.beginService p).clearCounters i)
    { s.withSource i { s.sources[i] with completed := 0, errored := 0, starved := 0, skipped := 0, toQualify := 0 } with
      served := p
      ports := ((s.withPort i { s.ports[i] with counters := ⟨0, 0, 0, 0, 0, 0⟩ }).beginService p).ports } := by
  have ports := put_put_comm s.ports i p (fun x => { x with queue := x.queue.tail })
    (fun x => { x with counters := ⟨0, 0, 0, 0, 0, 0⟩ }) fun _ => rfl
  exact .of_eq (congrArg (fun ports : Vector Port 16 => { s.withSource i { s.sources[i] with
    completed := 0, errored := 0, starved := 0, skipped := 0, toQualify := 0 } with served := p, ports := ports }) ports)

/-- R33: READ SOURCE with its clear option. -/
theorem serve_readSource_clear (hs : s.Serves 3 p r) (h : (byteAt r.params 0).toNat ≤ 15) (ho : byteAt r.params 1 = 1) :
    let i := Fin.ofNat 16 (byteAt r.params 0).toNat
    AnsweredAs (s.withPort i { s.ports[i] with counters := ⟨0, 0, 0, 0, 0, 0⟩ }) (s.serve 3 readSourceBody)
      (s.withSource i { s.sources[i] with completed := 0, errored := 0, starved := 0, skipped := 0, toQualify := 0 }) p r
      .done (sourceReport i s) := by
  intro i
  have option : (byteAt r.params 1).toNat = 1 := by rw [ho]; rfl
  rw [serve_of hs, readSourceBody_inRange p h (Nat.le_of_eq option), if_pos option, sourceReport_begun]
  exact answeredAs_of_reply (clearCounters_begun s p i)

/-- R146: the time left of a timer is at most its length. -/
theorem timeLeft_le {k : Fin 4} {i : Fin 16} {o : StopOption} {length : Nat}
    (h : s.runners[k].state = .waiting (.qualified i o length)) : s.timeLeft k ≤ length := by
  unfold State.timeLeft
  rw [h]
  exact Nat.sub_le ..

end

/-- Settles O48: one lemma for each read. -/
theorem readsChangeNothing : Obligations.ReadsChangeNothing := by
  intro s p r n f reads
  refine ⟨fun hs h => ⟨_, exec_readSource s, serve_unchanged hs ?source⟩,
    fun hs h ho => ⟨_, exec_readSource s, serve_readSource_clear hs h ho⟩,
    fun hs _ => ⟨_, exec_readPool s, serve_unchanged hs rfl⟩,
    fun hs h => ⟨_, exec_readLayout s, serve_unchanged hs ?layout⟩,
    fun hs h => ⟨_, exec_readScreen s, serve_unchanged hs (readScreenBody_inRange p h)⟩,
    fun hs _ => ⟨_, exec_readRamp s, serve_unchanged hs rfl⟩,
    fun hs h => ⟨_, exec_readRotation s, serve_unchanged hs ?rotation⟩,
    fun hs h => ⟨_, exec_readScene s, serve_unchanged hs ?scene⟩,
    fun hs _ => ⟨_, exec_readTake s, serve_unchanged hs rfl⟩,
    fun hs h => ⟨_, exec_readCues s, serve_unchanged hs (readCuesBody_inRange p h)⟩,
    fun hs _ => ⟨_, exec_readSchedule s, serve_unchanged hs rfl⟩,
    fun hs _ => ⟨_, exec_readGrants s, serve_unchanged hs ?grants⟩, fun hs h => ?runner⟩
  case source =>
    obtain ⟨number, option⟩ := h
    rw [readSourceBody_inRange p number (by rw [option]; decide), sourceReport_begun, if_neg (by rw [option]; decide)]
    rfl
  case layout =>
    rw [readLayoutBody_inRange p h, beginService_library]
  case rotation =>
    rw [readRotationBody_inRange p h, beginService_rotations]
  case scene =>
    rw [readSceneBody_inRange p h, beginService_scenes]
  case grants =>
    exact congrArg (fun b => unchanged (s.beginService p) (.done b)) (grantBytes_congr fun q => (port_begun s p q).1)
  case runner =>
    have answered : AnsweredAs s (s.serve 35 readRunnerBody) { s with freeCount := s.freeCount + 1 } p r .done
        (s.runners[(Fin.ofNat 4 n : Fin 4)].bytes ((s.beginService p).timeLeft (Fin.ofNat 4 n))) :=
      serve_changed (fun v => { v with freeCount := v.freeCount + 1 }) hs
        ((readRunnerBody_inRange p h).trans (by rw [beginService_runners])) fun _ _ _ => rfl
    have count : (s.serve 35 readRunnerBody).freeCount = s.freeCount + 1 := (SameButMarks.freeCount answered :)
    refine ⟨_, _, exec_readRunner s, by rw [count]; exact answered, fun i o length hw => timeLeft_le (i := i) (o := o) ?_⟩
    rw [beginService_runners]
    exact hw

end Sys2Proof.Machine
end

section
/-! PROOFS. SET GRANT, FETCH CONDITION and STATUS (R163, R166, R169, R170). -/

namespace Sys2Proof.Machine

/-! ### The last FULL grant (R166) -/

section
variable {s : State} {q : Fin 16}

/-- R166: a port that alone holds FULL. -/
theorem onlyFull_iff : s.onlyFull q = true ↔
    s.ports[q].grant = .full ∧ ∀ o : Fin 16, o ≠ q → s.ports[o].grant ≠ .full := by
  unfold State.onlyFull
  rw [List.all_eq_true]
  constructor
  · intro h
    refine ⟨by simpa using h q (List.mem_finRange q), fun o ho => ?_⟩
    simpa [ho] using h o (List.mem_finRange o)
  · rintro ⟨full, others⟩ o _
    by_cases ho : o = q
    · simpa [ho] using full
    · simpa [ho] using others o ho

/-- The ports that hold FULL are the same once a service has begun. -/
theorem onlyFull_begun (s : State) (p q : Fin 16) : (s.beginService p).onlyFull q = s.onlyFull q := by
  unfold State.onlyFull
  simp only [fun o => (port_begun s p o).1]

variable {ps : List Byte}

/-- R166: the grant of the only port that holds FULL is not lowered. -/
theorem setGrantBody_refused (p : Fin 16) (h : (byteAt ps 0).toNat ≤ 15) (hg : (byteAt ps 1).toNat ≤ 2) (hb : s.saving = false)
    (hf : Grant.ofNum (byteAt ps 1).toNat ≠ .full) (hl : s.onlyFull (Fin.ofNat 16 (byteAt ps 0).toNat) = true) :
    setGrantBody p ps s = unchanged s (.refused .lastFullGrant (some 0)) := by
  obtain ⟨port, grant⟩ := fld_two_bytes ps
  simp only [setGrantBody, port, grant, firstBad_pair_none (within_upto h) (within_upto hg), hb, Bool.false_eq_true, if_false,
    if_pos (And.intro hf hl)]

/-- R166: a grant that is given. -/
theorem setGrantBody_done (p : Fin 16) (h : (byteAt ps 0).toNat ≤ 15) (hg : (byteAt ps 1).toNat ≤ 2) (hb : s.saving = false)
    (hl : ¬ (Grant.ofNum (byteAt ps 1).toNat ≠ .full ∧ s.onlyFull (Fin.ofNat 16 (byteAt ps 0).toNat) = true)) :
    let t := s.modPort (Fin.ofNat 16 (byteAt ps 0).toNat) fun x => { x with grant := Grant.ofNum (byteAt ps 1).toNat }
    setGrantBody p ps s = ⟨t, .done (grantBytes t), id⟩ := by
  obtain ⟨port, grant⟩ := fld_two_bytes ps
  simp only [setGrantBody, port, grant, firstBad_pair_none (within_upto h) (within_upto hg), hb, Bool.false_eq_true, if_false,
    if_neg hl]

end

/-! ### The answers, to the last mark -/

section
variable {s : State} {p q : Fin 16} {r : Request}

/-- R161: the part once the reply has gone out, with its service. -/
theorem reply_begun (s : State) (p : Fin 16) (r : Request) (result : List Byte) :
    (s.beginService p).reply p r .done result = { s with
      served := p
      ports := put s.ports p (s.ports[p].answered (replyCell r.tag r.code .done s.wallFault result)) } := by
  have ports : put (put s.ports p { s.ports[p] with queue := s.ports[p].queue.tail }) p
      { (put s.ports p { s.ports[p] with queue := s.ports[p].queue.tail })[p] with
        lane := (put s.ports p { s.ports[p] with queue := s.ports[p].queue.tail })[p].lane ++
          [replyCell r.tag r.code .done s.wallFault result] } =
      put s.ports p (s.ports[p].answered (replyCell r.tag r.code .done s.wallFault result)) := by
    rw [put_put, put_same]
    rfl
  unfold State.reply
  rw [beginService_wallFault]
  exact congrArg (fun ports : Vector Port 16 => { s with served := p, ports := ports }) ports

/-- R166: a grant given once the service has begun. -/
theorem modPort_grant_begun (s : State) (p q : Fin 16) (g : Grant) :
    (s.beginService p).modPort q (fun x => { x with grant := g }) =
      (s.withPort q { s.ports[q] with grant := g }).beginService p := by
  have ports := put_put_comm s.ports q p (fun x => { x with queue := x.queue.tail }) (fun x => { x with grant := g })
    fun _ => rfl
  exact congrArg (fun ports : Vector Port 16 => { s with served := p, ports := ports }) ports

/-- R166: the answer to a SET GRANT that is carried out. -/
theorem serve_setGrant (hs : s.Serves 40 p r) (h : (byteAt r.params 0).toNat ≤ 15) (hg : (byteAt r.params 1).toNat ≤ 2)
    (hb : s.saving = false) :
    let q := Fin.ofNat 16 (byteAt r.params 0).toNat
    let g := Grant.ofNum (byteAt r.params 1).toNat
    ¬ (g ≠ .full ∧ s.onlyFull q = true) →
    let granted := put s.ports q { s.ports[q] with grant := g }
    s.serve 40 setGrantBody = { s with
      served := p
      ports := put granted p (granted[p].answered (replyCell r.tag r.code .done s.wallFault
        (granted.toList.flatMap fun x => byte1 x.grant.num))) } := by
  intro q g hl granted
  have fault : (s.withPort q { s.ports[q] with grant := g }).wallFault = s.wallFault :=
    wallFault_congr rfl rfl rfl rfl rfl rfl rfl rfl
  have bytes : grantBytes ((s.withPort q { s.ports[q] with grant := g }).beginService p) =
      granted.toList.flatMap fun x => byte1 x.grant.num :=
    flatMap_table Port.grant (fun g => byte1 g.num) fun o => (port_begun (s.withPort q { s.ports[q] with grant := g }) p o).1
  rw [serve_of hs, setGrantBody_done p h hg ((beginService_saving p s).trans hb) (by rw [onlyFull_begun]; exact hl)]
  rw [modPort_grant_begun, bytes]
  refine (reply_begun (s.withPort q { s.ports[q] with grant := g }) p r _).trans ?_
  rw [fault]
  rfl

end

/-- Settles O49: `serve_setGrant`. -/
theorem setGrantKeepsAFullPort : Obligations.SetGrantKeepsAFullPort := by
  intro s p r hs hb q g h hg
  refine ⟨fun hf hq ho => ⟨_, exec_setGrant s, ?_⟩, fun hf => ⟨_, exec_setGrant s, ?_⟩⟩
  · exact serve_refused hs (by decide) (setGrantBody_refused p h hg ((beginService_saving p s).trans hb) hf
      (by rw [onlyFull_begun, onlyFull_iff]; exact ⟨hq, ho⟩))
  · refine serve_setGrant hs h hg hb fun bad => ?_
    obtain ⟨lower, only⟩ := bad
    obtain ⟨full, others⟩ := onlyFull_iff.1 only
    rcases hf with hf | hf | ⟨o, ho, hf⟩
    · exact lower hf
    · exact hf full
    · exact others o ho hf

end Sys2Proof.Machine
end

section
/-! PROOFS. The condition, the change marks and what clears them (10 section 10.5, 10.6). -/

namespace Sys2Proof.Machine

/-! ### The two requests that clear -/

section
variable {s : State} {p : Fin 16} {r : Request}

/-- The summary of the part once a service has begun. -/
theorem statusReport_begun (s : State) (p : Fin 16) : statusReport p (s.beginService p) = statusReport p s := by
  obtain ⟨_, _, _, marks, _⟩ := port_begun s p p
  unfold statusReport
  rw [marks, beginService_wallFault]
  rfl

/-- R161: the part after a reply whose port is then written. -/
theorem modPort_reply_begun (s : State) (p : Fin 16) (r : Request) (result : List Byte) (f : Port → Port) :
    ((s.beginService p).reply p r .done result).modPort p f = { s with
      served := p
      ports := put s.ports p (f (s.ports[p].answered (replyCell r.tag r.code .done s.wallFault result))) } := by
  rw [reply_begun]
  have ports (x : Port) : put (put s.ports p x) p (f (put s.ports p x)[p]) = put s.ports p (f x) := by
    rw [put_put, put_same]
  exact congrArg (fun ports : Vector Port 16 => { s with served := p, ports := ports }) (ports _)

/-- R170: FETCH CONDITION. -/
theorem serve_fetchCondition (hs : s.Serves 43 p r) : s.serve 43 fetchConditionBody = { s with
    served := p
    ports := put s.ports p
      { s.ports[p].answered (replyCell r.tag r.code .done s.wallFault (conditionBytes s.ports[p].condition)) with
        condition := none, attention := false } } := by
  obtain ⟨_, _, _, _, condition⟩ := port_begun s p p
  rw [serve_of hs]
  unfold fetchConditionBody
  rw [condition]
  exact modPort_reply_begun s p r _ fun x => { x with condition := none, attention := false }

/-- R168: STATUS. -/
theorem serve_status (hs : s.Serves 42 p r) : s.serve 42 statusBody = { s with
    served := p
    ports := put s.ports p { s.ports[p].answered (replyCell r.tag r.code .done s.wallFault (statusReport p s)) with
      marks := .clear } } := by
  rw [serve_of hs]
  unfold statusBody
  rw [statusReport_begun]
  exact modPort_reply_begun s p r _ fun x => { x with marks := .clear }

end

/-! ### The writes of the job -/

/-- R113: a job whose phase or whose outcomes are seen anew marks the take job on every port. -/
theorem setJob_ports_marked {s : State} {j : Job} (h : s.jobView ≠ some (j.phase, j.members.map fun m => m.outcome))
    (q : Fin 16) :
    (s.setJob j).ports[q] = { s.ports[q] with marks := { s.ports[q].marks with take := true } } := by
  rw [setJob_ports, if_neg]
  rintro ⟨old, hold, _, phase, outcomes⟩
  exact h (by rw [State.jobView, hold, Option.map_some, phase, outcomes])

/-- R113: a job written with what was seen of it marks nothing. -/
theorem setJob_ports_kept {s : State} {j old : Job} (hold : s.job = some old) (serial : old.serial = j.serial)
    (h : s.jobView = some (j.phase, j.members.map fun m => m.outcome)) (q : Fin 16) : (s.setJob j).ports[q] = s.ports[q] := by
  rw [State.jobView, hold, Option.map_some, Option.some.injEq, Prod.mk.injEq] at h
  obtain ⟨phase, outcomes⟩ := h
  rw [setJob_ports, if_pos ⟨old, hold, serial, phase, outcomes⟩]

/-! ### Every command but STATUS marks what it changes -/

/-- The service of a request other than STATUS. -/
theorem Service.marked {code : Nat} {body : Fin 16 → List Byte → State → Served} (k : Service code body)
    (h : commandOf code ≠ .status) (s : State) : Marked s (s.serve code body) := by
  cases k
  case status => exact absurd rfl h
  case readPool | readRamp | readTake | readSchedule | readGrants => exact serve_readRequest_marked _ _ s
  case setSource => exact serve_setSourceBody_marked s
  case requalify => exact serve_requalifyBody_marked s
  case readSource => exact serve_readSourceBody_marked s
  case capture => exact serve_captureBody_marked s
  case releaseStill => exact serve_releaseStillBody_marked s
  case loadLayout => exact serve_loadLayoutBody_marked s
  case eraseLayout => exact serve_eraseLayoutBody_marked s
  case readLayout => exact serve_readLayoutBody_marked s
  case setScreen => exact serve_setScreenBody_marked s
  case setCadence => exact serve_setCadenceBody_marked s
  case setPalette => exact serve_setPaletteBody_marked s
  case freeze => exact serve_freezeBody_marked s
  case setPulse => exact serve_setPulseBody_marked s
  case readScreen => exact serve_readScreenBody_marked s
  case windowTake => exact serve_windowTakeBody_marked s
  case rotate => exact serve_rotateBody_marked s
  case setRamp => exact serve_setRampBody_marked s
  case loadRotation => exact serve_loadRotationBody_marked s
  case readRotation => exact serve_readRotationBody_marked s
  case loadScene => exact serve_loadSceneBody_marked s
  case eraseScene => exact serve_eraseSceneBody_marked s
  case readScene => exact serve_readSceneBody_marked s
  case takeScene => exact serve_takeSceneBody_marked s
  case takeLayout => exact serve_takeLayoutBody_marked s
  case revert => exact serve_revertBody_marked s
  case abortTake => exact serve_abortTakeBody_marked s
  case loadCues => exact serve_loadCuesBody_marked s
  case readCues => exact serve_readCuesBody_marked s
  case startCue => exact serve_startCueBody_marked s
  case stopCue => exact serve_stopCueBody_marked s
  case resumeCue => exact serve_resumeCueBody_marked s
  case readRunner => exact serve_readRunnerBody_marked s
  case setTime => exact serve_setTimeBody_marked s
  case setAlarm => exact serve_setAlarmBody_marked s
  case setTrigger => exact serve_setTriggerBody_marked s
  case setGrant => exact serve_setGrantBody_marked s
  case fetchCondition => exact serve_fetchConditionBody_marked s
  case restart => exact serve_restartBody_marked s
  case saveTables => exact serve_saveTablesBody_marked s

/-- R130: the requests that entries act as. -/
theorem actFields_marked {fields : List Nat → State → State × Answer} (h : fields ∈ actFields) (l : List Nat) {s t : State}
    (k : Marked s t) : Marked s (fields l t).1 := by
  simp only [actFields, List.mem_cons, List.not_mem_nil, or_false] at h
  rcases h with rfl | rfl | rfl | rfl | rfl | rfl
  · exact windowTakeFields_marked l k
  · exact freezeFields_marked l k
  · exact setPulseFields_marked l k
  · exact captureFields_marked l k
  · exact releaseStillFields_marked l k
  · exact requalifyFields_marked l k

/-- The execution of an entry. -/
theorem Execution.marked {kind : CueKind} {run : Fin 4 → CueEntry → State → State} (k : Execution kind run) (r : Fin 4)
    (s : State) : Marked s (s.cueEvent kind (run r) r) := by
  refine cueEvent_marked fun e u h => ?_
  cases k with
  | take f => exact takeEntry_marked f r e h
  | act hf => exact actAs_marked (fun l _ => actFields_marked hf l) e u h
  | rotate => exact rotateEntry_marked r e h
  | waitPictures => exact waitPicturesEntry_marked r e h
  | waitTime => exact waitTimeEntry_marked r e h
  | waitQualified => exact waitQualifiedEntry_marked r e h
  | jump => exact jumpEntry_marked r e h
  | call => exact callEntry_marked r e h
  | ret => exact returnFrom_marked r h
  | halt => exact haltRunner_marked r h
  | empty => exact h

/-- The events that are neither. -/
theorem Event.marked {s t : State} (k : Event s t) : Marked s t := by
  have same : Marked s s := Marked.refl s
  cases k with
  | powerOn => exact powerOn_marked s
  | startUpEnd => exact endStartUp_marked same
  | cell p cell => exact cellArrives_marked p cell same
  | silence p => exact silenceExpires_marked p same
  | stale i => exact takeMiss_marked i (startStale_marked i same)
  | cadenceTick k => exact deliverTick_marked k same
  | screenTick c => exact takeTick_marked c same
  | countEnd r => exact countEnds_marked r same
  | secondTick => exact secondTick_marked same
  | timer r => exact timerExpires_marked r same
  | load _ => exact loadCompletes_marked _ _ _ same
  | result r => exact resultTaken_marked r same
  | erased => exact eraseCompletes_marked same
  | programmed => exact programCompletes_marked same
  | readBack l => exact readBackCompletes_marked l same
  | flashSilent => exact flashUnanswered_marked same
  | unknown => exact serveUnknown_marked s
  | none => exact same

/-- R169: every command but STATUS. -/
theorem exec_marked {c : Instr} {s t : State} (h : c ≠ .status) (ht : exec c s = .next t) : Marked s t := by
  obtain ⟨code, body, k, rfl, rfl⟩ | ⟨kind, run, r, k, rfl⟩ | k := exec_cases ht
  · exact k.marked h s
  · exact k.marked r s
  · exact k.marked

/-- Settles O50: `serve_fetchCondition`, `serve_status`, the four writes that mark, and `exec_marked`. -/
theorem fetchConditionAndStatusClear : Obligations.FetchConditionAndStatusClear := by
  refine ⟨fun s p r hs => ⟨_, exec_fetchCondition s, serve_fetchCondition hs⟩,
    fun s p r hs => ⟨_, exec_status s, serve_status hs⟩, ?writes, fun c s t h ht => exec_marked h ht⟩
  case writes =>
    intro s q p marked
    refine ⟨fun i state => setSourceState_ports i state s q, fun c x => setScreen_ports c x s q,
      fun k x => setRunner_ports k x s q, fun j => ?_⟩
    intro view
    exact ⟨fun h => setJob_ports_marked h q, fun old hold serial h => setJob_ports_kept hold serial h q⟩

end Sys2Proof.Machine
end

section
/-! PROOFS. RESTART (R167). -/

namespace Sys2Proof.Machine

/-! ### The abort of the take job -/

/-- R122: what an abort of the take job in progress, if any, makes of the job and of the screens. -/
structure AbortedInto (s : State) (job : Option Job) (screens : Vector Screen 24) : Prop where
  idle : job.any (·.phase ≠ .done) = false
  kept : s.engineBusy = false → job = s.job
  aborted : ∀ j : Job, s.engineBusy = true → s.job = some j →
    job = some { j with members := j.members.map Member.abort, phase := .done, result := some .aborted }
  screen : ∀ c : Fin 24, screens[c] = { s.screens[c] with standby := screens[c].standby }
  standby : ∀ c : Fin 24, s.pendingMember c = false → screens[c].standby = s.screens[c].standby
  pending : ∀ (c : Fin 24) (j : Job), s.job = some j → s.pendingMember c = true →
    screens[c].standby = s.screens[c].standby.aborted j.kind

section
variable {s : State}

/-- R122: without a job in progress nothing is aborted. -/
theorem AbortedInto.of_idle (h : s.engineBusy = false) : AbortedInto s s.job s.screens where
  idle := h
  kept _ := rfl
  aborted _ busy := absurd (busy.symm.trans h) (by decide)
  screen _ := rfl
  standby _ _ := rfl
  pending c j hj hp := by
    obtain ⟨current, _⟩ := currentJob_of_pendingMember hj hp
    rw [currentJob_none h] at current
    cases current

/-- R122: a job in progress is aborted. -/
theorem AbortedInto.of_current {j : Job} (h : s.currentJob = some j) :
    AbortedInto s (s.aborted j).job (s.aborted j).screens := by
  obtain ⟨hj, hp⟩ := currentJob_some.1 h
  have busy : s.engineBusy = true := by simp [State.engineBusy, hj, hp]
  have screen (c : Fin 24) : (s.aborted j).screens[c] = { s.screens[c] with
      standby := if s.pendingMember c = true then s.screens[c].standby.aborted j.kind else s.screens[c].standby } :=
    ofFn_get ..
  refine ⟨rfl, fun idle => absurd (idle.symm.trans busy) (by decide), fun i _ hi => ?_, fun c => ?_, fun c out => ?_,
    fun c i hi pending => ?_⟩
  · obtain rfl : j = i := Option.some.inj (hj.symm.trans hi)
    rfl
  · rw [screen]
  · rw [screen, if_neg (by rw [out]; decide)]
  · obtain rfl : j = i := Option.some.inj (hj.symm.trans hi)
    rw [screen, if_pos pending]

/-- R122: the abort of a RESTART. -/
theorem abortJob_into (s : State) : ∃ job screens runners, AbortedInto s job screens ∧
    SameButMarks s.abortJob { s with job := job, screens := screens, runners := runners } := by
  cases h : s.currentJob with
  | some j => exact ⟨_, _, _, .of_current h, abortJob_same h⟩
  | none =>
    have idle : s.engineBusy = false := by
      cases busy : s.engineBusy with
      | false => rfl
      | true =>
        simp only [State.currentJob, busy, if_true] at h
        rw [State.engineBusy, h] at busy
        exact absurd busy (by decide)
    have same : s.abortJob = s := by
      unfold State.abortJob
      rw [h]
    exact ⟨_, _, _, .of_idle idle, .of_eq same⟩

end

/-! ### Every block's rule -/

/-- R174: the store at a RESTART. -/
def Store.restart (saving : Bool) (freeCount : Nat) (x : Store) : Store :=
  if saving then { x with flash := ⟨[], some freeCount, true⟩, state := .idle, outcome := .abandoned } else x

/-- R167: the part as a RESTART that arrived on the given port leaves it, the take job and the screens being left by the
abort as given. -/
def State.restarted (p : Fin 16) (job : Option Job) (screens : Vector Screen 24) (s : State) : State := { s with
  ports := Vector.ofFn fun q =>
    { s.ports[q].restart with attention := true, condition := some ⟨.restarted, p.val, 0⟩ }
  sources := Vector.ofFn fun i => s.sources[i].restart s.ports[i].link
  slots := Vector.replicate 64 Slot.empty
  stills := Vector.replicate 4 none
  job := job
  screens := mapTable Screen.restart screens
  runners := Vector.replicate 4 Runner.powerOn
  served := 15
  store := s.store.restart s.saving s.freeCount
  freeCount := if s.saving then s.freeCount + 1 else s.freeCount }

section
variable {s : State} {p : Fin 16} {job : Option Job} {screens : Vector Screen 24}

theorem restarted_source (i : Fin 16) : (s.restarted p job screens).sources[i] = s.sources[i].restart s.ports[i].link := ofFn_get ..

theorem restarted_port (q : Fin 16) : (s.restarted p job screens).ports[q] =
    { s.ports[q].restart with attention := true, condition := some ⟨.restarted, p.val, 0⟩ } := ofFn_get ..

theorem restarted_screen (c : Fin 24) : (s.restarted p job screens).screens[c] = screens[c].restart := mapTable_get ..

end

section
variable {s : State} {p : Fin 16} {r : Request}

/-- R174: a save in flight, and none. -/
theorem abandonSave_eq (s : State) : s.abandonSave = { s with
    store := s.store.restart s.saving s.freeCount
    freeCount := if s.saving then s.freeCount + 1 else s.freeCount } := by
  unfold State.abandonSave Store.restart
  split <;> rfl

/-- A port at a RESTART, whatever its marks. -/
theorem Port.restart_congr {x y : Port} (h : x.unmarked = y.unmarked) : x.restart = y.restart := by
  have unmark (x : Port) : x.restart = x.unmarked.restart := rfl
  rw [unmark x, unmark y, h]

/-- R167: every block's rule, from what the abort makes of the part. -/
theorem restartBlocks_eq {job : Option Job} {screens : Vector Screen 24} {runners : Vector Runner 4}
    (h : SameButMarks s.abortJob { s with job := job, screens := screens, runners := runners }) :
    s.restartBlocks p = s.restarted p job screens := by
  have ports (q : Fin 16) : s.abortJob.ports[q].restart = s.ports[q].restart := Port.restart_congr (h.port q)
  have link (q : Fin 16) : s.abortJob.ports[q].link = s.ports[q].link := h.port_link q
  have whole : s.abortJob = { s with job := job, screens := screens, runners := runners, ports := s.abortJob.ports } :=
    h.rest s.abortJob.ports
  have blocks : s.restartBlocks p = { s.restarted p job screens with
      ports := mapTable (fun x => { x with attention := true, condition := some ⟨.restarted, p.val, 0⟩ })
        (mapTable Port.restart s.abortJob.ports)
      sources := Vector.ofFn fun i => s.sources[i].restart s.abortJob.ports[i].link } := by
    unfold State.restartBlocks
    dsimp only
    rw [abandonSave_eq, whole]
    rfl
  rw [blocks]
  refine congrArg₂ (fun ports sources => { s.restarted p job screens with ports := ports, sources := sources }) ?_ ?_
  · exact table_ext fun q => by rw [mapTable_get, mapTable_get, ofFn_get, ports]
  · exact table_ext fun i => by rw [ofFn_get, ofFn_get, link]

/-- R167: RESTART. -/
theorem serve_restart (hs : s.Serves 44 p r) : ∃ job screens, AbortedInto s job screens ∧
    s.serve 44 restartBody = State.restarted p job screens { s with
      served := p
      ports := put s.ports p (s.ports[p].answered (replyCell r.tag r.code .done s.wallFault [])) } := by
  obtain ⟨job, screens, runners, into, same⟩ := abortJob_into { s with
    served := p
    ports := put s.ports p (s.ports[p].answered (replyCell r.tag r.code .done s.wallFault [])) }
  refine ⟨job, screens, ⟨into.idle, into.kept, into.aborted, into.screen, into.standby, into.pending⟩, ?_⟩
  rw [serve_of hs]
  exact (congrArg (State.restartBlocks p) (reply_begun s p r [])).trans (restartBlocks_eq same)

end

/-! ### What a RESTART keeps -/

section
variable {s : State} {p : Fin 16} {job : Option Job} {screens : Vector Screen 24}

/-- R167: what no block's rule changes. -/
theorem restarted_rest (q : Fin 16) (ports : Vector Port 16) :
    { State.restarted p job screens { s with served := q, ports := ports } with
      ports := s.ports, sources := s.sources, slots := s.slots, stills := s.stills, screens := s.screens, job := s.job,
      runners := s.runners, served := s.served, store := s.store, freeCount := s.freeCount } = s := by
  unfold State.restarted
  rfl

/-- R174: the store without a save. -/
theorem restarted_store_idle (h : s.saving = false) : (s.restarted p job screens).store = s.store := by
  unfold State.restarted Store.restart
  rw [h]
  rfl

/-- R174: the store with a save in flight. -/
theorem restarted_store_saving (h : s.saving = true) : (s.restarted p job screens).store.state = .idle ∧
    (s.restarted p job screens).store.outcome = .abandoned ∧ (s.restarted p job screens).store.flash.crcFails = true := by
  unfold State.restarted Store.restart
  rw [h]
  exact ⟨rfl, rfl, rfl⟩

end

/-- A port that is answered, and every other, at a RESTART. -/
theorem restart_answered (ports : Vector Port 16) (p q : Fin 16) (cell : List Byte) :
    (put ports p (ports[p].answered cell))[q].restart =
      { ports[q].restart with lane := if p = q then ports[q].lane ++ [cell] else ports[q].lane } ∧
    (put ports p (ports[p].answered cell))[q].link = ports[q].link := by
  rw [put_get]
  split
  · next same =>
    subst same
    exact ⟨rfl, rfl⟩
  · exact ⟨rfl, rfl⟩

/-- Settles O51: `serve_restart`, and what `State.restarted` says of each table. -/
theorem restartKeepsTheTables : Obligations.RestartKeepsTheTables := by
  intro s p r hs
  obtain ⟨job, screens, into, served⟩ := serve_restart hs
  refine ⟨_, exec_restart s, ?_⟩
  rw [served]
  have answered := restart_answered s.ports p (cell := replyCell r.tag r.code .done s.wallFault [])
  refine ⟨fun q => ?_, fun q hq => ?_, ?_, fun i => ?_, fun k => ?_, fun k => ?_, fun k => ?_, rfl, into.idle, into.kept,
    into.aborted, fun c => ?_, fun idle => restarted_store_idle idle, fun saving => restarted_store_saving saving, restarted_rest ..⟩
  · rw [restarted_port, (answered q).1]
    rfl
  · rw [restarted_port, (answered q).1, if_neg (Ne.symm hq)]
  · rw [restarted_port, (answered p).1, if_pos rfl]
  · rw [restarted_source, (answered i).2]
    rfl
  · exact Vector.getElem_replicate _
  · exact Vector.getElem_replicate _
  · exact Vector.getElem_replicate _
  · rw [restarted_screen, into.screen c]
    exact ⟨rfl, rfl, rfl, rfl, rfl, rfl, rfl, rfl, into.standby c, into.pending c⟩

end Sys2Proof.Machine
end

section
/-! PROOFS. The save of the tables (11 sections 11.2, 11.3; R172 to R174). -/

namespace Sys2Proof.Machine

/-! ### SAVE TABLES -/

section
variable {s : State}

/-- R172: the content that a service finds is that of the part before it. -/
theorem imageContent_begun (s : State) (p : Fin 16) : imageContent (s.beginService p) = imageContent s := by
  unfold imageContent sectionBodies
  rw [grantBytes_congr (t := s) fun q => (port_begun s p q).1]
  rfl

/-- R172: a save begins. -/
theorem saveTablesBody_begins (p : Fin 16) (ps : List Byte) (h : s.store.state = .idle) :
    let content := imageContent s
    saveTablesBody p ps s = ⟨{ s with store := { s.store with state := .saving .erasing (imageHeader content ++ content) } },
      .done (byte4 content.length ++ byte4 (crc32 content).toNat), id⟩ := by
  unfold saveTablesBody
  rw [h]

/-- R171: a store that is not IDLE is BUSY. -/
theorem saveTablesBody_notIdle (p : Fin 16) (ps : List Byte) (h : s.store.state ≠ .idle) :
    saveTablesBody p ps s = unchanged s .busy := by
  unfold saveTablesBody
  split
  · next idle => exact absurd idle h
  · rfl
  · rfl

/-! ### A flash that does not answer -/

/-- R173: a save that ends with NO ANSWER, at each stage. -/
theorem flashUnanswered_saving {stage : SaveStage} {image : List Byte} (h : s.store.state = .saving stage image) :
    s.flashUnanswered = if stage = .readingBack then s.saveUnanswered else
      (s.loseImageArea s.store.flash.crcFails).saveUnanswered := by
  unfold State.flashUnanswered
  rw [h]
  cases stage <;> rfl

/-- R175: a start-up whose flash does not answer. -/
theorem flashUnanswered_startUp {answered : Bool} (h : s.store.state = .startUpLoad answered) :
    s.flashUnanswered = { s with store := { s.store with state := .startUpLoad false } } := by
  unfold State.flashUnanswered
  rw [h]

/-- Log 4: no command stands. -/
theorem flashUnanswered_idle (h : s.store.state = .idle) : s.flashUnanswered = s := by
  unfold State.flashUnanswered
  rw [h]

/-- R176: the end of a start-up without a valid image. -/
theorem endStartUp_empty {answered : Bool} (h : s.store.state = .startUpLoad answered)
    (none : validImage answered s.store.flash = none) : s.endStartUp = s.settleStart .powerOnEmpty := by
  unfold State.endStartUp
  rw [h]
  dsimp only
  rw [none]

/-- R175: a flash that did not answer holds no valid image. -/
theorem validImage_unanswered (f : Flash) : validImage false f = none := rfl

/-- R164, R176: the attention condition of the end of start-up. -/
theorem StartUpSettled.condition {code : Code} {t : State} (h : StartUpSettled code s t) (q : Fin 16) :
    t.ports[q].condition = some ⟨code, 0, 0⟩ := by
  obtain ⟨ports, _⟩ := h
  have same := ports q
  unfold Port.unmarked at same
  injection same

end

/-- Settles O53: the body of SAVE TABLES, and `flashUnanswered` for each state of the store. -/
theorem savesBeginAndAreGivenUp : Obligations.SavesBeginAndAreGivenUp := by
  refine ⟨fun s p r hs => ?begins, fun s stage image h => ?givenUp, fun s answered h => ?startUp,
    fun s h => congrArg Host.Outcome.next (flashUnanswered_idle h)⟩
  case begins =>
    intro content
    have store : (s.beginService p).store.state = s.store.state := rfl
    refine ⟨fun idle => ⟨_, exec_saveTables s, ?_⟩, fun busy => ⟨_, exec_saveTables s, ?_⟩⟩
    · refine serve_changed (fun v => { v with store := { v.store with
        state := .saving .erasing (imageHeader content ++ content) } }) hs ?_ fun _ _ _ => rfl
      rw [saveTablesBody_begins p r.params (store.trans idle), imageContent_begun]
    · exact serve_busy hs (saveTablesBody_notIdle p r.params fun idle => busy (store.symm.trans idle))
  case givenUp =>
    refine ⟨_, rfl, ?_⟩
    rw [flashUnanswered_saving h]
    split
    · exact ⟨rfl, rfl, fun _ => rfl, rfl, rfl⟩
    · next other => exact ⟨rfl, rfl, fun readingBack => absurd readingBack other, rfl, rfl⟩
  case startUp =>
    refine ⟨_, congrArg Host.Outcome.next (flashUnanswered_startUp h), rfl, _,
      congrArg Host.Outcome.next (endStartUp_empty rfl (validImage_unanswered _)), ?_⟩
    exact (settleStart_settled ..).condition

/-! ### The stages -/

section
variable {s : State} {image : List Byte} {differing : List Host.Cell}

/-- R173: the program writes the image. -/
theorem programCompletes_programming (h : s.store.state = .saving .programming image) :
    s.programCompletes = { s with store := { s.store with
      state := .saving .readingBack image
      flash := { s.store.flash with cells := memWriteBytes s.store.flash.cells 0 image } } } := by
  unfold State.programCompletes
  rw [h]

/-- R173: the erase empties the area. -/
theorem eraseCompletes_erasing (h : s.store.state = .saving .erasing image) :
    s.eraseCompletes = { s with store := { s.store with
      state := .saving .programming image
      flash := { s.store.flash with cells := [], unknown := none } } } := by
  unfold State.eraseCompletes
  rw [h]

/-- R173, R174: the read-back ends the save. -/
theorem readBackCompletes_readingBack (differing : List Host.Cell) (h : s.store.state = .saving .readingBack image) :
    let flash := { s.store.flash with cells := memWriteCells s.store.flash.cells differing, crcFails := false }
    s.readBackCompletes differing = { s with
      store := ⟨.idle, if flash.readBytes 0 image.length = image then .ok else .readBackMismatch, flash⟩ } := by
  unfold State.readBackCompletes
  rw [h]

/-- A read-back within the image area. -/
theorem exec_readBack_within (h : ∀ c ∈ differing, c.1 < 262144) :
    exec (.readBackComplete differing) s = .next (s.readBackCompletes differing) := by
  have none : differing.find? (fun c => Config.imageArea ≤ c.1) = none :=
    List.find?_eq_none.2 fun c hc above => absurd (h c hc) (Nat.not_lt.2 (of_decide_eq_true above))
  rw [exec_readBackComplete, execReadBackComplete, none]

/-- Log 11: a read-back that names an address outside the image area. -/
theorem exec_readBack_outside (h : ∃ c ∈ differing, 262144 ≤ c.1) :
    ∃ a : Nat, 262144 ≤ a ∧ exec (.readBackComplete differing) s = .fault (.outsideImageArea a) := by
  obtain ⟨c, hc, above⟩ := h
  cases found : differing.find? fun c => Config.imageArea ≤ c.1 with
  | none => exact absurd (decide_eq_true above) (List.find?_eq_none.1 found c hc)
  | some d =>
    refine ⟨d.1, of_decide_eq_true (List.find?_some found :), ?_⟩
    rw [exec_readBackComplete, execReadBackComplete, found]

/-- The image area read byte by byte from its start. -/
theorem readBytes_start {f : Flash} {bs : List Byte} :
    f.readBytes 0 bs.length = bs ↔ ∀ i : Nat, i < bs.length → f.read i = bs.getD i 0 := by
  simpa using readBytes_eq (f := f) (a := 0) (bs := bs)

end

/-! ### A start-up from the image of a snapshot -/

/-- R176: the end of a start-up with a valid image. -/
theorem endStartUp_image {s : State} {answered : Bool} {im : Image} (h : s.store.state = .startUpLoad answered)
    (valid : validImage answered s.store.flash = some im) :
    s.endStartUp = (s.restoreTables im).settleStart .powerOnImage := by
  unfold State.endStartUp
  rw [h]
  dsimp only
  rw [valid]

/-- R175: the image of a snapshot, standing in the flash without the mark, is valid. -/
theorem validImage_snapshot {s : State} {f : Flash} (h : s.TablesLaw) (crc : f.crcFails = false)
    (stands : ∀ i : Nat, i < (imageHeader (imageContent s) ++ imageContent s).length →
      f.read i = (imageHeader (imageContent s) ++ imageContent s).getD i 0) :
    validImage true f = some (imageOf s) := by
  obtain ⟨size, parsed⟩ := parse_imageContent h
  have length : (imageHeader (imageContent s) ++ imageContent s).length = 16 + (imageContent s).length := by
    rw [List.length_append, show (imageHeader (imageContent s)).length = 16 by simp [imageHeader]]
  rw [validImage_of crc size (by rw [← length]; exact readBytes_start.2 stands), parsed]

/-- Settles O54: one lemma for each stage, and `validImage_snapshot` with `restoreTables_imageOf` for the start-up. -/
theorem savesGoThroughTheirStages : Obligations.SavesGoThroughTheirStages := by
  refine ⟨fun s image => ⟨fun h => congrArg Host.Outcome.next (eraseCompletes_erasing h), fun law h => ?programmed,
    fun differing h within => ?readBack, fun _ => exec_readBack_outside⟩, fun s v tables grant => ?startUp⟩
  case programmed =>
    refine ⟨_, congrArg Host.Outcome.next (programCompletes_programming h), rfl, fun i hi => ?_, fun a ha => ?_, rfl⟩
    · exact (memRead_memWriteBytes 0 image i law).trans (if_pos ⟨Nat.zero_le i, by omega⟩)
    · exact (memRead_memWriteBytes 0 image a law).trans (if_neg (by omega))
  case readBack =>
    refine ⟨_, (exec_readBack_within within).trans (congrArg Host.Outcome.next (readBackCompletes_readingBack differing h)),
      rfl, ?_, ?_, ?_, rfl, rfl⟩
    · dsimp only
      rw [← readBytes_start]
      split
      · next reads => exact iff_of_true rfl reads
      · next differs => exact iff_of_false (by decide) differs
    · dsimp only
      split
      · exact fun bad => absurd rfl bad
      · exact fun _ => rfl
    · rintro rfl
      rfl
  case startUp =>
    intro content image load crc stands
    refine ⟨_, congrArg Host.Outcome.next (endStartUp_image load (validImage_snapshot tables crc stands)), ?_⟩
    exact (settleStart_settled ..).congr (restoreTables_imageOf tables grant v)

end Sys2Proof.Machine
end

section
/-! PROOFS. Power-on and the end of start-up (11 section 11.4; R175, R176). -/

namespace Sys2Proof.Machine

/-! ### Each owner's rule for a stored record -/

/-- R69: a stored layout. -/
theorem storedLayout_eq (entry : List Byte) :
    let record := entry.drop 2
    let label := (byteAt record 0).toNat
    storedLayout entry = if record.length = 5 + label + 20 * (byteAt record (2 + label)).toNat ∧ recordBad record = none then
      some (layoutOf record) else none := by
  simp only [storedLayout, Option.isNone_iff_eq_none]

/-- R110: a stored scene. -/
theorem storedScene_eq (record : List Byte) :
    let members := (record.drop 1).map (·.toNat)
    storedScene record = if sceneBad (byteAt record 0).toNat members = none then some (membersOf members) else none := by
  simp only [storedScene, Option.isNone_iff_eq_none]

/-- R105: a stored rotation list. -/
theorem storedRotation_eq (record : List Byte) :
    let count := (byteAt record 0).toNat
    let entries := ((record.drop 1).take count).map (·.toNat)
    storedRotation record = if rotationBad count entries = none then ⟨entries.map (Fin.ofNat 16), 0⟩ else ⟨[], 0⟩ := by
  simp only [storedRotation, Option.isNone_iff_eq_none, Rotation.unloaded]

/-- R127: a stored cue entry. -/
theorem storedCue_eq (record : List Byte) :
    let f := splitFields cueWidths record
    storedCue record = if firstBad 0 (entryTests f) = none then entryOfFields f else ⟨.empty, 0, 0, 0, 0, 0, 0⟩ := by
  simp only [storedCue, Option.isNone_iff_eq_none, CueEntry.emptyEntry]

/-- R156: a stored alarm. -/
theorem storedAlarm_eq (record : List Byte) :
    let f := 0 :: splitFields [1, 4, 1, 1, 2] record
    storedAlarm record = if alarmBad f = none then
      ⟨fld f 1 = 1, fld f 2, BitVec.ofNat 7 (fld f 3), Fin.ofNat 4 (fld f 4), fld f 5, .none, none⟩
      else ⟨false, 0, 0, 0, 0, .none, none⟩ := by
  simp only [storedAlarm, Option.isNone_iff_eq_none, alarmOf, Alarm.powerOn]

/-- R156: a stored trigger. -/
theorem storedTrigger_eq (record : List Byte) :
    let f := 0 :: splitFields [1, 1, 1, 1, 2, 1] record
    storedTrigger record = if firstBad 0 (triggerTests f) = none then
      ⟨fld f 1 = 1, Fin.ofNat 16 (fld f 2), .ofNum (fld f 3), Fin.ofNat 4 (fld f 4), fld f 5, fld f 6 = 1, .none, none⟩
      else ⟨false, 0, .qualified, 0, 0, false, .none, none⟩ := by
  simp only [storedTrigger, Option.isNone_iff_eq_none, triggerOf, Trigger.powerOn]

/-- R103: the stored ramp. -/
theorem storedRamp_get (bytes : List Byte) (i : Fin 16) :
    (storedRamp bytes)[i] = if ∀ b ∈ bytes, b.toNat ≤ 32 then (byteAt bytes i.val).toNat else 2 * (i.val + 1) := by
  have checked : (firstBad 0 ((bytes.map (·.toNat)).map (within 0 32))).isNone = true ↔ ∀ b ∈ bytes, b.toNat ≤ 32 := by
    rw [Option.isNone_iff_eq_none, firstBad_eq_none]
    simp
  unfold storedRamp
  dsimp only
  by_cases h : ∀ b ∈ bytes, b.toNat ≤ 32
  · rw [if_pos (checked.2 h), if_pos h]
    exact rampOf_byteAt i
  · rw [if_neg (mt checked.1 h), if_neg h]
    exact ofFn_get ..

/-- R72: a stored rate. -/
theorem storedRate_eq (n powerOn : Nat) :
    storedRate n powerOn = if n = 24 ∨ n = 25 ∨ n = 30 ∨ n = 50 ∨ n = 60 then n else powerOn := by
  simp [storedRate]

/-- R34: the stored parameters of a source. -/
theorem storedParams_eq (record : List Byte) :
    let f := 0 :: splitFields [1, 1, 1, 1, 1, 2] record
    storedParams record = if sourceBad f = none then paramsOf f else ⟨true, 2, 3, 30, 4, 200⟩ := by
  simp only [storedParams, Option.isNone_iff_eq_none, SourceParams.powerOn]

/-- R94: the stored settings of a screen. -/
theorem storedSettings_eq (record : List Byte) :
    let f := 0 :: record.map (·.toNat)
    storedSettings record = if firstBad 0 (screenTests f) = none then settingsOf f else ⟨true, .a, 240, 68, none⟩ := by
  simp only [storedSettings, Option.isNone_iff_eq_none]

/-- R165: a stored grant. -/
theorem storedGrant_eq (bytes : List Byte) (p : Fin 16) :
    storedGrant bytes p = if p = 0 ∧ ∀ q : Fin 16, (byteAt bytes q.val).toNat ≠ 2 then .full
      else Grant.ofNum (byteAt bytes p.val).toNat := by
  have noFull : (!((List.range 16).any fun i => (byteAt bytes i).toNat = 2)) = true ↔
      ∀ q : Fin 16, (byteAt bytes q.val).toNat ≠ 2 := by
    simp only [Bool.not_eq_true', List.any_eq_false, List.mem_range, decide_eq_true_eq]
    exact ⟨fun h q => h q.val q.isLt, fun h i hi => h ⟨i, hi⟩⟩
  unfold storedGrant
  simp only [noFull]

/-! ### The tables of an image -/

/-- R176 steps 1 and 2: the part with what a valid image gives, no mark being set. -/
def State.withImage (im : Image) (s : State) : State := { s with
  library := Vector.ofFn fun i => storedLayout (im.library.getD i.val [])
  scenes := Vector.ofFn fun i => storedScene (im.scenes.getD i.val [])
  rotations := Vector.ofFn fun i => storedRotation (recordAt 17 (im.body 3) i.val)
  cues := Vector.ofFn fun i => storedCue (recordAt 15 (im.body 4) i.val)
  alarms := Vector.ofFn fun i => storedAlarm (recordAt 9 (im.body 5) i.val)
  triggers := Vector.ofFn fun i => storedTrigger (recordAt 7 ((im.body 5).drop 144) i.val)
  palette := paletteOf (im.body 6)
  ramp := storedRamp ((im.body 6).drop 48)
  rateA := storedRate (byteAt (im.body 9) 0).toNat 60
  rateB := storedRate (byteAt (im.body 9) 1).toNat 50
  sources := Vector.ofFn fun i => { s.sources[i] with params := storedParams (recordAt 7 (im.body 7) i.val) }
  screens := Vector.ofFn fun c => s.screens[c].startSettings (storedSettings (recordAt 6 (im.body 8) c.val))
  ports := Vector.ofFn fun p => { s.ports[p] with grant := storedGrant (im.body 10) p } }

section
variable (im : Image) (s : State)

/-- R176: the tables taken from an image, but for the marks of the screens. -/
theorem restoreTables_same : SameButMarks (s.restoreTables im) (s.withImage im) := by
  have screens : (s.restoreTables im).screens = (s.withImage im).screens := table_ext fun c => by
    rw [restoreTables_screens, State.withImage, ofFn_get]
  have rest := restoreTables_rest im s
  generalize s.restoreTables im = w at screens rest
  refine (rest.with (fun u => { u with screens := w.screens }) fun _ _ => rfl).trans (SameButMarks.of_eq ?_)
  rw [screens]
  rfl

/-- What an image does not give. -/
theorem withImage_rest : { s.withImage im with
    library := s.library, scenes := s.scenes, rotations := s.rotations, cues := s.cues, alarms := s.alarms,
    triggers := s.triggers, palette := s.palette, ramp := s.ramp, rateA := s.rateA, rateB := s.rateB,
    sources := s.sources, screens := s.screens, ports := s.ports } = s := by
  unfold State.withImage
  rfl

/-- R176 steps 1 and 2, in the words of the statements. -/
theorem tablesFrom_withImage : TablesFrom im s (s.withImage im) := by
  refine ⟨fun e => ?_, fun n => ?_, fun k => ?_, fun a => ?_, fun n => ?_, fun n => ?_, fun i => ofFn_get .., fun i => ?_,
    fun n hn => ?_, fun n hn => ?_, fun i => ?_, fun c => ?_, fun p => ?_, withImage_rest im s⟩
  · exact (ofFn_get ..).trans (storedLayout_eq _)
  · exact (ofFn_get ..).trans (storedScene_eq _)
  · exact (ofFn_get ..).trans (storedRotation_eq _)
  · exact (ofFn_get ..).trans (storedCue_eq _)
  · exact (ofFn_get ..).trans (storedAlarm_eq _)
  · exact (ofFn_get ..).trans (storedTrigger_eq _)
  · exact storedRamp_get _ i
  · rw [hn]
    exact storedRate_eq _ 60
  · rw [hn]
    exact storedRate_eq _ 50
  · exact (ofFn_get ..).trans (congrArg (fun x => { s.sources[i] with params := x }) (storedParams_eq _))
  · exact (ofFn_get ..).trans (congrArg s.screens[c].startSettings (storedSettings_eq _))
  · exact (ofFn_get ..).trans (congrArg (fun x => { s.ports[p] with grant := x }) (storedGrant_eq _ p))

end

/-! ### Which images are valid -/

/-- R175: the four tests of an image and the cut of its content. -/
theorem validImage_iff {answered : Bool} {f : Flash} {im : Image} :
    let header := f.readBytes 0 16
    let length := beNat ((header.drop 2).take 4)
    validImage answered f = some im ↔
      answered = true ∧ f.crcFails = false ∧ beNat (header.take 2) = 1 ∧ 16 + length ≤ 262144 ∧
        (crc32 (f.readBytes 16 length)).toNat = beNat ((header.drop 6).take 4) ∧
        parseContent (f.readBytes 16 length) = some im := by
  intro header length
  have tests : (answered && !f.crcFails && beNat (header.take 2) == Config.imageFormat &&
      decide (16 + length ≤ Config.imageArea)) = true ↔
      answered = true ∧ f.crcFails = false ∧ beNat (header.take 2) = 1 ∧ 16 + length ≤ 262144 := by
    simp only [Bool.and_eq_true, Bool.not_eq_true', beq_iff_eq, decide_eq_true_eq, and_assoc]
    rfl
  have cut : validImage answered f = if (answered && !f.crcFails && beNat (header.take 2) == Config.imageFormat &&
      decide (16 + length ≤ Config.imageArea)) = true then
      if (crc32 (f.readBytes 16 length)).toNat = beNat ((header.drop 6).take 4) then parseContent (f.readBytes 16 length)
      else none else none := rfl
  rw [cut]
  constructor
  · intro valid
    split at valid
    · next passes =>
      obtain ⟨answers, crc, format, size⟩ := tests.1 passes
      split at valid
      · next sum => exact ⟨answers, crc, format, size, sum, valid⟩
      · cases valid
    · cases valid
  · rintro ⟨answers, crc, format, size, sum, valid⟩
    rw [if_pos (tests.2 ⟨answers, crc, format, size⟩), if_pos sum, valid]

/-! ### Power-on -/

section
variable {s : State}

/-- R175: a power-on without a save in flight keeps the flash. -/
theorem powerOn_idle (h : s.saving = false) :
    s.powerOn.store.flash = s.store.flash ∧ s.powerOn.freeCount = s.freeCount := by
  unfold State.powerOn
  rw [h]
  exact ⟨rfl, rfl⟩

/-- R174: a power-on with a save in flight. -/
theorem powerOn_saving (h : s.saving = true) :
    s.powerOn.store.flash.crcFails = true ∧ s.powerOn.store.flash.unknown.isSome = true := by
  unfold State.powerOn
  rw [h]
  exact ⟨rfl, rfl⟩

/-- R175: everything but the flash is as at reset. -/
theorem powerOn_reset (s : State) : s.powerOn = { State.reset with
    store := { State.reset.store with flash := s.powerOn.store.flash }
    freeCount := s.powerOn.freeCount
    pending := s.pending } := by
  have pending : s.powerOn.pending = s.pending := by
    unfold State.powerOn
    dsimp only
    split <;> rfl
  rw [← pending]
  rfl

/-- Log 4: outside START-UP LOAD. -/
theorem endStartUp_notLoading (h : s.loading = false) : s.endStartUp = s := by
  unfold State.loading at h
  unfold State.endStartUp
  split
  · next load =>
    rw [load] at h
    cases h
  · rfl
  · rfl

end

/-- Settles O4: `powerOn_reset`, `endStartUp_empty`, `tablesFrom_withImage` and `validImage_iff`. -/
theorem powerOnAndStartUp : Obligations.PowerOnAndStartUp := by
  refine ⟨fun s => ⟨_, rfl, powerOn_reset s, powerOn_idle, powerOn_saving⟩, fun s answered load invalid => ?empty,
    fun s answered im load valid => ?image, fun answered f im => validImage_iff,
    fun s h => congrArg Host.Outcome.next (endStartUp_notLoading h)⟩
  case empty =>
    exact ⟨_, congrArg Host.Outcome.next (endStartUp_empty load invalid), settleStart_settled ..⟩
  case image =>
    exact ⟨_, s.withImage im, congrArg Host.Outcome.next (endStartUp_image load valid), tablesFrom_withImage im s,
      (settleStart_settled ..).congr (restoreTables_same im s)⟩

end Sys2Proof.Machine
end
